-- ==== Sys2Proof/Word.lean ====
section
/-! DEFINITION. The words of the Speros SK9: register, byte, lane and line types, and the closed name sets of the encoding (types, rounding modes, scopes, sizes, modifiers, fault codes). -/

namespace Sys2Proof

/-- A 32-bit register element (01 R17, R18). -/
abbrev Word := BitVec 32

/-- One byte of memory, the smallest addressable unit (00 R5). -/
abbrev Byte := BitVec 8

/-- A mask over the 128 lanes of a group (01 R13). Bit j is lane j. -/
abbrev Mask := BitVec 128

/-- A virtual address of 80 bits (02 R28, 13 R305). -/
abbrev Addr := BitVec 80

/-- The 128 lanes of one vector register (01 R17). -/
abbrev Lanes := Vector Word 128

/-- The 128 bytes of one L2 line (01 R20). -/
abbrev Line := Vector Byte 128

/-- The element types of 02 R44. -/
inductive Ty where
  | s32 | n32 | s16 | n16 | s8 | n8 | s4 | n4 | s64 | n64
  | f32 | f16 | bf16 | e4m3 | e5m2
  | b8 | b16 | b32 | b64 | b128
  | f16x2 | bf16x2 | n8x4 | s8x4 | n4x8
  deriving DecidableEq, Repr

/-- The rounding modes of 02 R45. -/
inductive Rnd where
  | rne | rtz | rup | rdn | rna | sr
  deriving DecidableEq, Repr

/-- The scopes of 02 R48. -/
inductive Scope where
  | grp | blk | clu | prt | sys
  deriving DecidableEq, Repr

/-- The access sizes of 02 R47. -/
inductive Size where
  | b8 | b16 | b32 | b64 | b128
  deriving DecidableEq, Repr

/-- The source modifiers of 02 R41. -/
inductive Modifier where
  | none | lo | hi | swh | rev | swb | swn | rot
  deriving DecidableEq, Repr

/-- The fault codes of 17 R362. -/
inductive Code where
  | illegalEncoding | unimplemented | privilege | branchNotHeader | splitOverflow
  | pageNotResident | accessProtection | poison | misaligned | accessBounds | windowBounds
  | atomicTypeAtTarget | barrierOverrun | phaseAhead | badHandle | queueError | gateDenied
  | viewChange | collAbandoned | checkUnresolved | escapedMismatch | stall | watchdog
  | preemptTimeout | preempt | debugStop | softwareTrap
  deriving DecidableEq, Repr

/-- An operand field of 02 R39: bit 10 selects the file, bits 9:0 hold the index. -/
inductive Opnd where
  | v (i : BitVec 10)
  | k (i : BitVec 10)
  deriving DecidableEq, Repr

/-- The guard fields of 02 R37: negate, and a mask register m0 to m15. -/
structure Guard where
  neg : Bool
  mask : BitVec 4
  deriving DecidableEq, Repr

/-- Format A of 02 R43, three registers. -/
structure FormA where
  g : Guard
  dst : Opnd
  a : Opnd
  b : Opnd
  modA : Modifier
  modB : Modifier
  ty : Ty
  rnd : Rnd
  sat : Bool
  deriving DecidableEq, Repr

/-- Format B of 02 R43, four registers. -/
structure FormB where
  g : Guard
  dst : Opnd
  a : Opnd
  b : Opnd
  c : Opnd
  func : BitVec 4
  deriving DecidableEq, Repr

/-- Format C of 02 R43, register and immediate. -/
structure FormC where
  g : Guard
  dst : Opnd
  a : Opnd
  func : BitVec 4
  imm : BitVec 22
  deriving DecidableEq, Repr

/-- Format D of 02 R43, wide immediate. -/
structure FormD where
  g : Guard
  dst : Opnd
  func : BitVec 5
  imm : BitVec 32
  deriving DecidableEq, Repr

/-- Format E of 02 R43 and R47, memory. `off` is `k 1023` where there is no offset register. -/
structure FormE where
  g : Guard
  data : Opnd
  base : BitVec 8
  off : Opnd
  imm : BitVec 12
  scope : Scope
  size : Size
  deriving DecidableEq, Repr

/-- Format F of 02 R43, branch. -/
structure FormF where
  g : Guard
  off : BitVec 32
  cond : BitVec 16
  deriving DecidableEq, Repr

/-- Format G of 02 R43, handle and engine. -/
structure FormG where
  g : Guard
  x : Opnd
  y : Opnd
  handle : BitVec 10
  func : BitVec 16
  deriving DecidableEq, Repr

/-- What the host writes into a partition's configuration record (13 R291); the range table is written by its own event. -/
structure PartConfig where
  enable : Bool
  base : Nat
  limit : Nat
  colours : BitVec 16
  vdevs : BitVec 8
  lendOn : Bool
  lendTo : Nat
  autoReclaim : Bool
  weights : List Nat
  caps : List Nat
  boosts : List Nat
  ways : List (BitVec 16)
  deriving DecidableEq, Repr

/-- Whose reading of a die's error log it is: the host's by the mailbox, or that of a partition through its virtual function (17 R374). -/
structure ErrorRead where
  die : Nat
  viewer : Option Nat
  deriving DecidableEq, Repr

/-- Where an uncorrectable error lies (17 R369). -/
inductive ErrSite where
  | cleanLine (line : Nat)
  | dirtyVersion (line : Nat)
  | bufferEntry (group line : Nat)
  | pendingLine (block line : Nat)
  | updateCopy (group line : Nat)
  | privateLayer (check run : Nat)
  | vreg (group reg lane : Nat)
  | sreg (group reg : Nat)
  | storeWord (block word : Nat)
  | tileStorage (set : Nat)
  | blockControl (block : Nat)
  | jobEntry (job : Nat)
  | gateEntry (gate : Nat)
  | expertEntry (part expert : Nat)
  | replayLog (check : Nat)
  | dram (line : Nat) (dirty : Bool)
  /-- a translation cached at a core, or shared by its die: parity, never uncorrectable (17 R365) -/
  | tlb (core : Nat) (shared : Bool) (part vdev page : Nat)
  deriving DecidableEq, Repr

/-- What the debugger's READ and WRITE name (21 R412); and the sampling of a virtual device, which the debugger sets too (21 R418). -/
inductive DebugItem where
  | sampling (vdev : Nat)
  | vreg (group reg : Nat)
  | sreg (group reg : Nat)
  | mask (group reg : Nat)
  | window (w : Nat)
  | storeWord (word : Nat)
  deriving DecidableEq, Repr

/-- The rings of 21 R420, with the address at which a ring's indices and dropped counter stand (log 28). -/
inductive RingKind where
  | debug (desc : Nat)
  | sample (vdev desc : Nat)
  | trace (vdev desc : Nat)
  deriving DecidableEq, Repr

end Sys2Proof
end

