-- ==== Sys2Proof/Syntax.lean ====
section
/-! DEFINITION. The whole syntax of the machine: one constructor for each row of the opcode table, the 207 instructions of 02 R51 by format and the 120 steps that the machine, the host and its peers take. -/

namespace Sys2Proof

/-- One row of the opcode table each. An instruction carries the fields of its format (02 R43); a step of the machine, of the host or of a peer carries the facts that decide it. -/
inductive Instr where
  /-- ADD, opcode 0x02, format A (R110). -/
  | add (f : FormA)
  /-- ADD_IMM, opcode 0x02, format C (R110). -/
  | addImm (f : FormC)
  /-- SUB, opcode 0x03, format A (R110). -/
  | sub (f : FormA)
  /-- SUB_IMM, opcode 0x03, format C (R110). -/
  | subImm (f : FormC)
  /-- ADDC, opcode 0x04, format A (R110). -/
  | addc (f : FormA)
  /-- SUBB, opcode 0x05, format A (R110). -/
  | subb (f : FormA)
  /-- MUL, opcode 0x06, format A (R111). -/
  | mul (f : FormA)
  /-- MUL_IMM, opcode 0x06, format C (R111). -/
  | mulImm (f : FormC)
  /-- MULH, opcode 0x07, format A (R111). -/
  | mulh (f : FormA)
  /-- MULW, opcode 0x08, format A (R111). -/
  | mulw (f : FormA)
  /-- MAD, opcode 0x09, format B (R111). -/
  | mad (f : FormB)
  /-- MADW, opcode 0x0A, format B (R111). -/
  | madw (f : FormB)
  /-- DIV, opcode 0x0B, format A (R112). -/
  | div (f : FormA)
  /-- DIV_IMM, opcode 0x0B, format C (R112). -/
  | divImm (f : FormC)
  /-- REM, opcode 0x0C, format A (R112). -/
  | rem (f : FormA)
  /-- REM_IMM, opcode 0x0C, format C (R112). -/
  | remImm (f : FormC)
  /-- NEG, opcode 0x0D, format A (R110). -/
  | neg (f : FormA)
  /-- ABS, opcode 0x0E, format A (R110). -/
  | abs (f : FormA)
  /-- MIN, opcode 0x0F, format A (R110). -/
  | min (f : FormA)
  /-- MIN_IMM, opcode 0x0F, format C (R110). -/
  | minImm (f : FormC)
  /-- MAX, opcode 0x10, format A (R110). -/
  | max (f : FormA)
  /-- MAX_IMM, opcode 0x10, format C (R110). -/
  | maxImm (f : FormC)
  /-- AND, opcode 0x11, format A (R113). -/
  | and (f : FormA)
  /-- AND_IMM, opcode 0x11, format C (R113). -/
  | andImm (f : FormC)
  /-- OR, opcode 0x12, format A (R113). -/
  | or (f : FormA)
  /-- OR_IMM, opcode 0x12, format C (R113). -/
  | orImm (f : FormC)
  /-- XOR, opcode 0x13, format A (R113). -/
  | xor (f : FormA)
  /-- XOR_IMM, opcode 0x13, format C (R113). -/
  | xorImm (f : FormC)
  /-- NOT, opcode 0x14, format A (R113). -/
  | not (f : FormA)
  /-- ANDN, opcode 0x15, format A (R113). -/
  | andn (f : FormA)
  /-- SHL, opcode 0x16, format A (R113). -/
  | shl (f : FormA)
  /-- SHL_IMM, opcode 0x16, format C (R113). -/
  | shlImm (f : FormC)
  /-- SHR, opcode 0x17, format A (R113). -/
  | shr (f : FormA)
  /-- SHR_IMM, opcode 0x17, format C (R113). -/
  | shrImm (f : FormC)
  /-- SRA, opcode 0x18, format A (R113). -/
  | sra (f : FormA)
  /-- SRA_IMM, opcode 0x18, format C (R113). -/
  | sraImm (f : FormC)
  /-- ROTL, opcode 0x19, format A (R113). -/
  | rotl (f : FormA)
  /-- ROTL_IMM, opcode 0x19, format C (R113). -/
  | rotlImm (f : FormC)
  /-- ROTR, opcode 0x1A, format A (R113). -/
  | rotr (f : FormA)
  /-- ROTR_IMM, opcode 0x1A, format C (R113). -/
  | rotrImm (f : FormC)
  /-- CLZ, opcode 0x1B, format A (R114). -/
  | clz (f : FormA)
  /-- POPC, opcode 0x1C, format A (R114). -/
  | popc (f : FormA)
  /-- BREV, opcode 0x1D, format A (R114). -/
  | brev (f : FormA)
  /-- BFX, opcode 0x1E, format B (R114). -/
  | bfx (f : FormB)
  /-- BFX_IMM, opcode 0x1E, format C (R114). -/
  | bfxImm (f : FormC)
  /-- BFI, opcode 0x1F, format B (R114). -/
  | bfi (f : FormB)
  /-- BFI_IMM, opcode 0x1F, format C (R114). -/
  | bfiImm (f : FormC)
  /-- SEL, opcode 0x20, format B (R115). -/
  | sel (f : FormB)
  /-- CMP, opcode 0x21, format A (R115). -/
  | cmp (f : FormA)
  /-- CMP_IMM, opcode 0x21, format C (R115). -/
  | cmpImm (f : FormC)
  /-- LEA, opcode 0x22, format E (R119). -/
  | lea (f : FormE)
  /-- ADDW, opcode 0x23, format A (R119). -/
  | addw (f : FormA)
  /-- ADDW_IMM, opcode 0x23, format C (R119). -/
  | addwImm (f : FormC)
  /-- MOV, opcode 0x24, format A (R117). -/
  | mov (f : FormA)
  /-- MOV_IMM, opcode 0x24, format C (R117). -/
  | movImm (f : FormC)
  /-- MOVI, opcode 0x25, format D (R117). -/
  | movi (f : FormD)
  /-- MOVX, opcode 0x26, format C (R118). -/
  | movx (f : FormC)
  /-- MOVY, opcode 0x27, format C (R118). -/
  | movy (f : FormC)
  /-- DOT4, opcode 0x28, format B (R116). -/
  | dot4 (f : FormB)
  /-- SAD, opcode 0x29, format B (R116). -/
  | sad (f : FormB)
  /-- IOTA, opcode 0x2A, format C (R119). -/
  | iota (f : FormC)
  /-- FADD, opcode 0x30, format A (R121). -/
  | fadd (f : FormA)
  /-- FSUB, opcode 0x31, format A (R121). -/
  | fsub (f : FormA)
  /-- FMUL, opcode 0x32, format A (R121). -/
  | fmul (f : FormA)
  /-- FMA, opcode 0x33, format B (R121). -/
  | fma (f : FormB)
  /-- FNMA, opcode 0x34, format B (R121). -/
  | fnma (f : FormB)
  /-- FMIN, opcode 0x35, format A (R122). -/
  | fmin (f : FormA)
  /-- FMAX, opcode 0x36, format A (R122). -/
  | fmax (f : FormA)
  /-- FMINM, opcode 0x37, format A (R122). -/
  | fminm (f : FormA)
  /-- FMAXM, opcode 0x38, format A (R122). -/
  | fmaxm (f : FormA)
  /-- FABS, opcode 0x39, format A (R123). -/
  | fabs (f : FormA)
  /-- FNEG, opcode 0x3A, format A (R123). -/
  | fneg (f : FormA)
  /-- FCMP, opcode 0x3B, format A (R124). -/
  | fcmp (f : FormA)
  /-- FRCP, opcode 0x3C, format A (R126). -/
  | frcp (f : FormA)
  /-- FRSQ, opcode 0x3D, format A (R126). -/
  | frsq (f : FormA)
  /-- FSQRT, opcode 0x3E, format A (R126). -/
  | fsqrt (f : FormA)
  /-- FEXP2, opcode 0x3F, format A (R126). -/
  | fexp2 (f : FormA)
  /-- FLOG2, opcode 0x40, format A (R126). -/
  | flog2 (f : FormA)
  /-- FSINPI, opcode 0x41, format A (R126). -/
  | fsinpi (f : FormA)
  /-- FCOSPI, opcode 0x42, format A (R126). -/
  | fcospi (f : FormA)
  /-- FTANH, opcode 0x43, format A (R126). -/
  | ftanh (f : FormA)
  /-- FSIGM, opcode 0x44, format A (R126). -/
  | fsigm (f : FormA)
  /-- FFRAC, opcode 0x45, format A (R125). -/
  | ffrac (f : FormA)
  /-- FROUND, opcode 0x46, format A (R125). -/
  | fround (f : FormA)
  /-- FCLASS, opcode 0x47, format A (R123). -/
  | fclass (f : FormA)
  /-- FLDEXP, opcode 0x48, format A (R125). -/
  | fldexp (f : FormA)
  /-- FLDEXP_IMM, opcode 0x48, format C (R125). -/
  | fldexpImm (f : FormC)
  /-- FFREXP, opcode 0x49, format A (R125). -/
  | ffrexp (f : FormA)
  /-- FDOT2, opcode 0x4A, format B (R121). -/
  | fdot2 (f : FormB)
  /-- CVT, opcode 0x50, format A (R128). -/
  | cvt (f : FormA)
  /-- CVTI, opcode 0x51, format A (R128). -/
  | cvti (f : FormA)
  /-- PACK, opcode 0x52, format A (R129). -/
  | pack (f : FormA)
  /-- UNPACK, opcode 0x53, format A (R130). -/
  | unpack (f : FormA)
  /-- UNPACK_ELEMENT, opcode 0x53, format C (R130). -/
  | unpackElement (f : FormC)
  /-- DQ, opcode 0x54, format B (R131). -/
  | dq (f : FormB)
  /-- QZ, opcode 0x55, format B (R131). -/
  | qz (f : FormB)
  /-- SRSEED, opcode 0x56, format A (R132). -/
  | srseed (f : FormA)
  /-- SRSEED_IMM, opcode 0x56, format C (R132). -/
  | srseedImm (f : FormC)
  /-- SRREAD, opcode 0x57, format A (R132). -/
  | srread (f : FormA)
  /-- PERM, opcode 0x60, format A (R134). -/
  | perm (f : FormA)
  /-- PERM_BYTES, opcode 0x60, format B (R134). -/
  | permBytes (f : FormB)
  /-- BCAST, opcode 0x61, format A (R135). -/
  | bcast (f : FormA)
  /-- BCAST_IMM, opcode 0x61, format C (R135). -/
  | bcastImm (f : FormC)
  /-- LSHIFT, opcode 0x62, format A (R135). -/
  | lshift (f : FormA)
  /-- LSHIFT_IMM, opcode 0x62, format C (R135). -/
  | lshiftImm (f : FormC)
  /-- BSHIFT, opcode 0x63, format A (R135). -/
  | bshift (f : FormA)
  /-- BSHIFT_IMM, opcode 0x63, format C (R135). -/
  | bshiftImm (f : FormC)
  /-- TLK, opcode 0x64, format A (R136). -/
  | tlk (f : FormA)
  /-- BSEL, opcode 0x65, format B (R137). -/
  | bsel (f : FormB)
  /-- VOTE, opcode 0x66, format A (R138). -/
  | vote (f : FormA)
  /-- MPOP, opcode 0x67, format A (R138). -/
  | mpop (f : FormA)
  /-- MFIRST, opcode 0x68, format A (R138). -/
  | mfirst (f : FormA)
  /-- MAND, opcode 0x69, format A (R139). -/
  | mand (f : FormA)
  /-- MOR, opcode 0x6A, format A (R139). -/
  | mor (f : FormA)
  /-- MXOR, opcode 0x6B, format A (R139). -/
  | mxor (f : FormA)
  /-- MNOT, opcode 0x6C, format A (R139). -/
  | mnot (f : FormA)
  /-- SCAN, opcode 0x6D, format A (R140). -/
  | scan (f : FormA)
  /-- REDUCE, opcode 0x6E, format A (R140). -/
  | reduce (f : FormA)
  /-- RANK, opcode 0x6F, format A (R140). -/
  | rank (f : FormA)
  /-- BR, opcode 0x70, format F (R206). -/
  | br (f : FormF)
  /-- BRU, opcode 0x71, format F (R207). -/
  | bru (f : FormF)
  /-- JMP, opcode 0x72, format F (R208). -/
  | jmp (f : FormF)
  /-- CALL, opcode 0x73, format F (R208). -/
  | call (f : FormF)
  /-- RET, opcode 0x74, format G (R208). -/
  | ret (f : FormG)
  /-- BRX, opcode 0x75, format A (R206). -/
  | brx (f : FormA)
  /-- EXIT, opcode 0x76, format G (R209). -/
  | exit (f : FormG)
  /-- YIELD, opcode 0x77, format G (R211). -/
  | yield (f : FormG)
  /-- SLEEP, opcode 0x78, format C (R212). -/
  | sleep (f : FormC)
  /-- NOP, opcode 0x79, format G (R211). -/
  | nop (f : FormG)
  /-- TRAP, opcode 0x7A, format C (R214). -/
  | trap (f : FormC)
  /-- TRET, opcode 0x7B, format G (R215). -/
  | tret (f : FormG)
  /-- PDONE, opcode 0x7C, format G (R218). -/
  | pdone (f : FormG)
  /-- RMARK, opcode 0x7D, format G (R219). -/
  | rmark (f : FormG)
  /-- DEQ, opcode 0x7E, format G (R220). -/
  | deq (f : FormG)
  /-- ENQ, opcode 0x7F, format G (R221). -/
  | enq (f : FormG)
  /-- LD, opcode 0x80, format E (R251). -/
  | ld (f : FormE)
  /-- ST, opcode 0x81, format E (R251). -/
  | st (f : FormE)
  /-- LDU, opcode 0x82, format E (R251). -/
  | ldu (f : FormE)
  /-- STU, opcode 0x83, format E (R251). -/
  | stu (f : FormE)
  /-- LDW, opcode 0x84, format G (R257). -/
  | ldw (f : FormG)
  /-- STW, opcode 0x85, format G (R257). -/
  | stw (f : FormG)
  /-- LDF, opcode 0x86, format G (R259). -/
  | ldf (f : FormG)
  /-- STE, opcode 0x87, format G (R259). -/
  | ste (f : FormG)
  /-- FEFILL, opcode 0x88, format G (R260). -/
  | fefill (f : FormG)
  /-- FEGET, opcode 0x89, format G (R260). -/
  | feget (f : FormG)
  /-- SETW, opcode 0x8A, format G (R256). -/
  | setw (f : FormG)
  /-- FILLW, opcode 0x8B, format G (R258). -/
  | fillw (f : FormG)
  /-- FLUSHW, opcode 0x8C, format G (R258). -/
  | flushw (f : FormG)
  /-- PREFETCH, opcode 0x8D, format E (R253). -/
  | prefetch (f : FormE)
  /-- PUB, opcode 0x8E, format G (R254). -/
  | pub (f : FormG)
  /-- SNAP, opcode 0x8F, format G (R254). -/
  | snap (f : FormG)
  /-- PHASE, opcode 0x90, format G (R254). -/
  | phase (f : FormG)
  /-- FENCE, opcode 0x91, format G (R255). -/
  | fence (f : FormG)
  /-- WAITC, opcode 0x92, format D (R250). -/
  | waitc (f : FormD)
  /-- WAITR, opcode 0x93, format G (R250). -/
  | waitr (f : FormG)
  /-- ATOM, opcode 0xA0, format E (R261). -/
  | atom (f : FormE)
  /-- ATOM_WINDOW, opcode 0xA0, format G (R261). -/
  | atomWindow (f : FormG)
  /-- CAS, opcode 0xA1, format E (R261). -/
  | cas (f : FormE)
  /-- CAS_WINDOW, opcode 0xA1, format G (R261). -/
  | casWindow (f : FormG)
  /-- RED, opcode 0xA2, format E (R261). -/
  | red (f : FormE)
  /-- RED_WINDOW, opcode 0xA2, format G (R261). -/
  | redWindow (f : FormG)
  /-- ATOMF, opcode 0xA3, format E (R261). -/
  | atomf (f : FormE)
  /-- ATOMF_WINDOW, opcode 0xA3, format G (R261). -/
  | atomfWindow (f : FormG)
  /-- REDF, opcode 0xA4, format E (R261). -/
  | redf (f : FormE)
  /-- REDF_WINDOW, opcode 0xA4, format G (R261). -/
  | redfWindow (f : FormG)
  /-- ATOMW, opcode 0xA5, format E (R261). -/
  | atomw (f : FormE)
  /-- BARINIT, opcode 0xB0, format G (R266). -/
  | barinit (f : FormG)
  /-- BARARR, opcode 0xB1, format G (R265). -/
  | bararr (f : FormG)
  /-- BARWAIT, opcode 0xB2, format G (R266). -/
  | barwait (f : FormG)
  /-- BARTOK, opcode 0xB3, format G (R266). -/
  | bartok (f : FormG)
  /-- QPUSH, opcode 0xB4, format G (R268). -/
  | qpush (f : FormG)
  /-- QPOP, opcode 0xB5, format G (R268). -/
  | qpop (f : FormG)
  /-- QSTAT, opcode 0xB6, format G (R268). -/
  | qstat (f : FormG)
  /-- COPY, opcode 0xB7, format G (R269). -/
  | copy (f : FormG)
  /-- GCOPY, opcode 0xB8, format G (R270). -/
  | gcopy (f : FormG)
  /-- TCFG, opcode 0xC0, format G (R148). -/
  | tcfg (f : FormG)
  /-- UNF, opcode 0xC1, format G (R149). -/
  | unf (f : FormG)
  /-- BLOAD, opcode 0xC2, format G (R154). -/
  | bload (f : FormG)
  /-- XFETCH, opcode 0xC3, format G (R166). -/
  | xfetch (f : FormG)
  /-- MMA, opcode 0xC4, format G (R155). -/
  | mma (f : FormG)
  /-- ACCZ, opcode 0xC5, format G (R157). -/
  | accz (f : FormG)
  /-- ACCLD, opcode 0xC6, format G (R157). -/
  | accld (f : FormG)
  /-- ACCST, opcode 0xC7, format G (R157). -/
  | accst (f : FormG)
  /-- DRAIN, opcode 0xC8, format G (R159). -/
  | drain (f : FormG)
  /-- CHAIN, opcode 0xC9, format G (R158). -/
  | chain (f : FormG)
  /-- TSYNC, opcode 0xCA, format G (R171). -/
  | tsync (f : FormG)
  /-- TSIG, opcode 0xCB, format G (R171). -/
  | tsig (f : FormG)
  /-- ECNT, opcode 0xD8, format G (R165). -/
  | ecnt (f : FormG)
  /-- XSTAT, opcode 0xD9, format G (R167). -/
  | xstat (f : FormG)
  /-- COLL, opcode 0xE0, format G (R388). -/
  | coll (f : FormG)
  /-- CVIEW, opcode 0xE1, format G (R396). -/
  | cview (f : FormG)
  /-- CPOLICY, opcode 0xE2, format G (R401). -/
  | cpolicy (f : FormG)
  /-- CACK, opcode 0xE3, format G (R407). -/
  | cack (f : FormG)
  /-- CJOIN, opcode 0xE4, format G (R403). -/
  | cjoin (f : FormG)
  /-- GSIG, opcode 0xE8, format G (R322). -/
  | gsig (f : FormG)
  /-- GWAIT, opcode 0xE9, format G (R323). -/
  | gwait (f : FormG)
  /-- GTRY, opcode 0xEA, format G (R323). -/
  | gtry (f : FormG)
  /-- GXCH, opcode 0xEB, format G (R324). -/
  | gxch (f : FormG)
  /-- GSTAT, opcode 0xEC, format G (R325). -/
  | gstat (f : FormG)
  /-- SYSRD, opcode 0xF0, format G (R377). -/
  | sysrd (f : FormG)
  /-- SYSWR, opcode 0xF1, format G (R377). -/
  | syswr (f : FormG)
  /-- CLK, opcode 0xF2, format G (R360). -/
  | clk (f : FormG)
  /-- RUNK, opcode 0xF3, format G (R361). -/
  | runk (f : FormG)
  /-- BRK, opcode 0xF4, format G (R378). -/
  | brk (f : FormG)
  /-- MARK, opcode 0xF5, format D (R379). -/
  | mark (f : FormD)
  /-- SAMPCTL, opcode 0xF6, format G (R380). -/
  | sampctl (f : FormG)
  /-- SVC, opcode 0xF7, format C (R381). -/
  | svc (f : FormC)
  /-- WORD_NOT_AN_INSTRUCTION (R56). -/
  | wordNotAnInstruction (w : BitVec 64)
  /-- SPLIT_ENTRY_RETURN (R187). -/
  | splitEntryReturn (group frag : Nat)
  /-- MERGE_PATIENCE_EXPIRY (R190). -/
  | mergePatienceExpiry (group frag : Nat)
  /-- LOAD_COMPLETE (R249). -/
  | loadComplete (group op : Nat)
  /-- ROUND_CLOSE (R230). -/
  | roundClose (part : Nat)
  /-- VERSION_RETIRE (R232). -/
  | versionRetire (part line round : Nat)
  /-- JOB_PERFORM (R240). -/
  | jobPerform (job : Nat)
  /-- JOB_COMPLETE (R240). -/
  | jobComplete (job : Nat)
  /-- TILE_INSTRUCTION_COMPLETE (R169). -/
  | tileInstructionComplete (set : Nat)
  /-- XFETCH_DEADLINE (R166). -/
  | xfetchDeadline (job : Nat)
  /-- XFETCH_PRIMARY_LANDED (R166). -/
  | xfetchPrimaryLanded (job : Nat)
  /-- LAUNCH_PACKET (R277). -/
  | launchPacket (part queue : Nat) (host : Bool)
  /-- COPY_PACKET (R277). -/
  | copyPacket (part queue : Nat)
  /-- WORK_ITEM_PACKET (R277). -/
  | workItemPacket (part queue : Nat)
  /-- LAUNCH_COMPLETE (R343). -/
  | launchComplete (launch : Nat)
  /-- BLOCK_ADMISSION (R185). -/
  | blockAdmission (part : Nat)
  /-- BLOCK_RESTART (R200). -/
  | blockRestart (block : Nat)
  /-- RESUME (R198). -/
  | resume (block : Nat)
  /-- GATE_SERVER_PERFORM (R326). -/
  | gateServerPerform (op : Nat)
  /-- SHADOW_RUN_START (R341). -/
  | shadowRunStart (check : Nat)
  /-- KEEPING_RUN_START (R341). -/
  | keepingRunStart (check : Nat)
  /-- KILN_DECISION (R351). -/
  | kilnDecision (check : Nat)
  /-- COLL_COMPLETE (R389). -/
  | collComplete (job : Nat)
  /-- SLEEP_COUNT_RUNS_OUT (R212). -/
  | sleepCountRunsOut (group frag : Nat)
  /-- DUMP_COMPLETE (R425). -/
  | dumpComplete (part vdev : Nat)
  /-- JOIN_TIMEOUT (R403). -/
  | joinTimeout (group frag : Nat)
  /-- PEER_ROUTE_TIMEOUT (R373). -/
  | peerRouteTimeout (group op : Nat)
  /-- BANK_SELF_TEST (R354). -/
  | bankSelfTest (core : Nat) (slice pass : Bool)
  /-- CONE_TEST (R355). -/
  | coneTest (die : Nat)
  /-- WINDOW_WRITEBACK (R258). -/
  | windowWriteback (block window line : Nat)
  /-- PREEMPTION (R197). -/
  | preemption (block trigger : Nat)
  /-- PREEMPT_TIMEOUT (R197). -/
  | preemptTimeout (block : Nat)
  /-- RESIDENT (R310). -/
  | resident (part seq : Nat)
  /-- DECLINED (R310). -/
  | declined (part seq : Nat)
  /-- GROUP_WATCHDOG_FIRING (R201). -/
  | groupWatchdogFiring (group : Nat)
  /-- STALL (R203). -/
  | stall (part : Nat)
  /-- PARTITION_RESUME (R203). -/
  | partitionResume (part : Nat)
  /-- HOST_PREEMPT (R197). -/
  | hostPreempt (block : Nat)
  /-- ALLOWANCE_PERIOD (R298). -/
  | allowancePeriod (part : Nat)
  /-- ALLOWANCE_EXHAUSTED (R299). -/
  | allowanceExhausted (part vdev : Nat)
  /-- LEND (R303). -/
  | lend (part cluster : Nat)
  /-- RECLAIM (R304). -/
  | reclaim (part cluster : Nat)
  /-- AUTO_RECLAIM (R304). -/
  | autoReclaim (part : Nat)
  /-- PARTITION_CONFIG_WRITE (R291). -/
  | partitionConfigWrite (part : Nat) (conf : PartConfig)
  /-- RANGE_TABLE_WRITE (R306). -/
  | rangeTableWrite (part index : Nat) (entry : BitVec 128)
  /-- REGION_ATTRIBUTE_WRITE (R305). -/
  | regionAttributeWrite (part vdev index : Nat) (entry : BitVec 128)
  /-- TLB_INVALIDATION (R308). -/
  | tlbInvalidation (part vdev : Nat) (range : Option (Nat × Nat × Nat))
  /-- PAGE_REQUEST_RING_REGISTER (R309). -/
  | pageRequestRingRegister (part base entries : Nat)
  /-- PACKET_QUEUE_REGISTER (R275). -/
  | packetQueueRegister (part queue address : Nat)
  /-- WORK_QUEUE_CAPACITY (R182). -/
  | workQueueCapacity (part queue items : Nat)
  /-- EXPERT_TABLE_WRITE (R164). -/
  | expertTableWrite (part index : Nat) (entry : BitVec 512)
  /-- CHECK_AREA_REGISTER (R344). -/
  | checkAreaRegister (part base bytes : Nat)
  /-- SERVICE_RING_REGISTER (R382). -/
  | serviceRingRegister (part address : Nat)
  /-- ADMIN_QUEUE_REGISTER (R382). -/
  | adminQueueRegister (address : Nat)
  /-- REPLY (R381). -/
  | reply (part seq : Nat) (value : Word)
  /-- COUNTER_WRITE (R296). -/
  | counterWrite (part register index value : Nat)
  /-- HOST_MEM_WRITE (R238). -/
  | hostMemWrite (address : Nat) (data : List Byte)
  /-- HOST_MEM_READ (R238). -/
  | hostMemRead (address bytes : Nat)
  /-- HOST_LINE_SNOOP (R238). -/
  | hostLineSnoop (address : Nat) (data : List Byte)
  /-- PEER_WRITE (R238). -/
  | peerWrite (address : Nat) (data : List Byte)
  /-- CREATE (R315). -/
  | gateCreate (gate : Nat) (image : BitVec 1024)
  /-- SETACL (R315). -/
  | gateSetAcl (gate : Nat) (list : BitVec 64)
  /-- SETRATE (R315). -/
  | gateSetRate (gate rate depth : Nat)
  /-- DESTROY (R315). -/
  | gateDestroy (gate : Nat)
  /-- FREEZE (R315). -/
  | gateFreeze (gate : Nat)
  /-- EXPORT (R329). -/
  | gateExport (gate : Nat)
  /-- IMPORT (R329). -/
  | gateImport (gate : Nat) (image : BitVec 1024) (queued : List (Nat × Nat))
  /-- THAW (R328). -/
  | gateThaw (gate : Nat)
  /-- DEFERRED_COUNT_CLEAR (R314). -/
  | deferredCountClear (gate : Nat)
  /-- BUCKET_TICK (R317). -/
  | bucketTick
  /-- CONE_TEST_COMPLETE (R353). -/
  | coneTestComplete (core : Nat) (pass : Bool)
  /-- CONE_TEST_ABORT (R355). -/
  | coneTestAbort (core : Nat)
  /-- CORRECTED_ERROR (R366). -/
  | correctedError (dram : Bool) (core unit line : Nat)
  /-- UNCORRECTABLE_ERROR (R369). -/
  | uncorrectableError (site : ErrSite)
  /-- PATROL_SCRUB (R366). -/
  | patrolScrub (line : Nat) (corrected : Bool)
  /-- LINK_RETRAIN (R372). -/
  | linkRetrain (link : Nat) (lanes : BitVec 8)
  /-- THERMAL_THROTTLE (R437). -/
  | thermalThrottle
  /-- THERMAL_SHUTDOWN (R437). -/
  | thermalShutdown
  /-- READ_KILSY (R428). -/
  | readKilsy (list : Option Nat)
  /-- READ_ERRORS (R428). -/
  | readErrors (log : ErrorRead)
  /-- START_COLD (R430). -/
  | startCold (failing : List Nat) (ok : Bool)
  /-- START_WARM (R431). -/
  | startWarm (ok : Bool)
  /-- SET_TOLERANCE (R434). -/
  | setTolerance (micros : Nat) (region : Option Nat)
  /-- DEVICE_STATE (R433). -/
  | deviceState
  /-- WAKE (R435). -/
  | wake
  /-- UPDATE_CONFIG (R428). -/
  | updateConfig (block : BitVec 1280)
  /-- IDLE_POWER_ENTRY (R434). -/
  | idlePowerEntry
  /-- WAKE_EVENT (R435). -/
  | wakeEvent (cxlMem : Bool)
  /-- TENANT_KEY_LOAD (R312). -/
  | tenantKeyLoad (part vdev : Nat) (key : BitVec 256)
  /-- TENANT_KEY_CLEAR (R312). -/
  | tenantKeyClear (part vdev : Nat)
  /-- COLL_GROUP_CREATE (R393). -/
  | collGroupCreate (id part slot view : Nat) (members : BitVec 256) (fabric : List Nat)
  /-- HEARTBEAT (R397). -/
  | heartbeat (id : Nat)
  /-- HEARTBEAT_TIMEOUT (R397). -/
  | heartbeatTimeout (id slot : Nat)
  /-- MEMBER_REMOVE (R397). -/
  | memberRemove (id slot : Nat)
  /-- PROPOSE (R398). -/
  | propose (id slot view : Nat) (live : BitVec 256)
  /-- ACKNOWLEDGE (R398). -/
  | acknowledge (id slot view : Nat)
  /-- COMMIT (R400). -/
  | commit (id view num : Nat) (live : BitVec 256)
  /-- ACK_LAPSE (R398). -/
  | ackLapse (id : Nat)
  /-- COLL_PACKET (R395). -/
  | collPacket (id view op slot : Nat) (card : List Nat) (data : List Byte)
  /-- POLICY_CHOICE (R401). -/
  | policyChoice (id op slot choice : Nat)
  /-- CHOICE_TIMEOUT (R401). -/
  | choiceTimeout (id op : Nat)
  /-- JOIN_REQUEST (R404). -/
  | joinRequest (id slot : Nat) (digest : BitVec 64)
  /-- ATTACH (R412). -/
  | debugAttach (part : Nat) (stops : Bool)
  /-- DETACH (R412). -/
  | debugDetach (part : Nat)
  /-- STOP (R413). -/
  | debugHold (part launch block : Nat)
  /-- RELEASE (R415). -/
  | debugRelease (part launch block : Nat)
  /-- STEP (R415). -/
  | debugOne (part launch block group : Nat)
  /-- SETBP (R412). -/
  | debugSetBp (part n : Nat) (address : Addr) (launch : Nat)
  /-- CLRBP (R412). -/
  | debugClrBp (part n : Nat)
  /-- READ (R412). -/
  | debugRead (part launch block : Nat) (what : DebugItem)
  /-- WRITE (R412). -/
  | debugWrite (part launch block : Nat) (what : DebugItem) (data : List Word)
  /-- SAMPLE_TAG (R418). -/
  | sampleTag (core quarter group frag : Nat)
  /-- TRACE_ENABLE (R421). -/
  | traceEnable (part vdev : Nat) (on : Bool) (channels : BitVec 16) (kinds : BitVec 8)
  /-- RING_REGISTER (R420). -/
  | ringRegister (part : Nat) (ring : RingKind) (base entries : Nat)
  /-- DUMP (R422). -/
  | dump (part vdev dest : Nat)
  /-- INBOUND_PEER_ATOMIC (R262). -/
  | inboundPeerAtomic (address : Nat) (aop : BitVec 6) (wide : Bool) (operand : Nat)
  /-- INBOUND_PEER_READ (R370). -/
  | inboundPeerRead (address bytes : Nat)
  /-- SUSPECT_REPORT (R397). -/
  | suspectReport (id slot : Nat)
  /-- HEARTBEAT_RECEIVED (R397). -/
  | heartbeatReceived (id slot : Nat)
  /-- EXPECTED_DIGEST_SET (R403). -/
  | expectedDigestSet (id : Nat) (digest : BitVec 64)
  deriving DecidableEq, Repr

end Sys2Proof
end

