-- ==== Sys2Proof/Machine/Bits.lean ====
section
/-! DEFINITION. Bit fields, sign extension, byte order and the numbers of the closed name sets, in the bits of the manual. -/

namespace Sys2Proof.Machine
open Sys2Proof

/-- The n bits of w from bit lo upward (00 R5). -/
def bitsAt (w lo n : Nat) : Nat := w / 2 ^ lo % 2 ^ n

/-- Bit i of w. -/
def bitAt (w i : Nat) : Bool := w / 2 ^ i % 2 == 1

/-- w read as a two's complement number of n bits (04 R80). -/
def signed (n w : Nat) : Int :=
  let u := w % 2 ^ n
  if u < 2 ^ (n - 1) then (u : Int) else (u : Int) - (2 ^ n : Nat)

/-- The low n bits of an exact integer (00 R7). -/
def wrap (n : Nat) (x : Int) : Nat := (x % ((2 ^ n : Nat) : Int)).toNat

/-- w of n bits, sign extended and then cut to m bits. -/
def sext (n m w : Nat) : Nat := wrap m (signed n w)

/-- A number as a register element. -/
abbrev toWord (x : Nat) : Word := BitVec.ofNat 32 x

/-- Rotation of the low n bits of x left by c places. -/
def rotlN (n x c : Nat) : Nat :=
  let k := c % n
  let v := x % 2 ^ n
  (v * 2 ^ k) % 2 ^ n + v / 2 ^ (n - k)

/-- Bytes, lowest address first, as one number (00 R5, little-endian). -/
def fromBytes : List Byte → Nat
  | [] => 0
  | b :: bs => b.toNat + 256 * fromBytes bs

/-- The low n bytes of x, lowest address first (00 R5). -/
def toBytes : Nat → Nat → List Byte
  | 0, _ => []
  | n + 1, x => BitVec.ofNat 8 (x % 256) :: toBytes n (x / 256)

/-- Words, lowest index first, as one number. -/
def fromWords : List Word → Nat
  | [] => 0
  | w :: ws => w.toNat + 2 ^ 32 * fromWords ws

/-- The low n words of x, lowest first. -/
def toWords : Nat → Nat → List Word
  | 0, _ => []
  | n + 1, x => BitVec.ofNat 32 (x % 2 ^ 32) :: toWords n (x / 2 ^ 32)

/-- The number of one bits among the low n bits of x. -/
def countOnes : Nat → Nat → Nat
  | 0, _ => 0
  | n + 1, x => x % 2 + countOnes n (x / 2)

/-- The low n bits of x in the opposite order. -/
def reverseBits : Nat → Nat → Nat
  | 0, _ => 0
  | n + 1, x => (x % 2) * 2 ^ n + reverseBits n (x / 2)

/-- The type code of 02 R44. -/
def tyCode : Ty → Nat
  | .s32 => 0x00 | .n32 => 0x01 | .s16 => 0x02 | .n16 => 0x03 | .s8 => 0x04 | .n8 => 0x05
  | .s4 => 0x06 | .n4 => 0x07 | .s64 => 0x08 | .n64 => 0x09 | .f32 => 0x0A | .f16 => 0x0B
  | .bf16 => 0x0C | .e4m3 => 0x0D | .e5m2 => 0x0E | .b8 => 0x0F | .b16 => 0x10 | .b32 => 0x11
  | .b64 => 0x12 | .b128 => 0x13 | .f16x2 => 0x14 | .bf16x2 => 0x15 | .n8x4 => 0x16
  | .s8x4 => 0x17 | .n4x8 => 0x18

/-- The type of a code of 02 R44; none for 0x19 to 0x1F. -/
def tyOf : Nat → Option Ty
  | 0x00 => some .s32 | 0x01 => some .n32 | 0x02 => some .s16 | 0x03 => some .n16
  | 0x04 => some .s8 | 0x05 => some .n8 | 0x06 => some .s4 | 0x07 => some .n4
  | 0x08 => some .s64 | 0x09 => some .n64 | 0x0A => some .f32 | 0x0B => some .f16
  | 0x0C => some .bf16 | 0x0D => some .e4m3 | 0x0E => some .e5m2 | 0x0F => some .b8
  | 0x10 => some .b16 | 0x11 => some .b32 | 0x12 => some .b64 | 0x13 => some .b128
  | 0x14 => some .f16x2 | 0x15 => some .bf16x2 | 0x16 => some .n8x4 | 0x17 => some .s8x4
  | 0x18 => some .n4x8 | _ => none

/-- The rounding code of 02 R45. -/
def rndCode : Rnd → Nat
  | .rne => 0 | .rtz => 1 | .rup => 2 | .rdn => 3 | .rna => 4 | .sr => 5

/-- The rounding mode of a code of 02 R45; none for 110 and 111. -/
def rndOf : Nat → Option Rnd
  | 0 => some .rne | 1 => some .rtz | 2 => some .rup | 3 => some .rdn | 4 => some .rna
  | 5 => some .sr | _ => none

/-- The scope code of 02 R48. -/
def scopeCode : Scope → Nat
  | .grp => 0 | .blk => 1 | .clu => 2 | .prt => 3 | .sys => 4

/-- The scope of a code of 02 R48; none for 101 to 111. -/
def scopeOf : Nat → Option Scope
  | 0 => some .grp | 1 => some .blk | 2 => some .clu | 3 => some .prt | 4 => some .sys
  | _ => none

/-- The size code of 02 R47. -/
def sizeCode : Size → Nat
  | .b8 => 0 | .b16 => 1 | .b32 => 2 | .b64 => 3 | .b128 => 4

/-- The access size of a code of 02 R47; none for 101 to 111. -/
def sizeOf' : Nat → Option Size
  | 0 => some .b8 | 1 => some .b16 | 2 => some .b32 | 3 => some .b64 | 4 => some .b128
  | _ => none

/-- The bytes of an access (02 R47). -/
def sizeBytes : Size → Nat
  | .b8 => 1 | .b16 => 2 | .b32 => 4 | .b64 => 8 | .b128 => 16

/-- The registers an access of a size takes (02 R40). -/
def sizeRegs : Size → Nat
  | .b8 => 1 | .b16 => 1 | .b32 => 1 | .b64 => 2 | .b128 => 4

/-- The modifier code of 02 R41. -/
def modCode : Modifier → Nat
  | .none => 0 | .lo => 1 | .hi => 2 | .swh => 3 | .rev => 4 | .swb => 5 | .swn => 6 | .rot => 7

/-- The modifier of a code of 02 R41. -/
def modOf : Nat → Modifier
  | 0 => .none | 1 => .lo | 2 => .hi | 3 => .swh | 4 => .rev | 5 => .swb | 6 => .swn | _ => .rot

/-- An operand field as its 11 bits (02 R39). -/
def opndCode : Opnd → Nat
  | .v i => i.toNat
  | .k i => 1024 + i.toNat

/-- The operand of 11 bits (02 R39). -/
def opndOf (x : Nat) : Opnd :=
  if x / 1024 % 2 = 0 then .v (BitVec.ofNat 10 x) else .k (BitVec.ofNat 10 x)

/-- The index an operand names. -/
def opndIdx : Opnd → Nat
  | .v i => i.toNat
  | .k i => i.toNat

/-- Whether an operand names the scalar file. -/
def opndScalar : Opnd → Bool
  | .v _ => false
  | .k _ => true

/-- The number of a fault code (17 R362). -/
def codeNum : Code → Nat
  | .illegalEncoding => 0x01 | .unimplemented => 0x02 | .privilege => 0x03
  | .branchNotHeader => 0x04 | .splitOverflow => 0x05 | .pageNotResident => 0x10
  | .accessProtection => 0x11 | .poison => 0x12 | .misaligned => 0x13 | .accessBounds => 0x14
  | .windowBounds => 0x15 | .atomicTypeAtTarget => 0x16 | .barrierOverrun => 0x20
  | .phaseAhead => 0x21 | .badHandle => 0x22 | .queueError => 0x23 | .gateDenied => 0x30
  | .viewChange => 0x40 | .collAbandoned => 0x41 | .checkUnresolved => 0x50
  | .escapedMismatch => 0x51 | .stall => 0x60 | .watchdog => 0x61 | .preemptTimeout => 0x62
  | .preempt => 0x70 | .debugStop => 0x71 | .softwareTrap => 0x7F

/-- The code of a number of 17 R362. -/
def codeOf (n : Nat) : Option Code :=
  [Code.illegalEncoding, .unimplemented, .privilege, .branchNotHeader, .splitOverflow, .pageNotResident,
    .accessProtection, .poison, .misaligned, .accessBounds, .windowBounds, .atomicTypeAtTarget,
    .barrierOverrun, .phaseAhead, .badHandle, .queueError, .gateDenied, .viewChange, .collAbandoned,
    .checkUnresolved, .escapedMismatch, .stall, .watchdog, .preemptTimeout, .preempt, .debugStop,
    .softwareTrap].find? fun c => codeNum c == n

/-- The registers a type takes in either file (05 R105, 02 R40). -/
def tyRegs : Ty → Nat
  | .s64 => 2 | .n64 => 2 | .b64 => 2 | .b128 => 4
  | .s32 | .n32 | .s16 | .n16 | .s8 | .n8 | .s4 | .n4 | .f32 | .f16 | .bf16 | .e4m3 | .e5m2
  | .b8 | .b16 | .b32 | .f16x2 | .bf16x2 | .n8x4 | .s8x4 | .n4x8 => 1

end Sys2Proof.Machine
end

