-- ==== Sys2Proof/Machine/Legal.lean ====
section
/-! DEFINITION. Which instruction words are legal: steps 5 to 7 of 02 R54, form by form. Each check answers false exactly where the word raises ILLEGAL_ENCODING. `seq` says that the word is decoded at the tile sequencer, `last` that it is the last word of its block. -/

namespace Sys2Proof.Machine
open Sys2Proof

/-! ### Fields -/

/-- Step 5 of 02 R54: m0 with negate, and any guard at the sequencer, are refused. -/
def guardOk (seq : Bool) (g : Guard) : Bool :=
  !(g.neg && g.mask == 0) && (!seq || (!g.neg && g.mask == 0))

/-- Both guard fields zero (08 R204, 10 R246, guard column "none"). -/
def noGuard (g : Guard) : Bool := !g.neg && g.mask == 0

/-- An unused operand field (02 R42). -/
def zeroOp (o : Opnd) : Bool := o == .v 0

/-- A register operand of n registers (02 R39, R40). -/
def regOk (seq : Bool) (n : Nat) : Opnd → Bool
  | .v i => !seq && decide (i.toNat < 256) && i.toNat % n == 0
  | .k i => i.toNat % n == 0

/-- A source: an instruction with a scalar destination takes scalar sources only (02 R39). -/
def srcOk (seq : Bool) (dst : Opnd) (n : Nat) (o : Opnd) : Bool :=
  regOk seq n o && (!opndScalar dst || opndScalar o)

/-- A scalar register operand of n registers. -/
def sclOk (n : Nat) (o : Opnd) : Bool := opndScalar o && opndIdx o % n == 0

/-- A vector register operand of n registers. -/
def vecOk (seq : Bool) (n : Nat) (o : Opnd) : Bool := !opndScalar o && regOk seq n o

/-- A mask register operand (02 R39). -/
def maskOk (o : Opnd) : Bool := !opndScalar o && decide (opndIdx o < 16)

/-- A mask register that may be written: m0 may not (05 R133). -/
def maskDst (o : Opnd) : Bool := maskOk o && opndIdx o != 0

/-- The even mask register of a pair, m2 to m14 (05 R115). -/
def maskPair (o : Opnd) : Bool := maskDst o && opndIdx o % 2 == 0

/-- An operand of more than one register takes no modifier: its type has 64 or 128 bits (02 R41). -/
def modOk (n : Nat) (m : Modifier) : Bool := n == 1 || m == .none

/-- A format G word whose operands are all unused. -/
def emptyG (f : FormG) : Bool := zeroOp f.x && zeroOp f.y && f.handle == 0 && f.func == 0

def fiveModes : List Rnd := [.rne, .rtz, .rup, .rdn, .rna]
def sixModes : List Rnd := [.rne, .rtz, .rup, .rdn, .rna, .sr]

/-! ### Shapes -/

/-- Format A with two register sources; nd, na and nb are the registers each operand takes. -/
def binA (seq : Bool) (f : FormA) (tys : List Ty) (rnds : List Rnd) (sat : Bool)
    (nd na nb : Nat) : Bool :=
  guardOk seq f.g && tys.contains f.ty && rnds.contains f.rnd && (sat || !f.sat)
    && regOk seq nd f.dst && srcOk seq f.dst na f.a && srcOk seq f.dst nb f.b
    && modOk na f.modA && modOk nb f.modB

/-- Format A with one register source: b and its modifier are zero (05 R109, R120). -/
def unA (seq : Bool) (f : FormA) (tys : List Ty) (rnds : List Rnd) (sat : Bool)
    (nd na : Nat) : Bool :=
  guardOk seq f.g && tys.contains f.ty && rnds.contains f.rnd && (sat || !f.sat)
    && regOk seq nd f.dst && srcOk seq f.dst na f.a && zeroOp f.b
    && modOk na f.modA && f.modB == .none

/-- Format A writing a pair of mask registers (05 R115, R124). -/
def cmpA (seq : Bool) (f : FormA) (tys : List Ty) : Bool :=
  guardOk seq f.g && tys.contains f.ty && f.rnd == .rne && !f.sat && maskPair f.dst
    && regOk seq (tyRegs f.ty) f.a && regOk seq (tyRegs f.ty) f.b
    && modOk (tyRegs f.ty) f.modA && modOk (tyRegs f.ty) f.modB

/-- Format A over mask registers (05 R139). -/
def maskA (seq : Bool) (f : FormA) (unary : Bool) : Bool :=
  guardOk seq f.g && f.ty == .b128 && f.rnd == .rne && !f.sat && maskDst f.dst && maskOk f.a
    && (if unary then zeroOp f.b else maskOk f.b) && f.modA == .none && f.modB == .none

/-- Format C with a register destination and a register source. -/
def binC (seq : Bool) (f : FormC) (funcs : List (BitVec 4)) : Bool :=
  guardOk seq f.g && funcs.contains f.func && regOk seq 1 f.dst && srcOk seq f.dst 1 f.a

/-- Format B with three register sources. -/
def triB (seq : Bool) (f : FormB) (funcs : List (BitVec 4)) (nd na nb nc : Nat) : Bool :=
  guardOk seq f.g && funcs.contains f.func && regOk seq nd f.dst && srcOk seq f.dst na f.a
    && srcOk seq f.dst nb f.b && srcOk seq f.dst nc f.c

def intTys : List Ty := [.s32, .n32, .s64, .n64]
def intTysPacked : List Ty := [.s32, .n32, .s64, .n64, .s8x4, .n8x4]
def bitTys : List Ty := [.b32, .b64]
def floatTys : List Ty := [.f32, .f16x2, .bf16x2]
def narrowTys : List Ty :=
  [.f16, .bf16, .e4m3, .e5m2, .s4, .n4, .s8, .n8, .s16, .n16]
def convTys : List Ty := narrowTys ++ [.s32, .n32, .s64, .n64]
def isFloatTy (t : Ty) : Bool := [Ty.f32, .f16, .bf16, .e4m3, .e5m2].contains t

/-- The special registers that 05 R117 and 07 R196 assign. -/
def specialOk (n : Nat) : Bool :=
  decide (n ≤ 0x00D) || decide (0x010 ≤ n ∧ n ≤ 0x012) || decide (0x020 ≤ n ∧ n ≤ 0x027)

/-- How many elements of a narrow type unpack's format C code names (05 R130). -/
def unpackCount (func : Nat) : Nat :=
  if func ≤ 1 then 2 else if func ≤ 3 then 4 else if func ≤ 5 then 2 else if func ≤ 7 then 4 else 8

/-- Shift counts by an immediate (05 R107). -/
def shiftC (seq : Bool) (f : FormC) : Bool :=
  binC seq f [0] && decide (f.imm.toNat < 32)

/-- An offset register of format E (02 R47, 10 R251). -/
def offOk (seq : Bool) (data off : Opnd) : Bool := srcOk seq data 1 off

/-- Loads and stores of format E (10 R251). -/
def memE (seq : Bool) (f : FormE) : Bool :=
  guardOk seq f.g && f.scope == .grp && regOk seq (sizeRegs f.size) f.data
    && offOk seq f.data f.off

/-- The atomic operation codes of 10 R261: op in bits 5:3, variant in bits 2:0. -/
def aopOk (cls : Nat) (aop : Nat) (size : Size) : Bool :=
  let op := aop / 8
  let lo := aop % 8
  match cls with
  | 0 => (lo == 0 || (lo == 4 && (op == 1 || op == 2))) && (size == .b32 || size == .b64)
  | 1 => aop == 0 && (size == .b32 || size == .b64)
  | 2 => op != 6 && (lo == 0 || (lo == 4 && (op == 1 || op == 2))) && (size == .b32 || size == .b64)
  | 3 => decide (op ≤ 2) && decide (lo ≤ 2) && size == .b32
  | _ => decide (op ≤ 1) && lo == 0 && size == .b128

/-- The registers an atomic's data operand takes (10 R261). -/
def aopRegs (cls : Nat) (aop : Nat) (size : Size) : Nat :=
  match cls with
  | 1 => 2 * sizeRegs size
  | 0 | 2 | 3 => sizeRegs size
  | _ => if aop / 8 == 1 then 8 else 4

/-- Atomics of format E (10 R261): imm12[11:6] holds the operation code. -/
def atomE (seq : Bool) (cls : Nat) (f : FormE) : Bool :=
  let aop := f.imm.toNat / 64
  guardOk seq f.g && aopOk cls aop f.size && regOk seq (aopRegs cls aop f.size) f.data
    && offOk seq f.data f.off

/-- Window accesses (10 R257): size in func[2:0], displacement in func[15:4]. -/
def winG (seq : Bool) (f : FormG) : Bool :=
  match sizeOf' (f.func.toNat % 8) with
  | none => false
  | some z =>
    guardOk seq f.g && decide (f.handle.toNat < 16) && !bitAt f.func.toNat 3
      && regOk seq (sizeRegs z) f.x && offOk seq f.x f.y

/-- ldf and ste (10 R259): func[2:0] zero, func[3] take for ldf. -/
def feG (seq : Bool) (f : FormG) (take : Bool) : Bool :=
  guardOk seq f.g && decide (f.handle.toNat < 16) && f.func.toNat % 8 == 0
    && (take || !bitAt f.func.toNat 3) && regOk seq 1 f.x && offOk seq f.x f.y

/-- Atomics of format G on a window (10 R261). -/
def atomG (seq : Bool) (cls : Nat) (f : FormG) : Bool :=
  let aop := bitsAt f.func.toNat 3 6
  match sizeOf' (f.func.toNat % 8) with
  | none => false
  | some z =>
    guardOk seq f.g && decide (f.handle.toNat < 16) && aopOk cls aop z
      && regOk seq (aopRegs cls aop z) f.x && offOk seq f.x f.y

/-- Format G with scalar operands of nx and ny registers (0: unused), a handle below the kind's bound and a func in the set. -/
def sclG (seq : Bool) (f : FormG) (nx ny handles funcs : Nat) : Bool :=
  guardOk seq f.g && (if nx = 0 then zeroOp f.x else sclOk nx f.x)
    && (if ny = 0 then zeroOp f.y else sclOk ny f.y)
    && decide (f.handle.toNat < max handles 1) && decide (f.func.toNat < funcs)

/-- The system registers of 17 R377. -/
def sysRegOk (n : Nat) : Bool :=
  decide (0x010 ≤ n ∧ n ≤ 0x022) || decide (0x030 ≤ n ∧ n ≤ 0x033) || decide (0x040 ≤ n ∧ n ≤ 0x042)

/-- The system registers that no instruction may write (17 R377). -/
def sysRegReadOnly (n : Nat) : Bool := n == 0x021 || n == 0x022

/-! ### The classes of 02 R52 and R53 -/

/-- The opcodes a tile sequencer executes (02 R53). -/
def seqPermits (op : Nat) : Bool :=
  decide (0x02 ≤ op ∧ op ≤ 0x29)
    || [0x80, 0x81, 0x82, 0x83, 0x86, 0x87, 0x89, 0x8D, 0x91, 0x92, 0x93].contains op
    || decide (0x70 ≤ op ∧ op ≤ 0x7B) || decide (0xB0 ≤ op ∧ op ≤ 0xB6)
    || decide (0xC0 ≤ op ∧ op ≤ 0xD7) || op == 0xD9 || decide (0xF0 ≤ op ∧ op ≤ 0xF7)

/-- The opcodes that 02 R51 assigns to instructions. -/
def opAssigned (op : Nat) : Bool :=
  decide (0x02 ≤ op ∧ op ≤ 0x2A) || decide (0x30 ≤ op ∧ op ≤ 0x4A) || decide (0x50 ≤ op ∧ op ≤ 0x57)
    || decide (0x60 ≤ op ∧ op ≤ 0x93) || decide (0xA0 ≤ op ∧ op ≤ 0xA5)
    || decide (0xB0 ≤ op ∧ op ≤ 0xB8) || decide (0xC0 ≤ op ∧ op ≤ 0xCB)
    || decide (0xD8 ≤ op ∧ op ≤ 0xD9) || decide (0xE0 ≤ op ∧ op ≤ 0xE4)
    || decide (0xE8 ≤ op ∧ op ≤ 0xEC) || decide (0xF0 ≤ op ∧ op ≤ 0xF7)

/-- The opcodes that end a block: br, bru, jmp, call, ret, brx, exit and tret (02 R29). -/
def endsBlock (op : Nat) : Bool := decide (0x70 ≤ op ∧ op ≤ 0x76) || op == 0x7B

/-- Fields 1 and 2 of step 2 of 02 R54: the opcode may be executed by this party. -/
def classOk (seq : Bool) (op : Nat) : Bool :=
  if seq then seqPermits op else !decide (0xC0 ≤ op ∧ op ≤ 0xD7)

/-- Step 6 of 02 R54 at an opcode. -/
def placeOk (last : Bool) (op : Nat) : Bool := last || !endsBlock op

/-- The fields of an instruction are legal: steps 5 and 7 of 02 R54, from each description. A step of the machine has no encoding and no field that could be illegal. min and max of format C have no saturating form: 05 R109, which gives them none, is followed over the row of R107 that lists a bit for it (DESIGN CHOICE, log 70). -/
def fieldsOk (seq : Bool) : Instr → Bool
  | .add f => binA seq f intTysPacked [.rne] true (tyRegs f.ty) (tyRegs f.ty) (tyRegs f.ty)
  | .addImm f => binC seq f [0, 1, 2, 3]
  | .sub f => binA seq f intTysPacked [.rne] true (tyRegs f.ty) (tyRegs f.ty) (tyRegs f.ty)
  | .subImm f => binC seq f [0, 1, 2, 3]
  | .addc f => binA seq f [.n32, .n64] [.rne] false (tyRegs f.ty) (tyRegs f.ty) (tyRegs f.ty)
  | .subb f => binA seq f [.n32, .n64] [.rne] false (tyRegs f.ty) (tyRegs f.ty) (tyRegs f.ty)
  | .mul f => binA seq f intTys [.rne] true (tyRegs f.ty) (tyRegs f.ty) (tyRegs f.ty)
  | .mulImm f => binC seq f [0, 1, 2, 3]
  | .mulh f => binA seq f [.s32, .n32] [.rne] false 1 1 1
  | .mulw f => binA seq f [.s32, .n32] [.rne] false 2 1 1
  | .mad f => triB seq f [0, 1, 2, 3] 1 1 1 1
  | .madw f => triB seq f [0, 1] 2 1 1 2
  | .div f => binA seq f intTys [.rne] true (tyRegs f.ty) (tyRegs f.ty) (tyRegs f.ty)
  | .divImm f => binC seq f [0, 1, 2, 3]
  | .rem f => binA seq f intTys [.rne] false (tyRegs f.ty) (tyRegs f.ty) (tyRegs f.ty)
  | .remImm f => binC seq f [0, 1]
  | .neg f => unA seq f [.s32, .s64, .s8x4] [.rne] true (tyRegs f.ty) (tyRegs f.ty)
  | .abs f => unA seq f [.s32, .s64, .s8x4] [.rne] true (tyRegs f.ty) (tyRegs f.ty)
  | .min f => binA seq f intTysPacked [.rne] false (tyRegs f.ty) (tyRegs f.ty) (tyRegs f.ty)
  | .minImm f => binC seq f [0, 1]
  | .max f => binA seq f intTysPacked [.rne] false (tyRegs f.ty) (tyRegs f.ty) (tyRegs f.ty)
  | .maxImm f => binC seq f [0, 1]
  | .and f => binA seq f bitTys [.rne] false (tyRegs f.ty) (tyRegs f.ty) (tyRegs f.ty)
  | .andImm f => binC seq f [0]
  | .or f => binA seq f bitTys [.rne] false (tyRegs f.ty) (tyRegs f.ty) (tyRegs f.ty)
  | .orImm f => binC seq f [0]
  | .xor f => binA seq f bitTys [.rne] false (tyRegs f.ty) (tyRegs f.ty) (tyRegs f.ty)
  | .xorImm f => binC seq f [0]
  | .not f => unA seq f bitTys [.rne] false (tyRegs f.ty) (tyRegs f.ty)
  | .andn f => binA seq f bitTys [.rne] false (tyRegs f.ty) (tyRegs f.ty) (tyRegs f.ty)
  | .shl f => binA seq f bitTys [.rne] false (tyRegs f.ty) (tyRegs f.ty) 1
  | .shlImm f => shiftC seq f
  | .shr f => binA seq f bitTys [.rne] false (tyRegs f.ty) (tyRegs f.ty) 1
  | .shrImm f => shiftC seq f
  | .sra f => binA seq f bitTys [.rne] false (tyRegs f.ty) (tyRegs f.ty) 1
  | .sraImm f => shiftC seq f
  | .rotl f => binA seq f bitTys [.rne] false (tyRegs f.ty) (tyRegs f.ty) 1
  | .rotlImm f => shiftC seq f
  | .rotr f => binA seq f bitTys [.rne] false (tyRegs f.ty) (tyRegs f.ty) 1
  | .rotrImm f => shiftC seq f
  | .clz f => unA seq f bitTys [.rne] false (tyRegs f.ty) (tyRegs f.ty)
  | .popc f => unA seq f bitTys [.rne] false (tyRegs f.ty) (tyRegs f.ty)
  | .brev f => unA seq f bitTys [.rne] false (tyRegs f.ty) (tyRegs f.ty)
  | .bfx f => triB seq f [0, 1] 1 1 1 1
  | .bfxImm f => binC seq f [0, 1] && decide (f.imm.toNat < 2 ^ 16)
  | .bfi f => triB seq f [0] 1 1 1 1
  | .bfiImm f => binC seq f [0] && decide (f.imm.toNat < 2 ^ 16)
  | .sel f => guardOk seq f.g && f.func == 0 && regOk seq 1 f.dst && srcOk seq f.dst 1 f.a && srcOk seq f.dst 1 f.b && maskOk f.c
  | .cmp f => cmpA seq f intTys
  | .cmpImm f => guardOk seq f.g && [0, 1].contains f.func && maskPair f.dst && regOk seq 1 f.a
  | .lea f => guardOk seq f.g && f.scope == .grp && sclOk 4 f.data && sclOk 1 f.off
  | .addw f => guardOk seq f.g && [.s32, .n32, .s64].contains f.ty && f.rnd == .rne && !f.sat && sclOk 4 f.dst && sclOk 4 f.a && sclOk (tyRegs f.ty) f.b && f.modA == .none && modOk (tyRegs f.ty) f.modB
  | .addwImm f => guardOk seq f.g && f.func == 0 && sclOk 4 f.dst && sclOk 4 f.a
  | .mov f => unA seq f [.b32, .b64, .b128] [.rne] false (tyRegs f.ty) (tyRegs f.ty)
  | .movImm f => guardOk seq f.g && decide (f.func.toNat ≤ 3) && zeroOp f.a && (f.func == 0 || specialOk f.imm.toNat) && regOk seq (if f.func.toNat ≤ 1 then 1 else if f.func.toNat = 2 then 2 else 4) f.dst
  | .movi f => guardOk seq f.g && f.func == 0 && regOk seq 1 f.dst
  | .movx f => guardOk seq f.g && [0, 1].contains f.func && regOk seq 1 f.dst && (opndScalar f.dst == (f.func == 1)) && sclOk 1 f.a
  | .movy f => guardOk seq f.g && [0, 1].contains f.func && regOk seq 1 f.dst && (opndScalar f.dst == (f.func == 1)) && sclOk 1 f.a
  | .dot4 f => triB seq f [0, 1, 2, 4, 5, 6] 1 1 1 1
  | .sad f => triB seq f [0, 1] 1 1 1 1
  | .iota f => guardOk seq f.g && f.func == 0 && vecOk seq 1 f.dst && sclOk 1 f.a
  | .fadd f => binA seq f floatTys fiveModes true 1 1 1
  | .fsub f => binA seq f floatTys fiveModes true 1 1 1
  | .fmul f => binA seq f floatTys fiveModes true 1 1 1
  | .fma f => triB seq f [0, 1, 2, 4, 5, 6, 8, 9, 10, 12, 13, 14] 1 1 1 1
  | .fnma f => triB seq f [0, 1, 2, 4, 5, 6, 8, 9, 10, 12, 13, 14] 1 1 1 1
  | .fmin f => binA seq f floatTys [.rne] false 1 1 1
  | .fmax f => binA seq f floatTys [.rne] false 1 1 1
  | .fminm f => binA seq f floatTys [.rne] false 1 1 1
  | .fmaxm f => binA seq f floatTys [.rne] false 1 1 1
  | .fabs f => unA seq f floatTys [.rne] false 1 1
  | .fneg f => unA seq f floatTys [.rne] false 1 1
  | .fcmp f => cmpA seq f [.f32, .f16, .bf16]
  | .frcp f => unA seq f [.f32] [.rne] false 1 1
  | .frsq f => unA seq f [.f32] [.rne] false 1 1
  | .fsqrt f => unA seq f [.f32] fiveModes false 1 1
  | .fexp2 f => unA seq f [.f32] [.rne] false 1 1
  | .flog2 f => unA seq f [.f32] [.rne] false 1 1
  | .fsinpi f => unA seq f [.f32] [.rne] false 1 1
  | .fcospi f => unA seq f [.f32] [.rne] false 1 1
  | .ftanh f => unA seq f [.f32] [.rne] false 1 1
  | .fsigm f => unA seq f [.f32] [.rne] false 1 1
  | .ffrac f => unA seq f [.f32] [.rne] false 1 1
  | .fround f => unA seq f floatTys fiveModes false 1 1
  | .fclass f => unA seq f floatTys [.rne] false 1 1
  | .fldexp f => binA seq f [.f32] fiveModes true 1 1 1
  | .fldexpImm f => binC seq f [0, 1, 2, 3, 4, 5, 6, 7, 8, 9]
  | .ffrexp f => unA seq f [.f32] [.rne] false 2 1
  | .fdot2 f => triB seq f [0, 1, 4, 5, 8, 9, 12, 13] 1 1 1 1
  | .cvt f => unA seq f convTys sixModes true (tyRegs f.ty) 1
  | .cvti f => unA seq f convTys sixModes true 1 (tyRegs f.ty)
  | .pack f => binA seq f narrowTys (if isFloatTy f.ty then sixModes else [.rne]) true 1 1 1
  | .unpack f => unA seq f narrowTys [.rne] false 2 1
  | .unpackElement f => binC seq f [0, 1, 2, 3, 4, 5, 6, 7, 8, 9] && decide (f.imm.toNat < unpackCount f.func.toNat)
  | .dq f => guardOk seq f.g && vecOk seq (if f.func.toNat / 4 = 3 then 4 else 2) f.dst && regOk seq 1 f.a && vecOk seq 1 f.b && vecOk seq 1 f.c
  | .qz f => guardOk seq f.g && vecOk seq 1 f.dst && regOk seq (if f.func.toNat / 4 = 3 then 4 else 2) f.a && vecOk seq 1 f.b && vecOk seq 1 f.c
  | .srseed f => guardOk seq f.g && f.ty == .b32 && f.rnd == .rne && !f.sat && zeroOp f.dst && sclOk 1 f.a && zeroOp f.b && f.modB == .none
  | .srseedImm f => guardOk seq f.g && f.func == 0 && zeroOp f.dst && zeroOp f.a
  | .srread f => guardOk seq f.g && f.ty == .b32 && f.rnd == .rne && !f.sat && sclOk 1 f.dst && zeroOp f.a && zeroOp f.b && f.modA == .none && f.modB == .none
  | .perm f => binA seq f [.b32] [.rne] false 1 1 1 && !opndScalar f.dst
  | .permBytes f => triB seq f [0] 1 1 1 1 && !opndScalar f.dst
  | .bcast f => guardOk seq f.g && f.ty == .b32 && f.rnd == .rne && !f.sat && regOk seq 1 f.dst && regOk seq 1 f.a && sclOk 1 f.b
  | .bcastImm f => guardOk seq f.g && f.func == 0 && regOk seq 1 f.dst && regOk seq 1 f.a && decide (f.imm.toNat < 128)
  | .lshift f => binA seq f [.b32] [.rne] false 1 1 1 && !opndScalar f.dst && opndScalar f.b
  | .lshiftImm f => binC seq f [0] && !opndScalar f.dst
  | .bshift f => binA seq f [.b32] [.rne] false 1 1 1 && !opndScalar f.dst && opndScalar f.b
  | .bshiftImm f => binC seq f [0] && !opndScalar f.dst
  | .tlk f => binA seq f [.b8] [.rne] false 1 1 4 && !opndScalar f.dst && f.modB == .none
  | .bsel f => triB seq f [0] 1 1 1 1
  | .vote f => guardOk seq f.g && [.b32, .b128].contains f.ty && f.rnd == .rne && !f.sat && (if f.ty == .b32 then maskDst f.dst else sclOk 4 f.dst) && regOk seq 1 f.a && zeroOp f.b && f.modB == .none
  | .mpop f => guardOk seq f.g && f.ty == .n32 && f.rnd == .rne && !f.sat && regOk seq 1 f.dst && regOk seq 1 f.a && zeroOp f.b && f.modB == .none
  | .mfirst f => guardOk seq f.g && f.ty == .n32 && f.rnd == .rne && !f.sat && regOk seq 1 f.dst && regOk seq 1 f.a && zeroOp f.b && f.modB == .none
  | .mand f => maskA seq f false
  | .mor f => maskA seq f false
  | .mxor f => maskA seq f false
  | .mnot f => maskA seq f true
  | .scan f => guardOk seq f.g && [.s32, .n32].contains f.ty && f.rnd == .rne && !f.sat && vecOk seq 1 f.dst && regOk seq 1 f.a && sclOk 1 f.b
  | .reduce f => guardOk seq f.g && [.s32, .n32, .f32].contains f.ty && (if f.ty == .f32 then fiveModes.contains f.rnd else f.rnd == .rne) && !f.sat && regOk seq 1 f.dst && regOk seq 1 f.a && sclOk 1 f.b
  | .rank f => unA seq f [.b32] [.rne] false 1 1 && !opndScalar f.dst
  | .br f => guardOk seq f.g && decide (f.cond.toNat < 3)
  | .bru f => guardOk seq f.g && noGuard f.g && decide (f.cond.toNat < 256) && f.cond.toNat % 4 != 3 && !(f.cond.toNat / 16 == 0 && bitAt f.cond.toNat 3)
  | .jmp f => guardOk seq f.g && noGuard f.g && f.cond == 0
  | .call f => guardOk seq f.g && noGuard f.g && f.cond.toNat % 256 == 0
  | .ret f => noGuard f.g && sclG seq f 4 0 0 1
  | .brx f => guardOk seq f.g && f.ty == .s32 && f.rnd == .rne && !f.sat && zeroOp f.dst && sclOk 4 f.a && opndScalar f.b && f.modA == .none && f.modB == .none
  | .exit f => guardOk seq f.g && emptyG f
  | .yield f => guardOk seq f.g && emptyG f
  | .sleep f => guardOk seq f.g && zeroOp f.dst && decide (f.func.toNat < 2) && (if f.func == 1 then sclOk 1 f.a else zeroOp f.a)
  | .nop f => guardOk seq f.g && emptyG f
  | .trap f => guardOk seq f.g && zeroOp f.dst && decide (f.func.toNat < 2) && (if f.func == 1 then sclOk 1 f.a else zeroOp f.a)
  | .tret f => noGuard f.g && sclG seq f 0 0 0 2
  | .pdone f => guardOk seq f.g && noGuard f.g && emptyG f
  | .rmark f => guardOk seq f.g && noGuard f.g && emptyG f
  | .deq f => sclG seq f 2 (if f.func == 1 then 1 else 0) 32 2
  | .enq f => sclG seq f (if f.func == 1 then 1 else 0) 2 32 2
  | .ld f => memE seq f
  | .st f => memE seq f
  | .ldu f => memE seq f
  | .stu f => memE seq f
  | .ldw f => winG seq f
  | .stw f => winG seq f
  | .ldf f => feG seq f true && decide (f.func.toNat / 16 < 4096)
  | .ste f => feG seq f false
  | .fefill f => sclG seq f 1 1 16 2
  | .feget f => sclG seq f 1 1 16 1
  | .setw f => sclG seq f 4 0 16 1
  | .fillw f => sclG seq f 1 1 16 1
  | .flushw f => sclG seq f 1 1 16 1
  | .prefetch f => guardOk seq f.g && zeroOp f.data && f.scope == .grp && regOk seq 1 f.off
  | .pub f => guardOk seq f.g && emptyG f
  | .snap f => guardOk seq f.g && emptyG f
  | .phase f => guardOk seq f.g && emptyG f
  | .fence f => sclG seq f 0 0 0 5
  | .waitc f => guardOk seq f.g && noGuard f.g && zeroOp f.dst && f.func == 0 && decide (f.imm.toNat < 2 ^ 30)
  | .waitr f => noGuard f.g && sclG seq f 1 0 0 5
  | .atom f => atomE seq 0 f
  | .atomWindow f => atomG seq 0 f
  | .cas f => atomE seq 1 f
  | .casWindow f => atomG seq 1 f
  | .red f => atomE seq 2 f
  | .redWindow f => atomG seq 2 f
  | .atomf f => atomE seq 3 f
  | .atomfWindow f => atomG seq 3 f
  | .redf f => atomE seq 3 f
  | .redfWindow f => atomG seq 3 f
  | .atomw f => atomE seq 4 f
  | .barinit f => sclG seq f 1 1 64 1
  | .bararr f => sclG seq f (if f.func == 1 then 1 else 0) 0 64 2
  | .barwait f => sclG seq f 1 1 64 1
  | .bartok f => sclG seq f 1 0 64 1
  | .qpush f => sclG seq f 0 1 32 1
  | .qpop f => guardOk seq f.g && regOk seq 1 f.x && zeroOp f.y && decide (f.handle.toNat < 32) && f.func == 0
  | .qstat f => sclG seq f 1 0 32 1
  | .copy f => sclG seq f 4 0 32 1
  | .gcopy f => sclG seq f 4 0 32 1
  | .tcfg f => sclG seq f 0 0 0 1024 && decide (f.func.toNat % 16 ≤ 8) && decide (f.func.toNat / 16 % 16 ≤ 8)
  | .unf f => sclG seq f 1 0 16 1
  | .bload f => sclG seq f 4 1 0 1024
  | .xfetch f => sclG seq f 2 2 0 1024
  | .mma f => sclG seq f 2 1 0 4
  | .accz f => sclG seq f 0 0 0 16
  | .accld f => sclG seq f 1 0 16 8
  | .accst f => sclG seq f 1 0 16 4
  | .drain f => sclG seq f (if bitAt f.func.toNat 2 then 1 else 0) (if bitsAt f.func.toNat 4 2 = 1 ∨ bitsAt f.func.toNat 4 2 = 2 then 2 else 0) 0 512
  | .chain f => sclG seq f 1 0 0 1
  | .tsync f => guardOk seq f.g && noGuard f.g && emptyG f
  | .tsig f => sclG seq f 0 0 64 1
  | .ecnt f => guardOk seq f.g && vecOk seq 1 f.x && zeroOp f.y && f.handle == 0 && f.func == 0
  | .xstat f => sclG seq f 2 1 0 8
  | .coll f => sclG seq f 4 0 32 1
  | .cview f => sclG seq f 4 1 0 1
  | .cpolicy f => sclG seq f 0 0 0 8 && f.func.toNat % 4 != 0
  | .cack f => sclG seq f 0 1 0 4
  | .cjoin f => sclG seq f (if f.func == 1 then 0 else 1) 4 0 2
  | .gsig f => sclG seq f 4 4 0 1
  | .gwait f => sclG seq f 4 4 0 1
  | .gtry f => sclG seq f 4 4 0 1
  | .gxch f => sclG seq f 4 4 0 4 && f.func != 0
  | .gstat f => sclG seq f 4 4 0 1
  | .sysrd f => sclG seq f 2 0 0 4096 && sysRegOk f.func.toNat
  | .syswr f => sclG seq f 0 2 0 4096 && sysRegOk f.func.toNat && !sysRegReadOnly f.func.toNat
  | .clk f => sclG seq f 2 0 0 1
  | .runk f => sclG seq f 0 0 0 4 && f.func != 0
  | .brk f => sclG seq f 0 0 0 65536
  | .mark f => guardOk seq f.g && (if bitAt f.func.toNat 4 then sclOk 1 f.dst else zeroOp f.dst)
  | .sampctl f => sclG seq f 0 (if f.func == 1 then 1 else 0) 0 2
  | .svc f => guardOk seq f.g && decide (f.func.toNat < 2) && sclOk 1 f.dst && (if f.func == 1 then sclOk 1 f.a else zeroOp f.a)
  | .splitEntryReturn _ _ => true
  | .mergePatienceExpiry _ _ => true
  | .loadComplete _ _ => true
  | .roundClose _ => true
  | .versionRetire _ _ _ => true
  | .windowWriteback _ _ _ => true
  | .jobPerform _ => true
  | .jobComplete _ => true
  | .tileInstructionComplete _ => true
  | .xfetchDeadline _ => true
  | .xfetchPrimaryLanded _ => true
  | .launchPacket _ _ _ => true
  | .copyPacket _ _ => true
  | .workItemPacket _ _ => true
  | .launchComplete _ => true
  | .blockAdmission _ => true
  | .blockRestart _ => true
  | .preemption _ _ => true
  | .preemptTimeout _ => true
  | .resume _ => true
  | .resident _ _ => true
  | .declined _ _ => true
  | .groupWatchdogFiring _ => true
  | .stall _ => true
  | .partitionResume _ => true
  | .hostPreempt _ => true
  | .allowancePeriod _ => true
  | .allowanceExhausted _ _ => true
  | .lend _ _ => true
  | .reclaim _ _ => true
  | .autoReclaim _ => true
  | .partitionConfigWrite _ _ => true
  | .rangeTableWrite _ _ _ => true
  | .regionAttributeWrite _ _ _ _ => true
  | .tlbInvalidation _ _ _ => true
  | .pageRequestRingRegister _ _ _ => true
  | .packetQueueRegister _ _ _ => true
  | .workQueueCapacity _ _ _ => true
  | .expertTableWrite _ _ _ => true
  | .checkAreaRegister _ _ _ => true
  | .serviceRingRegister _ _ => true
  | .adminQueueRegister _ => true
  | .reply _ _ _ => true
  | .counterWrite _ _ _ _ => true
  | .hostMemWrite _ _ => true
  | .hostMemRead _ _ => true
  | .hostLineSnoop _ _ => true
  | .peerWrite _ _ => true
  | .gateCreate _ _ => true
  | .gateSetAcl _ _ => true
  | .gateSetRate _ _ _ => true
  | .gateDestroy _ => true
  | .gateFreeze _ => true
  | .gateExport _ => true
  | .gateImport _ _ _ => true
  | .gateThaw _ => true
  | .deferredCountClear _ => true
  | .gateServerPerform _ => true
  | .bucketTick => true
  | .shadowRunStart _ => true
  | .keepingRunStart _ => true
  | .kilnDecision _ => true
  | .coneTest _ => true
  | .coneTestComplete _ _ => true
  | .coneTestAbort _ => true
  | .correctedError _ _ _ _ => true
  | .bankSelfTest _ _ _ => true
  | .uncorrectableError _ => true
  | .patrolScrub _ _ => true
  | .linkRetrain _ _ => true
  | .peerRouteTimeout _ _ => true
  | .thermalThrottle => true
  | .thermalShutdown => true
  | .readKilsy _ => true
  | .readErrors _ => true
  | .startCold _ _ => true
  | .startWarm _ => true
  | .setTolerance _ _ => true
  | .deviceState => true
  | .wake => true
  | .updateConfig _ => true
  | .idlePowerEntry => true
  | .wakeEvent _ => true
  | .tenantKeyLoad _ _ _ => true
  | .tenantKeyClear _ _ => true
  | .collGroupCreate _ _ _ _ _ _ => true
  | .heartbeat _ => true
  | .heartbeatTimeout _ _ => true
  | .memberRemove _ _ => true
  | .propose _ _ _ _ => true
  | .acknowledge _ _ _ => true
  | .commit _ _ _ _ => true
  | .ackLapse _ => true
  | .collPacket _ _ _ _ _ _ => true
  | .policyChoice _ _ _ _ => true
  | .choiceTimeout _ _ => true
  | .joinRequest _ _ _ => true
  | .joinTimeout _ _ => true
  | .collComplete _ => true
  | .debugAttach _ _ => true
  | .debugDetach _ => true
  | .debugHold _ _ _ => true
  | .debugRelease _ _ _ => true
  | .debugOne _ _ _ _ => true
  | .debugSetBp _ _ _ _ => true
  | .debugClrBp _ _ => true
  | .debugRead _ _ _ _ => true
  | .debugWrite _ _ _ _ _ => true
  | .sampleTag _ _ _ _ => true
  | .traceEnable _ _ _ _ _ => true
  | .ringRegister _ _ _ _ => true
  | .dump _ _ _ => true
  | .wordNotAnInstruction _ => true
  | .sleepCountRunsOut _ _ => true
  | .inboundPeerAtomic _ _ _ _ => true
  | .inboundPeerRead _ _ => true
  | .suspectReport _ _ => true
  | .heartbeatReceived _ _ => true
  | .expectedDigestSet _ _ => true
  | .dumpComplete _ _ => true

/-- The opcode and the format of an instruction (02 R43, R51); none for a step that has no encoding. -/
def opFormat : Instr → Option (Nat × Nat)
  | .add _ => some (0x02, 0)
  | .addImm _ => some (0x02, 2)
  | .sub _ => some (0x03, 0)
  | .subImm _ => some (0x03, 2)
  | .addc _ => some (0x04, 0)
  | .subb _ => some (0x05, 0)
  | .mul _ => some (0x06, 0)
  | .mulImm _ => some (0x06, 2)
  | .mulh _ => some (0x07, 0)
  | .mulw _ => some (0x08, 0)
  | .mad _ => some (0x09, 1)
  | .madw _ => some (0x0A, 1)
  | .div _ => some (0x0B, 0)
  | .divImm _ => some (0x0B, 2)
  | .rem _ => some (0x0C, 0)
  | .remImm _ => some (0x0C, 2)
  | .neg _ => some (0x0D, 0)
  | .abs _ => some (0x0E, 0)
  | .min _ => some (0x0F, 0)
  | .minImm _ => some (0x0F, 2)
  | .max _ => some (0x10, 0)
  | .maxImm _ => some (0x10, 2)
  | .and _ => some (0x11, 0)
  | .andImm _ => some (0x11, 2)
  | .or _ => some (0x12, 0)
  | .orImm _ => some (0x12, 2)
  | .xor _ => some (0x13, 0)
  | .xorImm _ => some (0x13, 2)
  | .not _ => some (0x14, 0)
  | .andn _ => some (0x15, 0)
  | .shl _ => some (0x16, 0)
  | .shlImm _ => some (0x16, 2)
  | .shr _ => some (0x17, 0)
  | .shrImm _ => some (0x17, 2)
  | .sra _ => some (0x18, 0)
  | .sraImm _ => some (0x18, 2)
  | .rotl _ => some (0x19, 0)
  | .rotlImm _ => some (0x19, 2)
  | .rotr _ => some (0x1A, 0)
  | .rotrImm _ => some (0x1A, 2)
  | .clz _ => some (0x1B, 0)
  | .popc _ => some (0x1C, 0)
  | .brev _ => some (0x1D, 0)
  | .bfx _ => some (0x1E, 1)
  | .bfxImm _ => some (0x1E, 2)
  | .bfi _ => some (0x1F, 1)
  | .bfiImm _ => some (0x1F, 2)
  | .sel _ => some (0x20, 1)
  | .cmp _ => some (0x21, 0)
  | .cmpImm _ => some (0x21, 2)
  | .lea _ => some (0x22, 4)
  | .addw _ => some (0x23, 0)
  | .addwImm _ => some (0x23, 2)
  | .mov _ => some (0x24, 0)
  | .movImm _ => some (0x24, 2)
  | .movi _ => some (0x25, 3)
  | .movx _ => some (0x26, 2)
  | .movy _ => some (0x27, 2)
  | .dot4 _ => some (0x28, 1)
  | .sad _ => some (0x29, 1)
  | .iota _ => some (0x2A, 2)
  | .fadd _ => some (0x30, 0)
  | .fsub _ => some (0x31, 0)
  | .fmul _ => some (0x32, 0)
  | .fma _ => some (0x33, 1)
  | .fnma _ => some (0x34, 1)
  | .fmin _ => some (0x35, 0)
  | .fmax _ => some (0x36, 0)
  | .fminm _ => some (0x37, 0)
  | .fmaxm _ => some (0x38, 0)
  | .fabs _ => some (0x39, 0)
  | .fneg _ => some (0x3A, 0)
  | .fcmp _ => some (0x3B, 0)
  | .frcp _ => some (0x3C, 0)
  | .frsq _ => some (0x3D, 0)
  | .fsqrt _ => some (0x3E, 0)
  | .fexp2 _ => some (0x3F, 0)
  | .flog2 _ => some (0x40, 0)
  | .fsinpi _ => some (0x41, 0)
  | .fcospi _ => some (0x42, 0)
  | .ftanh _ => some (0x43, 0)
  | .fsigm _ => some (0x44, 0)
  | .ffrac _ => some (0x45, 0)
  | .fround _ => some (0x46, 0)
  | .fclass _ => some (0x47, 0)
  | .fldexp _ => some (0x48, 0)
  | .fldexpImm _ => some (0x48, 2)
  | .ffrexp _ => some (0x49, 0)
  | .fdot2 _ => some (0x4A, 1)
  | .cvt _ => some (0x50, 0)
  | .cvti _ => some (0x51, 0)
  | .pack _ => some (0x52, 0)
  | .unpack _ => some (0x53, 0)
  | .unpackElement _ => some (0x53, 2)
  | .dq _ => some (0x54, 1)
  | .qz _ => some (0x55, 1)
  | .srseed _ => some (0x56, 0)
  | .srseedImm _ => some (0x56, 2)
  | .srread _ => some (0x57, 0)
  | .perm _ => some (0x60, 0)
  | .permBytes _ => some (0x60, 1)
  | .bcast _ => some (0x61, 0)
  | .bcastImm _ => some (0x61, 2)
  | .lshift _ => some (0x62, 0)
  | .lshiftImm _ => some (0x62, 2)
  | .bshift _ => some (0x63, 0)
  | .bshiftImm _ => some (0x63, 2)
  | .tlk _ => some (0x64, 0)
  | .bsel _ => some (0x65, 1)
  | .vote _ => some (0x66, 0)
  | .mpop _ => some (0x67, 0)
  | .mfirst _ => some (0x68, 0)
  | .mand _ => some (0x69, 0)
  | .mor _ => some (0x6A, 0)
  | .mxor _ => some (0x6B, 0)
  | .mnot _ => some (0x6C, 0)
  | .scan _ => some (0x6D, 0)
  | .reduce _ => some (0x6E, 0)
  | .rank _ => some (0x6F, 0)
  | .br _ => some (0x70, 5)
  | .bru _ => some (0x71, 5)
  | .jmp _ => some (0x72, 5)
  | .call _ => some (0x73, 5)
  | .ret _ => some (0x74, 6)
  | .brx _ => some (0x75, 0)
  | .exit _ => some (0x76, 6)
  | .yield _ => some (0x77, 6)
  | .sleep _ => some (0x78, 2)
  | .nop _ => some (0x79, 6)
  | .trap _ => some (0x7A, 2)
  | .tret _ => some (0x7B, 6)
  | .pdone _ => some (0x7C, 6)
  | .rmark _ => some (0x7D, 6)
  | .deq _ => some (0x7E, 6)
  | .enq _ => some (0x7F, 6)
  | .ld _ => some (0x80, 4)
  | .st _ => some (0x81, 4)
  | .ldu _ => some (0x82, 4)
  | .stu _ => some (0x83, 4)
  | .ldw _ => some (0x84, 6)
  | .stw _ => some (0x85, 6)
  | .ldf _ => some (0x86, 6)
  | .ste _ => some (0x87, 6)
  | .fefill _ => some (0x88, 6)
  | .feget _ => some (0x89, 6)
  | .setw _ => some (0x8A, 6)
  | .fillw _ => some (0x8B, 6)
  | .flushw _ => some (0x8C, 6)
  | .prefetch _ => some (0x8D, 4)
  | .pub _ => some (0x8E, 6)
  | .snap _ => some (0x8F, 6)
  | .phase _ => some (0x90, 6)
  | .fence _ => some (0x91, 6)
  | .waitc _ => some (0x92, 3)
  | .waitr _ => some (0x93, 6)
  | .atom _ => some (0xA0, 4)
  | .atomWindow _ => some (0xA0, 6)
  | .cas _ => some (0xA1, 4)
  | .casWindow _ => some (0xA1, 6)
  | .red _ => some (0xA2, 4)
  | .redWindow _ => some (0xA2, 6)
  | .atomf _ => some (0xA3, 4)
  | .atomfWindow _ => some (0xA3, 6)
  | .redf _ => some (0xA4, 4)
  | .redfWindow _ => some (0xA4, 6)
  | .atomw _ => some (0xA5, 4)
  | .barinit _ => some (0xB0, 6)
  | .bararr _ => some (0xB1, 6)
  | .barwait _ => some (0xB2, 6)
  | .bartok _ => some (0xB3, 6)
  | .qpush _ => some (0xB4, 6)
  | .qpop _ => some (0xB5, 6)
  | .qstat _ => some (0xB6, 6)
  | .copy _ => some (0xB7, 6)
  | .gcopy _ => some (0xB8, 6)
  | .tcfg _ => some (0xC0, 6)
  | .unf _ => some (0xC1, 6)
  | .bload _ => some (0xC2, 6)
  | .xfetch _ => some (0xC3, 6)
  | .mma _ => some (0xC4, 6)
  | .accz _ => some (0xC5, 6)
  | .accld _ => some (0xC6, 6)
  | .accst _ => some (0xC7, 6)
  | .drain _ => some (0xC8, 6)
  | .chain _ => some (0xC9, 6)
  | .tsync _ => some (0xCA, 6)
  | .tsig _ => some (0xCB, 6)
  | .ecnt _ => some (0xD8, 6)
  | .xstat _ => some (0xD9, 6)
  | .coll _ => some (0xE0, 6)
  | .cview _ => some (0xE1, 6)
  | .cpolicy _ => some (0xE2, 6)
  | .cack _ => some (0xE3, 6)
  | .cjoin _ => some (0xE4, 6)
  | .gsig _ => some (0xE8, 6)
  | .gwait _ => some (0xE9, 6)
  | .gtry _ => some (0xEA, 6)
  | .gxch _ => some (0xEB, 6)
  | .gstat _ => some (0xEC, 6)
  | .sysrd _ => some (0xF0, 6)
  | .syswr _ => some (0xF1, 6)
  | .clk _ => some (0xF2, 6)
  | .runk _ => some (0xF3, 6)
  | .brk _ => some (0xF4, 6)
  | .mark _ => some (0xF5, 3)
  | .sampctl _ => some (0xF6, 6)
  | .svc _ => some (0xF7, 2)
  | .splitEntryReturn _ _ => none
  | .mergePatienceExpiry _ _ => none
  | .loadComplete _ _ => none
  | .roundClose _ => none
  | .versionRetire _ _ _ => none
  | .windowWriteback _ _ _ => none
  | .jobPerform _ => none
  | .jobComplete _ => none
  | .tileInstructionComplete _ => none
  | .xfetchDeadline _ => none
  | .xfetchPrimaryLanded _ => none
  | .launchPacket _ _ _ => none
  | .copyPacket _ _ => none
  | .workItemPacket _ _ => none
  | .launchComplete _ => none
  | .blockAdmission _ => none
  | .blockRestart _ => none
  | .preemption _ _ => none
  | .preemptTimeout _ => none
  | .resume _ => none
  | .resident _ _ => none
  | .declined _ _ => none
  | .groupWatchdogFiring _ => none
  | .stall _ => none
  | .partitionResume _ => none
  | .hostPreempt _ => none
  | .allowancePeriod _ => none
  | .allowanceExhausted _ _ => none
  | .lend _ _ => none
  | .reclaim _ _ => none
  | .autoReclaim _ => none
  | .partitionConfigWrite _ _ => none
  | .rangeTableWrite _ _ _ => none
  | .regionAttributeWrite _ _ _ _ => none
  | .tlbInvalidation _ _ _ => none
  | .pageRequestRingRegister _ _ _ => none
  | .packetQueueRegister _ _ _ => none
  | .workQueueCapacity _ _ _ => none
  | .expertTableWrite _ _ _ => none
  | .checkAreaRegister _ _ _ => none
  | .serviceRingRegister _ _ => none
  | .adminQueueRegister _ => none
  | .reply _ _ _ => none
  | .counterWrite _ _ _ _ => none
  | .hostMemWrite _ _ => none
  | .hostMemRead _ _ => none
  | .hostLineSnoop _ _ => none
  | .peerWrite _ _ => none
  | .gateCreate _ _ => none
  | .gateSetAcl _ _ => none
  | .gateSetRate _ _ _ => none
  | .gateDestroy _ => none
  | .gateFreeze _ => none
  | .gateExport _ => none
  | .gateImport _ _ _ => none
  | .gateThaw _ => none
  | .deferredCountClear _ => none
  | .gateServerPerform _ => none
  | .bucketTick => none
  | .shadowRunStart _ => none
  | .keepingRunStart _ => none
  | .kilnDecision _ => none
  | .coneTest _ => none
  | .coneTestComplete _ _ => none
  | .coneTestAbort _ => none
  | .correctedError _ _ _ _ => none
  | .bankSelfTest _ _ _ => none
  | .uncorrectableError _ => none
  | .patrolScrub _ _ => none
  | .linkRetrain _ _ => none
  | .peerRouteTimeout _ _ => none
  | .thermalThrottle => none
  | .thermalShutdown => none
  | .readKilsy _ => none
  | .readErrors _ => none
  | .startCold _ _ => none
  | .startWarm _ => none
  | .setTolerance _ _ => none
  | .deviceState => none
  | .wake => none
  | .updateConfig _ => none
  | .idlePowerEntry => none
  | .wakeEvent _ => none
  | .tenantKeyLoad _ _ _ => none
  | .tenantKeyClear _ _ => none
  | .collGroupCreate _ _ _ _ _ _ => none
  | .heartbeat _ => none
  | .heartbeatTimeout _ _ => none
  | .memberRemove _ _ => none
  | .propose _ _ _ _ => none
  | .acknowledge _ _ _ => none
  | .commit _ _ _ _ => none
  | .ackLapse _ => none
  | .collPacket _ _ _ _ _ _ => none
  | .policyChoice _ _ _ _ => none
  | .choiceTimeout _ _ => none
  | .joinRequest _ _ _ => none
  | .joinTimeout _ _ => none
  | .collComplete _ => none
  | .debugAttach _ _ => none
  | .debugDetach _ => none
  | .debugHold _ _ _ => none
  | .debugRelease _ _ _ => none
  | .debugOne _ _ _ _ => none
  | .debugSetBp _ _ _ _ => none
  | .debugClrBp _ _ => none
  | .debugRead _ _ _ _ => none
  | .debugWrite _ _ _ _ _ => none
  | .sampleTag _ _ _ _ => none
  | .traceEnable _ _ _ _ _ => none
  | .ringRegister _ _ _ _ => none
  | .dump _ _ _ => none
  | .wordNotAnInstruction _ => none
  | .sleepCountRunsOut _ _ => none
  | .inboundPeerAtomic _ _ _ _ => none
  | .inboundPeerRead _ _ => none
  | .suspectReport _ _ => none
  | .heartbeatReceived _ _ => none
  | .expectedDigestSet _ _ => none
  | .dumpComplete _ _ => none

/-- A legal instruction for this party at this place: steps 2 and 5 to 7 of 02 R54. -/
def legal (seq last : Bool) (i : Instr) : Bool :=
  match opFormat i with
  | none => true
  | some (op, _) => classOk seq op && placeOk last op && fieldsOk seq i

end Sys2Proof.Machine
end

