-- ==== Sys2Proof/WellFormed.lean ====
section
/-! DEFINITION. Well-formed instructions: the terms of the syntax that some word of the machine encodes. -/

namespace Sys2Proof
open Sys2Proof.Machine

/-- An instruction that has an encoding and whose fields are legal for a group (`seq` false) or a tile sequencer (`seq` true), at the last word of its block or before it (02 R54). -/
abbrev Instr.WellFormed (seq last : Bool) (i : Instr) : Prop :=
  (opFormat i).isSome = true ∧ legal seq last i = true

end Sys2Proof
end

