-- ==== Sys2Proof/Decode.lean ====
section
/-! DEFINITION. Decoding a 64-bit word (02 R54), total on every word and rejecting by fault code, and the encoder of 02 R37 and R43. -/

namespace Sys2Proof
open Sys2Proof.Machine

/-! ### Decoding -/

/-- The guard of 02 R37. -/
def decGuard (w : Nat) : Guard := { neg := bitAt w 55, mask := BitVec.ofNat 4 (bitsAt w 51 4) }

/-- Format A of 02 R43; none where a type or rounding code is unassigned. -/
def decA (w : Nat) : Option FormA :=
  match tyOf (bitsAt w 4 5), rndOf (bitsAt w 1 3) with
  | some t, some r =>
    some { g := decGuard w, dst := opndOf (bitsAt w 37 11), a := opndOf (bitsAt w 26 11),
           b := opndOf (bitsAt w 15 11), modA := modOf (bitsAt w 12 3), modB := modOf (bitsAt w 9 3),
           ty := t, rnd := r, sat := bitAt w 0 }
  | _, _ => none

/-- Format B of 02 R43. -/
def decB (w : Nat) : FormB :=
  { g := decGuard w, dst := opndOf (bitsAt w 37 11), a := opndOf (bitsAt w 26 11),
    b := opndOf (bitsAt w 15 11), c := opndOf (bitsAt w 4 11), func := BitVec.ofNat 4 (bitsAt w 0 4) }

/-- Format C of 02 R43. -/
def decC (w : Nat) : FormC :=
  { g := decGuard w, dst := opndOf (bitsAt w 37 11), a := opndOf (bitsAt w 26 11),
    func := BitVec.ofNat 4 (bitsAt w 22 4), imm := BitVec.ofNat 22 (bitsAt w 0 22) }

/-- Format D of 02 R43. -/
def decD (w : Nat) : FormD :=
  { g := decGuard w, dst := opndOf (bitsAt w 37 11), func := BitVec.ofNat 5 (bitsAt w 32 5),
    imm := BitVec.ofNat 32 (bitsAt w 0 32) }

/-- Format E of 02 R43 and R47; none where a scope or size code is unassigned. -/
def decE (w : Nat) : Option FormE :=
  match scopeOf (bitsAt w 3 3), sizeOf' (bitsAt w 0 3) with
  | some c, some z =>
    some { g := decGuard w, data := opndOf (bitsAt w 37 11), base := BitVec.ofNat 8 (bitsAt w 29 8),
           off := opndOf (bitsAt w 18 11), imm := BitVec.ofNat 12 (bitsAt w 6 12), scope := c, size := z }
  | _, _ => none

/-- Format F of 02 R43. -/
def decF (w : Nat) : FormF :=
  { g := decGuard w, off := BitVec.ofNat 32 (bitsAt w 16 32), cond := BitVec.ofNat 16 (bitsAt w 0 16) }

/-- Format G of 02 R43. -/
def decG (w : Nat) : FormG :=
  { g := decGuard w, x := opndOf (bitsAt w 37 11), y := opndOf (bitsAt w 26 11),
    handle := BitVec.ofNat 10 (bitsAt w 16 10), func := BitVec.ofNat 16 (bitsAt w 0 16) }

/-- The instruction of a format A opcode (02 R51). -/
def instrA (op : Nat) (f : FormA) : Option Instr :=
  match op with
  | 0x02 => some (.add f)
  | 0x03 => some (.sub f)
  | 0x04 => some (.addc f)
  | 0x05 => some (.subb f)
  | 0x06 => some (.mul f)
  | 0x07 => some (.mulh f)
  | 0x08 => some (.mulw f)
  | 0x0B => some (.div f)
  | 0x0C => some (.rem f)
  | 0x0D => some (.neg f)
  | 0x0E => some (.abs f)
  | 0x0F => some (.min f)
  | 0x10 => some (.max f)
  | 0x11 => some (.and f)
  | 0x12 => some (.or f)
  | 0x13 => some (.xor f)
  | 0x14 => some (.not f)
  | 0x15 => some (.andn f)
  | 0x16 => some (.shl f)
  | 0x17 => some (.shr f)
  | 0x18 => some (.sra f)
  | 0x19 => some (.rotl f)
  | 0x1A => some (.rotr f)
  | 0x1B => some (.clz f)
  | 0x1C => some (.popc f)
  | 0x1D => some (.brev f)
  | 0x21 => some (.cmp f)
  | 0x23 => some (.addw f)
  | 0x24 => some (.mov f)
  | 0x30 => some (.fadd f)
  | 0x31 => some (.fsub f)
  | 0x32 => some (.fmul f)
  | 0x35 => some (.fmin f)
  | 0x36 => some (.fmax f)
  | 0x37 => some (.fminm f)
  | 0x38 => some (.fmaxm f)
  | 0x39 => some (.fabs f)
  | 0x3A => some (.fneg f)
  | 0x3B => some (.fcmp f)
  | 0x3C => some (.frcp f)
  | 0x3D => some (.frsq f)
  | 0x3E => some (.fsqrt f)
  | 0x3F => some (.fexp2 f)
  | 0x40 => some (.flog2 f)
  | 0x41 => some (.fsinpi f)
  | 0x42 => some (.fcospi f)
  | 0x43 => some (.ftanh f)
  | 0x44 => some (.fsigm f)
  | 0x45 => some (.ffrac f)
  | 0x46 => some (.fround f)
  | 0x47 => some (.fclass f)
  | 0x48 => some (.fldexp f)
  | 0x49 => some (.ffrexp f)
  | 0x50 => some (.cvt f)
  | 0x51 => some (.cvti f)
  | 0x52 => some (.pack f)
  | 0x53 => some (.unpack f)
  | 0x56 => some (.srseed f)
  | 0x57 => some (.srread f)
  | 0x60 => some (.perm f)
  | 0x61 => some (.bcast f)
  | 0x62 => some (.lshift f)
  | 0x63 => some (.bshift f)
  | 0x64 => some (.tlk f)
  | 0x66 => some (.vote f)
  | 0x67 => some (.mpop f)
  | 0x68 => some (.mfirst f)
  | 0x69 => some (.mand f)
  | 0x6A => some (.mor f)
  | 0x6B => some (.mxor f)
  | 0x6C => some (.mnot f)
  | 0x6D => some (.scan f)
  | 0x6E => some (.reduce f)
  | 0x6F => some (.rank f)
  | 0x75 => some (.brx f)
  | _ => none

/-- The instruction of a format B opcode (02 R51). -/
def instrB (op : Nat) (f : FormB) : Option Instr :=
  match op with
  | 0x09 => some (.mad f)
  | 0x0A => some (.madw f)
  | 0x1E => some (.bfx f)
  | 0x1F => some (.bfi f)
  | 0x20 => some (.sel f)
  | 0x28 => some (.dot4 f)
  | 0x29 => some (.sad f)
  | 0x33 => some (.fma f)
  | 0x34 => some (.fnma f)
  | 0x4A => some (.fdot2 f)
  | 0x54 => some (.dq f)
  | 0x55 => some (.qz f)
  | 0x60 => some (.permBytes f)
  | 0x65 => some (.bsel f)
  | _ => none

/-- The instruction of a format C opcode (02 R51). -/
def instrC (op : Nat) (f : FormC) : Option Instr :=
  match op with
  | 0x02 => some (.addImm f)
  | 0x03 => some (.subImm f)
  | 0x06 => some (.mulImm f)
  | 0x0B => some (.divImm f)
  | 0x0C => some (.remImm f)
  | 0x0F => some (.minImm f)
  | 0x10 => some (.maxImm f)
  | 0x11 => some (.andImm f)
  | 0x12 => some (.orImm f)
  | 0x13 => some (.xorImm f)
  | 0x16 => some (.shlImm f)
  | 0x17 => some (.shrImm f)
  | 0x18 => some (.sraImm f)
  | 0x19 => some (.rotlImm f)
  | 0x1A => some (.rotrImm f)
  | 0x1E => some (.bfxImm f)
  | 0x1F => some (.bfiImm f)
  | 0x21 => some (.cmpImm f)
  | 0x23 => some (.addwImm f)
  | 0x24 => some (.movImm f)
  | 0x26 => some (.movx f)
  | 0x27 => some (.movy f)
  | 0x2A => some (.iota f)
  | 0x48 => some (.fldexpImm f)
  | 0x53 => some (.unpackElement f)
  | 0x56 => some (.srseedImm f)
  | 0x61 => some (.bcastImm f)
  | 0x62 => some (.lshiftImm f)
  | 0x63 => some (.bshiftImm f)
  | 0x78 => some (.sleep f)
  | 0x7A => some (.trap f)
  | 0xF7 => some (.svc f)
  | _ => none

/-- The instruction of a format D opcode (02 R51). -/
def instrD (op : Nat) (f : FormD) : Option Instr :=
  match op with
  | 0x25 => some (.movi f)
  | 0x92 => some (.waitc f)
  | 0xF5 => some (.mark f)
  | _ => none

/-- The instruction of a format E opcode (02 R51). -/
def instrE (op : Nat) (f : FormE) : Option Instr :=
  match op with
  | 0x22 => some (.lea f)
  | 0x80 => some (.ld f)
  | 0x81 => some (.st f)
  | 0x82 => some (.ldu f)
  | 0x83 => some (.stu f)
  | 0x8D => some (.prefetch f)
  | 0xA0 => some (.atom f)
  | 0xA1 => some (.cas f)
  | 0xA2 => some (.red f)
  | 0xA3 => some (.atomf f)
  | 0xA4 => some (.redf f)
  | 0xA5 => some (.atomw f)
  | _ => none

/-- The instruction of a format F opcode (02 R51). -/
def instrF (op : Nat) (f : FormF) : Option Instr :=
  match op with
  | 0x70 => some (.br f)
  | 0x71 => some (.bru f)
  | 0x72 => some (.jmp f)
  | 0x73 => some (.call f)
  | _ => none

/-- The instruction of a format G opcode (02 R51). -/
def instrG (op : Nat) (f : FormG) : Option Instr :=
  match op with
  | 0x74 => some (.ret f)
  | 0x76 => some (.exit f)
  | 0x77 => some (.yield f)
  | 0x79 => some (.nop f)
  | 0x7B => some (.tret f)
  | 0x7C => some (.pdone f)
  | 0x7D => some (.rmark f)
  | 0x7E => some (.deq f)
  | 0x7F => some (.enq f)
  | 0x84 => some (.ldw f)
  | 0x85 => some (.stw f)
  | 0x86 => some (.ldf f)
  | 0x87 => some (.ste f)
  | 0x88 => some (.fefill f)
  | 0x89 => some (.feget f)
  | 0x8A => some (.setw f)
  | 0x8B => some (.fillw f)
  | 0x8C => some (.flushw f)
  | 0x8E => some (.pub f)
  | 0x8F => some (.snap f)
  | 0x90 => some (.phase f)
  | 0x91 => some (.fence f)
  | 0x93 => some (.waitr f)
  | 0xA0 => some (.atomWindow f)
  | 0xA1 => some (.casWindow f)
  | 0xA2 => some (.redWindow f)
  | 0xA3 => some (.atomfWindow f)
  | 0xA4 => some (.redfWindow f)
  | 0xB0 => some (.barinit f)
  | 0xB1 => some (.bararr f)
  | 0xB2 => some (.barwait f)
  | 0xB3 => some (.bartok f)
  | 0xB4 => some (.qpush f)
  | 0xB5 => some (.qpop f)
  | 0xB6 => some (.qstat f)
  | 0xB7 => some (.copy f)
  | 0xB8 => some (.gcopy f)
  | 0xC0 => some (.tcfg f)
  | 0xC1 => some (.unf f)
  | 0xC2 => some (.bload f)
  | 0xC3 => some (.xfetch f)
  | 0xC4 => some (.mma f)
  | 0xC5 => some (.accz f)
  | 0xC6 => some (.accld f)
  | 0xC7 => some (.accst f)
  | 0xC8 => some (.drain f)
  | 0xC9 => some (.chain f)
  | 0xCA => some (.tsync f)
  | 0xCB => some (.tsig f)
  | 0xD8 => some (.ecnt f)
  | 0xD9 => some (.xstat f)
  | 0xE0 => some (.coll f)
  | 0xE1 => some (.cview f)
  | 0xE2 => some (.cpolicy f)
  | 0xE3 => some (.cack f)
  | 0xE4 => some (.cjoin f)
  | 0xE8 => some (.gsig f)
  | 0xE9 => some (.gwait f)
  | 0xEA => some (.gtry f)
  | 0xEB => some (.gxch f)
  | 0xEC => some (.gstat f)
  | 0xF0 => some (.sysrd f)
  | 0xF1 => some (.syswr f)
  | 0xF2 => some (.clk f)
  | 0xF3 => some (.runk f)
  | 0xF4 => some (.brk f)
  | 0xF6 => some (.sampctl f)
  | _ => none

/-- The instruction that a word's opcode, format and fields spell, before the checks of steps 5 to 7; none for step 4 of 02 R54 and for unassigned codes. -/
def buildInstr (w : Nat) : Option Instr :=
  let op := bitsAt w 56 8
  match bitsAt w 48 3 with
  | 0 => (decA w).bind (instrA op)
  | 1 => instrB op (decB w)
  | 2 => instrC op (decC w)
  | 3 => instrD op (decD w)
  | 4 => (decE w).bind (instrE op)
  | 5 => instrF op (decF w)
  | 6 => instrG op (decG w)
  | _ => none

/-- Decoding of 02 R54, steps 1 to 7, at a group or (`seq`) at a tile sequencer; `last` says that the word is the last of its block. Steps 8 and 9 need the context and are made at issue. -/
def decodeWord (seq last : Bool) (w : BitVec 64) : Except Code Instr :=
  let op := bitsAt w.toNat 56 8
  if op ≤ 1 then .error .illegalEncoding
  else if !classOk seq op then .error .illegalEncoding
  else if !opAssigned op then .error .unimplemented
  else
    match buildInstr w.toNat with
    | none => .error .illegalEncoding
    | some i => if legal seq last i then .ok i else .error .illegalEncoding

/-- The word stored at an address, from its bytes, lowest address first (02 R28). -/
def wordOfBytes (bs : List Byte) : BitVec 64 := BitVec.ofNat 64 (fromBytes bs)

/-- The instruction that the decoder reads from a word numbered as the opcode table numbers it: the 64-bit word of 02 R28, decoded at the tile sequencer where its opcode is one that only the sequencer executes (02 R52) and at a group otherwise, at the end of its block. -/
def decodeTableWord (_nbits w : Nat) : Option Instr :=
  let x := wordOfBytes (toBytes 8 w)
  let op := bitsAt x.toNat 56 8
  match decodeWord (decide (0xC0 ≤ op ∧ op ≤ 0xD7)) true x with
  | .ok i => some i
  | .error _ => none

/-! ### Encoding -/

/-- The guard bits of 02 R37, above bit 50. -/
def encGuard (g : Guard) : Nat := (if g.neg then 2 ^ 55 else 0) + g.mask.toNat * 2 ^ 51

/-- Bits 47:0 of format A (02 R43, R44). -/
def encA (f : FormA) : Nat :=
  opndCode f.dst * 2 ^ 37 + opndCode f.a * 2 ^ 26 + opndCode f.b * 2 ^ 15 + modCode f.modA * 2 ^ 12
    + modCode f.modB * 2 ^ 9 + tyCode f.ty * 2 ^ 4 + rndCode f.rnd * 2 + (if f.sat then 1 else 0)

/-- Bits 47:0 of format B. -/
def encB (f : FormB) : Nat :=
  opndCode f.dst * 2 ^ 37 + opndCode f.a * 2 ^ 26 + opndCode f.b * 2 ^ 15 + opndCode f.c * 2 ^ 4
    + f.func.toNat

/-- Bits 47:0 of format C. -/
def encC (f : FormC) : Nat :=
  opndCode f.dst * 2 ^ 37 + opndCode f.a * 2 ^ 26 + f.func.toNat * 2 ^ 22 + f.imm.toNat

/-- Bits 47:0 of format D. -/
def encD (f : FormD) : Nat := opndCode f.dst * 2 ^ 37 + f.func.toNat * 2 ^ 32 + f.imm.toNat

/-- Bits 47:0 of format E. -/
def encE (f : FormE) : Nat :=
  opndCode f.data * 2 ^ 37 + f.base.toNat * 2 ^ 29 + opndCode f.off * 2 ^ 18 + f.imm.toNat * 2 ^ 6
    + scopeCode f.scope * 2 ^ 3 + sizeCode f.size

/-- Bits 47:0 of format F. -/
def encF (f : FormF) : Nat := f.off.toNat * 2 ^ 16 + f.cond.toNat

/-- Bits 47:0 of format G. -/
def encG (f : FormG) : Nat :=
  opndCode f.x * 2 ^ 37 + opndCode f.y * 2 ^ 26 + f.handle.toNat * 2 ^ 16 + f.func.toNat

/-- A word from its opcode, guard, format code and bits 47:0 (02 R37). -/
def encWord (op fmt : Nat) (g : Guard) (body : Nat) : BitVec 64 :=
  BitVec.ofNat 64 (op * 2 ^ 56 + encGuard g + fmt * 2 ^ 48 + body)

/-- The word of an instruction (02 R37, R43, R51); a step of the machine has none. -/
def encode : Instr → Option (BitVec 64)
  | .add f => some (encWord 0x02 0 f.g (encA f))
  | .addImm f => some (encWord 0x02 2 f.g (encC f))
  | .sub f => some (encWord 0x03 0 f.g (encA f))
  | .subImm f => some (encWord 0x03 2 f.g (encC f))
  | .addc f => some (encWord 0x04 0 f.g (encA f))
  | .subb f => some (encWord 0x05 0 f.g (encA f))
  | .mul f => some (encWord 0x06 0 f.g (encA f))
  | .mulImm f => some (encWord 0x06 2 f.g (encC f))
  | .mulh f => some (encWord 0x07 0 f.g (encA f))
  | .mulw f => some (encWord 0x08 0 f.g (encA f))
  | .mad f => some (encWord 0x09 1 f.g (encB f))
  | .madw f => some (encWord 0x0A 1 f.g (encB f))
  | .div f => some (encWord 0x0B 0 f.g (encA f))
  | .divImm f => some (encWord 0x0B 2 f.g (encC f))
  | .rem f => some (encWord 0x0C 0 f.g (encA f))
  | .remImm f => some (encWord 0x0C 2 f.g (encC f))
  | .neg f => some (encWord 0x0D 0 f.g (encA f))
  | .abs f => some (encWord 0x0E 0 f.g (encA f))
  | .min f => some (encWord 0x0F 0 f.g (encA f))
  | .minImm f => some (encWord 0x0F 2 f.g (encC f))
  | .max f => some (encWord 0x10 0 f.g (encA f))
  | .maxImm f => some (encWord 0x10 2 f.g (encC f))
  | .and f => some (encWord 0x11 0 f.g (encA f))
  | .andImm f => some (encWord 0x11 2 f.g (encC f))
  | .or f => some (encWord 0x12 0 f.g (encA f))
  | .orImm f => some (encWord 0x12 2 f.g (encC f))
  | .xor f => some (encWord 0x13 0 f.g (encA f))
  | .xorImm f => some (encWord 0x13 2 f.g (encC f))
  | .not f => some (encWord 0x14 0 f.g (encA f))
  | .andn f => some (encWord 0x15 0 f.g (encA f))
  | .shl f => some (encWord 0x16 0 f.g (encA f))
  | .shlImm f => some (encWord 0x16 2 f.g (encC f))
  | .shr f => some (encWord 0x17 0 f.g (encA f))
  | .shrImm f => some (encWord 0x17 2 f.g (encC f))
  | .sra f => some (encWord 0x18 0 f.g (encA f))
  | .sraImm f => some (encWord 0x18 2 f.g (encC f))
  | .rotl f => some (encWord 0x19 0 f.g (encA f))
  | .rotlImm f => some (encWord 0x19 2 f.g (encC f))
  | .rotr f => some (encWord 0x1A 0 f.g (encA f))
  | .rotrImm f => some (encWord 0x1A 2 f.g (encC f))
  | .clz f => some (encWord 0x1B 0 f.g (encA f))
  | .popc f => some (encWord 0x1C 0 f.g (encA f))
  | .brev f => some (encWord 0x1D 0 f.g (encA f))
  | .bfx f => some (encWord 0x1E 1 f.g (encB f))
  | .bfxImm f => some (encWord 0x1E 2 f.g (encC f))
  | .bfi f => some (encWord 0x1F 1 f.g (encB f))
  | .bfiImm f => some (encWord 0x1F 2 f.g (encC f))
  | .sel f => some (encWord 0x20 1 f.g (encB f))
  | .cmp f => some (encWord 0x21 0 f.g (encA f))
  | .cmpImm f => some (encWord 0x21 2 f.g (encC f))
  | .lea f => some (encWord 0x22 4 f.g (encE f))
  | .addw f => some (encWord 0x23 0 f.g (encA f))
  | .addwImm f => some (encWord 0x23 2 f.g (encC f))
  | .mov f => some (encWord 0x24 0 f.g (encA f))
  | .movImm f => some (encWord 0x24 2 f.g (encC f))
  | .movi f => some (encWord 0x25 3 f.g (encD f))
  | .movx f => some (encWord 0x26 2 f.g (encC f))
  | .movy f => some (encWord 0x27 2 f.g (encC f))
  | .dot4 f => some (encWord 0x28 1 f.g (encB f))
  | .sad f => some (encWord 0x29 1 f.g (encB f))
  | .iota f => some (encWord 0x2A 2 f.g (encC f))
  | .fadd f => some (encWord 0x30 0 f.g (encA f))
  | .fsub f => some (encWord 0x31 0 f.g (encA f))
  | .fmul f => some (encWord 0x32 0 f.g (encA f))
  | .fma f => some (encWord 0x33 1 f.g (encB f))
  | .fnma f => some (encWord 0x34 1 f.g (encB f))
  | .fmin f => some (encWord 0x35 0 f.g (encA f))
  | .fmax f => some (encWord 0x36 0 f.g (encA f))
  | .fminm f => some (encWord 0x37 0 f.g (encA f))
  | .fmaxm f => some (encWord 0x38 0 f.g (encA f))
  | .fabs f => some (encWord 0x39 0 f.g (encA f))
  | .fneg f => some (encWord 0x3A 0 f.g (encA f))
  | .fcmp f => some (encWord 0x3B 0 f.g (encA f))
  | .frcp f => some (encWord 0x3C 0 f.g (encA f))
  | .frsq f => some (encWord 0x3D 0 f.g (encA f))
  | .fsqrt f => some (encWord 0x3E 0 f.g (encA f))
  | .fexp2 f => some (encWord 0x3F 0 f.g (encA f))
  | .flog2 f => some (encWord 0x40 0 f.g (encA f))
  | .fsinpi f => some (encWord 0x41 0 f.g (encA f))
  | .fcospi f => some (encWord 0x42 0 f.g (encA f))
  | .ftanh f => some (encWord 0x43 0 f.g (encA f))
  | .fsigm f => some (encWord 0x44 0 f.g (encA f))
  | .ffrac f => some (encWord 0x45 0 f.g (encA f))
  | .fround f => some (encWord 0x46 0 f.g (encA f))
  | .fclass f => some (encWord 0x47 0 f.g (encA f))
  | .fldexp f => some (encWord 0x48 0 f.g (encA f))
  | .fldexpImm f => some (encWord 0x48 2 f.g (encC f))
  | .ffrexp f => some (encWord 0x49 0 f.g (encA f))
  | .fdot2 f => some (encWord 0x4A 1 f.g (encB f))
  | .cvt f => some (encWord 0x50 0 f.g (encA f))
  | .cvti f => some (encWord 0x51 0 f.g (encA f))
  | .pack f => some (encWord 0x52 0 f.g (encA f))
  | .unpack f => some (encWord 0x53 0 f.g (encA f))
  | .unpackElement f => some (encWord 0x53 2 f.g (encC f))
  | .dq f => some (encWord 0x54 1 f.g (encB f))
  | .qz f => some (encWord 0x55 1 f.g (encB f))
  | .srseed f => some (encWord 0x56 0 f.g (encA f))
  | .srseedImm f => some (encWord 0x56 2 f.g (encC f))
  | .srread f => some (encWord 0x57 0 f.g (encA f))
  | .perm f => some (encWord 0x60 0 f.g (encA f))
  | .permBytes f => some (encWord 0x60 1 f.g (encB f))
  | .bcast f => some (encWord 0x61 0 f.g (encA f))
  | .bcastImm f => some (encWord 0x61 2 f.g (encC f))
  | .lshift f => some (encWord 0x62 0 f.g (encA f))
  | .lshiftImm f => some (encWord 0x62 2 f.g (encC f))
  | .bshift f => some (encWord 0x63 0 f.g (encA f))
  | .bshiftImm f => some (encWord 0x63 2 f.g (encC f))
  | .tlk f => some (encWord 0x64 0 f.g (encA f))
  | .bsel f => some (encWord 0x65 1 f.g (encB f))
  | .vote f => some (encWord 0x66 0 f.g (encA f))
  | .mpop f => some (encWord 0x67 0 f.g (encA f))
  | .mfirst f => some (encWord 0x68 0 f.g (encA f))
  | .mand f => some (encWord 0x69 0 f.g (encA f))
  | .mor f => some (encWord 0x6A 0 f.g (encA f))
  | .mxor f => some (encWord 0x6B 0 f.g (encA f))
  | .mnot f => some (encWord 0x6C 0 f.g (encA f))
  | .scan f => some (encWord 0x6D 0 f.g (encA f))
  | .reduce f => some (encWord 0x6E 0 f.g (encA f))
  | .rank f => some (encWord 0x6F 0 f.g (encA f))
  | .br f => some (encWord 0x70 5 f.g (encF f))
  | .bru f => some (encWord 0x71 5 f.g (encF f))
  | .jmp f => some (encWord 0x72 5 f.g (encF f))
  | .call f => some (encWord 0x73 5 f.g (encF f))
  | .ret f => some (encWord 0x74 6 f.g (encG f))
  | .brx f => some (encWord 0x75 0 f.g (encA f))
  | .exit f => some (encWord 0x76 6 f.g (encG f))
  | .yield f => some (encWord 0x77 6 f.g (encG f))
  | .sleep f => some (encWord 0x78 2 f.g (encC f))
  | .nop f => some (encWord 0x79 6 f.g (encG f))
  | .trap f => some (encWord 0x7A 2 f.g (encC f))
  | .tret f => some (encWord 0x7B 6 f.g (encG f))
  | .pdone f => some (encWord 0x7C 6 f.g (encG f))
  | .rmark f => some (encWord 0x7D 6 f.g (encG f))
  | .deq f => some (encWord 0x7E 6 f.g (encG f))
  | .enq f => some (encWord 0x7F 6 f.g (encG f))
  | .ld f => some (encWord 0x80 4 f.g (encE f))
  | .st f => some (encWord 0x81 4 f.g (encE f))
  | .ldu f => some (encWord 0x82 4 f.g (encE f))
  | .stu f => some (encWord 0x83 4 f.g (encE f))
  | .ldw f => some (encWord 0x84 6 f.g (encG f))
  | .stw f => some (encWord 0x85 6 f.g (encG f))
  | .ldf f => some (encWord 0x86 6 f.g (encG f))
  | .ste f => some (encWord 0x87 6 f.g (encG f))
  | .fefill f => some (encWord 0x88 6 f.g (encG f))
  | .feget f => some (encWord 0x89 6 f.g (encG f))
  | .setw f => some (encWord 0x8A 6 f.g (encG f))
  | .fillw f => some (encWord 0x8B 6 f.g (encG f))
  | .flushw f => some (encWord 0x8C 6 f.g (encG f))
  | .prefetch f => some (encWord 0x8D 4 f.g (encE f))
  | .pub f => some (encWord 0x8E 6 f.g (encG f))
  | .snap f => some (encWord 0x8F 6 f.g (encG f))
  | .phase f => some (encWord 0x90 6 f.g (encG f))
  | .fence f => some (encWord 0x91 6 f.g (encG f))
  | .waitc f => some (encWord 0x92 3 f.g (encD f))
  | .waitr f => some (encWord 0x93 6 f.g (encG f))
  | .atom f => some (encWord 0xA0 4 f.g (encE f))
  | .atomWindow f => some (encWord 0xA0 6 f.g (encG f))
  | .cas f => some (encWord 0xA1 4 f.g (encE f))
  | .casWindow f => some (encWord 0xA1 6 f.g (encG f))
  | .red f => some (encWord 0xA2 4 f.g (encE f))
  | .redWindow f => some (encWord 0xA2 6 f.g (encG f))
  | .atomf f => some (encWord 0xA3 4 f.g (encE f))
  | .atomfWindow f => some (encWord 0xA3 6 f.g (encG f))
  | .redf f => some (encWord 0xA4 4 f.g (encE f))
  | .redfWindow f => some (encWord 0xA4 6 f.g (encG f))
  | .atomw f => some (encWord 0xA5 4 f.g (encE f))
  | .barinit f => some (encWord 0xB0 6 f.g (encG f))
  | .bararr f => some (encWord 0xB1 6 f.g (encG f))
  | .barwait f => some (encWord 0xB2 6 f.g (encG f))
  | .bartok f => some (encWord 0xB3 6 f.g (encG f))
  | .qpush f => some (encWord 0xB4 6 f.g (encG f))
  | .qpop f => some (encWord 0xB5 6 f.g (encG f))
  | .qstat f => some (encWord 0xB6 6 f.g (encG f))
  | .copy f => some (encWord 0xB7 6 f.g (encG f))
  | .gcopy f => some (encWord 0xB8 6 f.g (encG f))
  | .tcfg f => some (encWord 0xC0 6 f.g (encG f))
  | .unf f => some (encWord 0xC1 6 f.g (encG f))
  | .bload f => some (encWord 0xC2 6 f.g (encG f))
  | .xfetch f => some (encWord 0xC3 6 f.g (encG f))
  | .mma f => some (encWord 0xC4 6 f.g (encG f))
  | .accz f => some (encWord 0xC5 6 f.g (encG f))
  | .accld f => some (encWord 0xC6 6 f.g (encG f))
  | .accst f => some (encWord 0xC7 6 f.g (encG f))
  | .drain f => some (encWord 0xC8 6 f.g (encG f))
  | .chain f => some (encWord 0xC9 6 f.g (encG f))
  | .tsync f => some (encWord 0xCA 6 f.g (encG f))
  | .tsig f => some (encWord 0xCB 6 f.g (encG f))
  | .ecnt f => some (encWord 0xD8 6 f.g (encG f))
  | .xstat f => some (encWord 0xD9 6 f.g (encG f))
  | .coll f => some (encWord 0xE0 6 f.g (encG f))
  | .cview f => some (encWord 0xE1 6 f.g (encG f))
  | .cpolicy f => some (encWord 0xE2 6 f.g (encG f))
  | .cack f => some (encWord 0xE3 6 f.g (encG f))
  | .cjoin f => some (encWord 0xE4 6 f.g (encG f))
  | .gsig f => some (encWord 0xE8 6 f.g (encG f))
  | .gwait f => some (encWord 0xE9 6 f.g (encG f))
  | .gtry f => some (encWord 0xEA 6 f.g (encG f))
  | .gxch f => some (encWord 0xEB 6 f.g (encG f))
  | .gstat f => some (encWord 0xEC 6 f.g (encG f))
  | .sysrd f => some (encWord 0xF0 6 f.g (encG f))
  | .syswr f => some (encWord 0xF1 6 f.g (encG f))
  | .clk f => some (encWord 0xF2 6 f.g (encG f))
  | .runk f => some (encWord 0xF3 6 f.g (encG f))
  | .brk f => some (encWord 0xF4 6 f.g (encG f))
  | .mark f => some (encWord 0xF5 3 f.g (encD f))
  | .sampctl f => some (encWord 0xF6 6 f.g (encG f))
  | .svc f => some (encWord 0xF7 2 f.g (encC f))
  | .splitEntryReturn _ _ => none
  | .mergePatienceExpiry _ _ => none
  | .loadComplete _ _ => none
  | .roundClose _ => none
  | .versionRetire _ _ _ => none
  | .windowWriteback _ _ _ => none
  | .jobPerform _ => none
  | .jobComplete _ => none
  | .tileInstructionComplete _ => none
  | .xfetchDeadline _ => none
  | .xfetchPrimaryLanded _ => none
  | .launchPacket _ _ _ => none
  | .copyPacket _ _ => none
  | .workItemPacket _ _ => none
  | .launchComplete _ => none
  | .blockAdmission _ => none
  | .blockRestart _ => none
  | .preemption _ _ => none
  | .preemptTimeout _ => none
  | .resume _ => none
  | .resident _ _ => none
  | .declined _ _ => none
  | .groupWatchdogFiring _ => none
  | .stall _ => none
  | .partitionResume _ => none
  | .hostPreempt _ => none
  | .allowancePeriod _ => none
  | .allowanceExhausted _ _ => none
  | .lend _ _ => none
  | .reclaim _ _ => none
  | .autoReclaim _ => none
  | .partitionConfigWrite _ _ => none
  | .rangeTableWrite _ _ _ => none
  | .regionAttributeWrite _ _ _ _ => none
  | .tlbInvalidation _ _ _ => none
  | .pageRequestRingRegister _ _ _ => none
  | .packetQueueRegister _ _ _ => none
  | .workQueueCapacity _ _ _ => none
  | .expertTableWrite _ _ _ => none
  | .checkAreaRegister _ _ _ => none
  | .serviceRingRegister _ _ => none
  | .adminQueueRegister _ => none
  | .reply _ _ _ => none
  | .counterWrite _ _ _ _ => none
  | .hostMemWrite _ _ => none
  | .hostMemRead _ _ => none
  | .hostLineSnoop _ _ => none
  | .peerWrite _ _ => none
  | .gateCreate _ _ => none
  | .gateSetAcl _ _ => none
  | .gateSetRate _ _ _ => none
  | .gateDestroy _ => none
  | .gateFreeze _ => none
  | .gateExport _ => none
  | .gateImport _ _ _ => none
  | .gateThaw _ => none
  | .deferredCountClear _ => none
  | .gateServerPerform _ => none
  | .bucketTick => none
  | .shadowRunStart _ => none
  | .keepingRunStart _ => none
  | .kilnDecision _ => none
  | .coneTest _ => none
  | .coneTestComplete _ _ => none
  | .coneTestAbort _ => none
  | .correctedError _ _ _ _ => none
  | .bankSelfTest _ _ _ => none
  | .uncorrectableError _ => none
  | .patrolScrub _ _ => none
  | .linkRetrain _ _ => none
  | .peerRouteTimeout _ _ => none
  | .thermalThrottle => none
  | .thermalShutdown => none
  | .readKilsy _ => none
  | .readErrors _ => none
  | .startCold _ _ => none
  | .startWarm _ => none
  | .setTolerance _ _ => none
  | .deviceState => none
  | .wake => none
  | .updateConfig _ => none
  | .idlePowerEntry => none
  | .wakeEvent _ => none
  | .tenantKeyLoad _ _ _ => none
  | .tenantKeyClear _ _ => none
  | .collGroupCreate _ _ _ _ _ _ => none
  | .heartbeat _ => none
  | .heartbeatTimeout _ _ => none
  | .memberRemove _ _ => none
  | .propose _ _ _ _ => none
  | .acknowledge _ _ _ => none
  | .commit _ _ _ _ => none
  | .ackLapse _ => none
  | .collPacket _ _ _ _ _ _ => none
  | .policyChoice _ _ _ _ => none
  | .choiceTimeout _ _ => none
  | .joinRequest _ _ _ => none
  | .joinTimeout _ _ => none
  | .collComplete _ => none
  | .debugAttach _ _ => none
  | .debugDetach _ => none
  | .debugHold _ _ _ => none
  | .debugRelease _ _ _ => none
  | .debugOne _ _ _ _ => none
  | .debugSetBp _ _ _ _ => none
  | .debugClrBp _ _ => none
  | .debugRead _ _ _ _ => none
  | .debugWrite _ _ _ _ _ => none
  | .sampleTag _ _ _ _ => none
  | .traceEnable _ _ _ _ _ => none
  | .ringRegister _ _ _ _ => none
  | .dump _ _ _ => none
  | .wordNotAnInstruction _ => none
  | .sleepCountRunsOut _ _ => none
  | .inboundPeerAtomic _ _ _ _ => none
  | .inboundPeerRead _ _ => none
  | .suspectReport _ _ => none
  | .heartbeatReceived _ _ => none
  | .expectedDigestSet _ _ => none
  | .dumpComplete _ _ => none

end Sys2Proof
end

