-- ==== Sys2Proof/Machine/Numbers.lean ====
section
/-! DEFINITION. Number formats, exact values and the one rounding function (chapter 04), and the mixing function of 16 R347. -/

namespace Sys2Proof.Machine
open Sys2Proof

/-! ### Formats -/

/-- A floating-point format of 04 R77: exponent width, fraction width, bias, and whether it has infinities (04 R78). -/
structure Fmt where
  ew : Nat
  mw : Nat
  bias : Nat
  inf : Bool
  deriving DecidableEq, Repr

def fmt32 : Fmt := { ew := 8, mw := 23, bias := 127, inf := true }
def fmt16 : Fmt := { ew := 5, mw := 10, bias := 15, inf := true }
def fmtB16 : Fmt := { ew := 8, mw := 7, bias := 127, inf := true }
def fmtE4 : Fmt := { ew := 4, mw := 3, bias := 7, inf := false }
def fmtE5 : Fmt := { ew := 5, mw := 2, bias := 15, inf := true }
def fmtAcc : Fmt := { ew := 8, mw := 39, bias := 127, inf := true }

/-- The smallest normal exponent (04 R77). -/
def Fmt.emin (f : Fmt) : Int := 1 - (f.bias : Int)

/-- The code of +infinity, or for E4M3 the first code past the largest finite one. -/
def Fmt.top (f : Fmt) : Nat := if f.inf then (2 ^ f.ew - 1) * 2 ^ f.mw else 2 ^ (f.ew + f.mw) - 1

/-- The code of the largest finite value (04 R79). -/
def Fmt.maxCode (f : Fmt) : Nat := f.top - 1

/-- The sign bit's weight. -/
def Fmt.signBit (f : Fmt) : Nat := 2 ^ (f.ew + f.mw)

/-- The canonical quiet NaN (04 R79). -/
def Fmt.qnan (f : Fmt) : Nat := if f.inf then f.top + 2 ^ (f.mw - 1) else f.top

/-- The sign of a code. -/
def Fmt.neg (f : Fmt) (c : Nat) : Bool := c / f.signBit % 2 == 1

/-- A code without its sign. -/
def Fmt.mag (f : Fmt) (c : Nat) : Nat := c % f.signBit

/-- Whether a code is a NaN (04 R77, R78). -/
def Fmt.isNan (f : Fmt) (c : Nat) : Bool := if f.inf then decide (f.top < f.mag c) else f.mag c == f.top

/-- Whether a code is an infinity. -/
def Fmt.isInf (f : Fmt) (c : Nat) : Bool := f.inf && f.mag c == f.top

/-- A sign put on a magnitude code. -/
def Fmt.signed (f : Fmt) (neg : Bool) (mag : Nat) : Nat := (if neg then f.signBit else 0) + mag

/-- The format of a floating-point type, of a packed type's elements too. -/
def fmtOf : Ty → Fmt
  | .f16 | .f16x2 => fmt16
  | .bf16 | .bf16x2 => fmtB16
  | .e4m3 => fmtE4
  | .e5m2 => fmtE5
  | .f32 | .s32 | .n32 | .s16 | .n16 | .s8 | .n8 | .s4 | .n4 | .s64 | .n64
  | .b8 | .b16 | .b32 | .b64 | .b128 | .n8x4 | .s8x4 | .n4x8 => fmt32

/-! ### Exact values -/

/-- An exact value (00 R7): a NaN, an infinity, or a signed rational, whose zero keeps its sign. -/
inductive XR where
  | nan
  | inf (neg : Bool)
  | fin (neg : Bool) (num den : Nat)
  deriving DecidableEq, Repr

/-- num / den × 2^k in lowest terms. -/
def mkFin (neg : Bool) (num den : Nat) (k : Int) : XR :=
  let n := if 0 ≤ k then num * 2 ^ k.toNat else num
  let d := if 0 ≤ k then den else den * 2 ^ (-k).toNat
  let g := max (Nat.gcd n d) 1
  .fin neg (n / g) (d / g)

/-- The exact value of a code (04 R77, R78). -/
def Fmt.value (f : Fmt) (c : Nat) : XR :=
  if f.isNan c then .nan
  else if f.isInf c then .inf (f.neg c)
  else
    let e := f.mag c / 2 ^ f.mw
    let m := f.mag c % 2 ^ f.mw
    if e = 0 then mkFin (f.neg c) m 1 (f.emin - (f.mw : Int))
    else mkFin (f.neg c) (2 ^ f.mw + m) 1 ((e : Int) - 1 + f.emin - (f.mw : Int))

/-- An exact integer as a value; zero is +0. -/
def xrInt (x : Int) : XR := .fin (decide (x < 0)) x.natAbs 1

/-- Negation. -/
def XR.negate : XR → XR
  | .nan => .nan
  | .inf s => .inf !s
  | .fin s n d => .fin (!s) n d

/-- The sum with zero signs by 04 R85; `rdn` says that the mode is `.rdn`. -/
def XR.add (rdn : Bool) : XR → XR → XR
  | .nan, _ => .nan
  | _, .nan => .nan
  | .inf s, .inf t => if s = t then .inf s else .nan
  | .inf s, .fin _ _ _ => .inf s
  | .fin _ _ _, .inf t => .inf t
  | .fin s n d, .fin t m e =>
    if n = 0 ∧ m = 0 then .fin (if s = t then s else rdn) 0 1
    else
      let a : Int := (if s then -1 else 1) * ((n * e : Nat) : Int)
      let b : Int := (if t then -1 else 1) * ((m * d : Nat) : Int)
      let x := a + b
      if x = 0 then .fin rdn 0 1 else mkFin (decide (x < 0)) x.natAbs (d * e) 0

/-- The product (04 R85, R87). -/
def XR.mul : XR → XR → XR
  | .nan, _ => .nan
  | _, .nan => .nan
  | .inf s, .inf t => .inf (s != t)
  | .inf s, .fin t m _ => if m = 0 then .nan else .inf (s != t)
  | .fin s n _, .inf t => if n = 0 then .nan else .inf (s != t)
  | .fin s n d, .fin t m e => mkFin (s != t) (n * m) (d * e) 0

/-- The quotient of finite values and infinities; a zero divisor gives an infinity, and 0 / 0 and inf / inf a NaN. -/
def XR.div : XR → XR → XR
  | .nan, _ => .nan
  | _, .nan => .nan
  | .inf _, .inf _ => .nan
  | .inf s, .fin t _ _ => .inf (s != t)
  | .fin s _ _, .inf t => .fin (s != t) 0 1
  | .fin s n d, .fin t m e =>
    if m = 0 then (if n = 0 then .nan else .inf (s != t)) else mkFin (s != t) (n * e) (d * m) 0

/-- Whether a value is zero. -/
def XR.isZero : XR → Bool
  | .fin _ n _ => n == 0
  | .nan => false
  | .inf _ => false

/-- Whether a value is a NaN. -/
def XR.isNan : XR → Bool
  | .nan => true
  | .inf _ => false
  | .fin _ _ _ => false

/-- a < b as real values; false where one is a NaN. -/
def XR.lt : XR → XR → Bool
  | .nan, _ => false
  | _, .nan => false
  | .inf s, .inf t => s && !t
  | .inf s, .fin _ _ _ => s
  | .fin _ _ _, .inf t => !t
  | .fin s n d, .fin t m e =>
    decide ((if s then -1 else 1) * ((n * e : Nat) : Int) < (if t then -1 else 1) * ((m * d : Nat) : Int))

/-- a = b as real values: the zeros are equal, and a NaN equals nothing (05 R124). -/
def XR.eq : XR → XR → Bool
  | .nan, _ => false
  | _, .nan => false
  | .inf s, .inf t => s == t
  | .inf _, .fin _ _ _ => false
  | .fin _ _ _, .inf _ => false
  | .fin s n d, .fin t m e =>
    decide ((if s then -1 else 1) * ((n * e : Nat) : Int) = (if t then -1 else 1) * ((m * d : Nat) : Int))

/-! ### Rounding -/

/-- The floor of log2 of num / den, for num, den > 0. -/
def floorLog2 (num den : Nat) : Int :=
  let l : Int := (Nat.log2 num : Int) - (Nat.log2 den : Int)
  let below := if 0 ≤ l then decide (num < den * 2 ^ l.toNat) else decide (num * 2 ^ (-l).toNat < den)
  if below then l - 1 else l

/-- Whether a magnitude of n units and a remainder rem / den of one is rounded up (04 R83); `r` is the random word of `.sr`. -/
def roundUp (mode : Rnd) (neg : Bool) (n rem den r : Nat) : Bool :=
  match mode with
  | .rne => decide (den < 2 * rem) || (2 * rem == den && n % 2 == 1)
  | .rna => decide (den ≤ 2 * rem)
  | .rtz => false
  | .rup => rem != 0 && !neg
  | .rdn => rem != 0 && neg
  | .sr => decide (2 ^ 32 ≤ rem * 2 ^ 32 / den + r)

/-- The code of an overflow (04 R84). -/
def overflow (f : Fmt) (mode : Rnd) (sat neg : Bool) : Nat :=
  f.signed neg <|
    if sat then f.maxCode
    else if !f.inf then f.top
    else match mode with
      | .rne | .rna | .sr => f.top
      | .rtz => f.maxCode
      | .rup => if neg then f.maxCode else f.top
      | .rdn => if neg then f.top else f.maxCode

/-- `round(x, fmt, mode, satbit)` of 04 R83, as a code; a NaN gives the canonical quiet NaN of 04 R87. -/
def roundF (f : Fmt) (mode : Rnd) (sat : Bool) (r : Nat) : XR → Nat
  | .nan => f.qnan
  | .inf s => if f.inf then f.signed s f.top else if sat then f.signed s f.maxCode else f.signed s f.top
  | .fin s num den =>
    if num = 0 then f.signed s 0
    else
      let e := max (floorLog2 num den) f.emin
      let k := (f.mw : Int) - e
      let a := if 0 ≤ k then num * 2 ^ k.toNat else num
      let d := if 0 ≤ k then den else den * 2 ^ (-k).toNat
      let n := a / d
      let up := roundUp mode s n (a % d) d r
      let code := (e - f.emin).toNat * 2 ^ f.mw + n + (if up then 1 else 0)
      if f.maxCode < code then overflow f mode sat s else f.signed s code

/-- `round_rne` of 04 R86. -/
def roundRne (f : Fmt) (x : XR) : Nat := roundF f .rne false 0 x

/-- A finite value rounded to an integer by a mode (04 R89, u = 1). -/
def roundInt (mode : Rnd) (r : Nat) (neg : Bool) (num den : Nat) : Int :=
  let n := num / den
  let m := n + (if roundUp mode neg n (num % den) den r then 1 else 0)
  if neg then -(m : Int) else (m : Int)

/-! ### Integer formats -/

/-- Width, and whether it is signed, of an integer type (04 R80); a packed type's element. -/
def intTy : Ty → Nat × Bool
  | .s64 => (64, true) | .n64 => (64, false) | .s32 => (32, true) | .n32 => (32, false)
  | .s16 => (16, true) | .n16 => (16, false) | .s8 => (8, true) | .n8 => (8, false)
  | .s4 => (4, true) | .n4 => (4, false)
  | .s8x4 => (8, true) | .n8x4 => (8, false) | .n4x8 => (4, false)
  | .b8 => (8, false) | .b16 => (16, false) | .b32 => (32, false) | .b64 => (64, false)
  | .b128 => (128, false)
  | .f32 => (32, false) | .f16 => (16, false) | .bf16 => (16, false) | .e4m3 => (8, false)
  | .e5m2 => (8, false) | .f16x2 => (16, false) | .bf16x2 => (16, false)

/-- The highest value of an integer format. -/
def intMax (w : Nat) (sg : Bool) : Int := if sg then (2 ^ (w - 1) : Nat) - 1 else (2 ^ w : Nat) - 1

/-- The lowest value of an integer format. -/
def intMin (w : Nat) (sg : Bool) : Int := if sg then -((2 ^ (w - 1) : Nat) : Int) else 0

/-- `sat` of 04 R86 for an integer format. -/
def satInt (w : Nat) (sg : Bool) (x : Int) : Int := max (intMin w sg) (min x (intMax w sg))

/-- The value of a w-bit code. -/
def intVal (w : Nat) (sg : Bool) (c : Nat) : Int := if sg then signed w c else ((c % 2 ^ w : Nat) : Int)

/-- The w-bit code of an exact integer, saturated or wrapped (05 R105). -/
def intCode (w : Nat) (sg sat : Bool) (x : Int) : Nat := wrap w (if sat then satInt w sg x else x)

/-! ### Conversions (04 R88, R89) -/

/-- Whether a type is a floating-point one. -/
def isFloat : Ty → Bool
  | .f32 | .f16 | .bf16 | .e4m3 | .e5m2 | .f16x2 | .bf16x2 => true
  | .s32 | .n32 | .s16 | .n16 | .s8 | .n8 | .s4 | .n4 | .s64 | .n64
  | .b8 | .b16 | .b32 | .b64 | .b128 | .n8x4 | .s8x4 | .n4x8 => false

/-- A NaN carried from one format to another (04 R88). -/
def convNan (a b : Fmt) (c : Nat) : Nat :=
  let neg := a.neg c
  if !b.inf then b.signed neg b.top
  else
    let fr := if a.inf then a.mag c % 2 ^ a.mw else 2 ^ a.mw - 1
    let m :=
      if a.mw < b.mw then fr * 2 ^ (b.mw - a.mw)
      else
        let x := fr / 2 ^ (a.mw - b.mw)
        if x = 0 then 2 ^ (b.mw - 1) else x
    b.signed neg (b.top + m)

/-- Float to float (04 R89). -/
def convFF (a b : Fmt) (mode : Rnd) (sat : Bool) (r c : Nat) : Nat :=
  if a.isNan c then convNan a b c else roundF b mode sat r (a.value c)

/-- Float to integer (04 R89): always saturates, and a NaN gives 0. -/
def convFI (a : Fmt) (w : Nat) (sg : Bool) (mode : Rnd) (r c : Nat) : Nat :=
  match a.value c with
  | .nan => 0
  | .inf s => wrap w (if s then intMin w sg else intMax w sg)
  | .fin s n d => intCode w sg true (roundInt mode r s n d)

/-- The width of a type's code. -/
def tyWidth (t : Ty) : Nat := (intTy t).1

/-- A conversion between FP32 and a type (05 R128), from FP32. -/
def convTo (t : Ty) (mode : Rnd) (sat : Bool) (r c : Nat) : Nat :=
  if isFloat t then convFF fmt32 (fmtOf t) mode sat r c
  else
    let (w, sg) := intTy t
    let x := convFI fmt32 w sg mode r c
    -- a narrow signed integer is written with sign copies above it (04 R81)
    if w < 32 then sext w (if sg then 32 else w) x % 2 ^ 32 else x

/-- A conversion of a type to FP32 (05 R128). -/
def convFrom (t : Ty) (mode : Rnd) (sat : Bool) (r c : Nat) : Nat :=
  let (w, sg) := intTy t
  if isFloat t then convFF (fmtOf t) fmt32 mode sat r (c % 2 ^ w)
  else roundF fmt32 mode sat r (xrInt (intVal w sg c))

/-! ### Mixing and stochastic rounding -/

/-- `mix` of 16 R347. -/
def mix (x : Nat) : Nat :=
  let x := x % 2 ^ 64
  let x := x ^^^ (x >>> 31)
  let x := x * 0xA3B195E26C0F4D97 % 2 ^ 64
  let x := x ^^^ (x >>> 29)
  let x := x * 0xC1D386A75E2BF10D % 2 ^ 64
  x ^^^ (x >>> 32)

/-- The state that stands for zero (04 R91). -/
def nonzeroState (x : Nat) : Word := if x % 2 ^ 32 = 0 then 0x6D2B79F5 else toWord x

/-- A step of the generator (04 R91). -/
def srStep (s : Word) : Word :=
  let x := s.toNat
  let x := x ^^^ (x * 2 ^ 13 % 2 ^ 32)
  let x := x ^^^ (x >>> 17)
  let x := x ^^^ (x * 2 ^ 5 % 2 ^ 32)
  nonzeroState x

/-- The random word of a lane in a pass (04 R92). -/
def srLane (s : Word) (j : Nat) : Nat := rotlN 32 s.toNat (7 * (j % 32) % 32)

/-- The states of the passes of an instruction (04 R92): the state is stepped before each executed pass, one for each nonzero word of the effective mask, or one for a scalar destination. Answers the state of each word and the last state. -/
def srPasses (s : Word) (eff : Mask) (scalar : Bool) : List Word × Word :=
  if scalar then let x := srStep s; ([x], x)
  else
    (List.range 4).foldl (fun (acc : List Word × Word) w =>
      if eff.toNat / 2 ^ (32 * w) % 2 ^ 32 = 0 then (acc.1 ++ [acc.2], acc.2)
      else let x := srStep acc.2; (acc.1 ++ [x], x)) ([], s)

/-- The seed of a group's generator (04 R93). -/
def srSeed (workid seed : Nat) : Word :=
  let h := mix (seed ^^^ mix workid)
  nonzeroState (h % 2 ^ 32 ^^^ h / 2 ^ 32)

end Sys2Proof.Machine
end

