-- ==== Sys2Proof/Machine/AtomicAlu.lean ====
section
/-! DEFINITION. Selection between floating-point operands (05 R122) and what one atomic or reduction computes on its element (10 R261, 09 R237). -/

namespace Sys2Proof.Machine
open Sys2Proof

/-! ### Minimum and maximum of 05 R122 -/

/-- The order of two non-NaN codes with −0 below +0. -/
def codeLess (f : Fmt) (a b : Nat) : Bool :=
  let x := f.value a
  let y := f.value b
  if XR.eq x y then f.neg a && !f.neg b else XR.lt x y

/-- fmin (`mx` false) and fmax. -/
def fminmax (f : Fmt) (mx : Bool) (a b : Nat) : Nat :=
  let a := a % (2 * f.signBit)
  let b := b % (2 * f.signBit)
  if f.isNan a then (if f.isNan b then f.qnan else b)
  else if f.isNan b then a
  else if codeLess f a b != mx then a
  else b

/-- fminm and fmaxm: the operand of smaller or larger magnitude. -/
def fminmaxMag (f : Fmt) (mx : Bool) (a b : Nat) : Nat :=
  let a := a % (2 * f.signBit)
  let b := b % (2 * f.signBit)
  if f.isNan a || f.isNan b then fminmax f mx a b
  else if f.mag a = f.mag b then fminmax f mx a b
  else if codeLess f (f.mag a) (f.mag b) != mx then a
  else b

/-! ### Elements of packed words -/

/-- An operation applied to each of n elements of width w of one word (04 R81). -/
def mapElems (w : Nat) : Nat → (Nat → Nat → Nat) → Nat → Nat → Nat
  | 0, _, _, _ => 0
  | n + 1, op, a, b =>
    op (a % 2 ^ w) (b % 2 ^ w) % 2 ^ w + 2 ^ w * mapElems w n op (a / 2 ^ w) (b / 2 ^ w)

/-! ### Atomics -/

/-- The format of a floating atomic's element by its variant code (10 R261). -/
def aopFmt (lo : Nat) : Fmt := match lo with | 0 => fmt32 | 1 => fmt16 | _ => fmtB16

/-- One floating atomic on one 32-bit word (10 R261): add rounds once per element, min and max are fmin and fmax. -/
def atomFloat (aop old v : Nat) : Nat :=
  let f := aopFmt (aop % 8)
  let one := fun a b =>
    match aop / 8 with
    | 0 => roundRne f ((f.value a).add false (f.value b))
    | 1 => fminmax f false a b
    | _ => fminmax f true a b
  if aop % 8 = 0 then one old v else mapElems 16 2 one old v

/-- One integer atomic on a value of w bits (10 R261). -/
def atomInt (w aop old v : Nat) : Nat :=
  let sg := bitAt aop 2
  match aop / 8 with
  | 0 => (old + v) % 2 ^ w
  | 1 => if intVal w sg v < intVal w sg old then v else old
  | 2 => if intVal w sg old < intVal w sg v then v else old
  | 3 => old &&& v
  | 4 => old ||| v
  | 5 => old ^^^ v
  | 6 => v
  | _ => if v ≤ old then 0 else old + 1

/-- The new value of a target under an atomic: class 0 atom and red, 1 cas, 3 atomf and redf, 4 atomw; `arg` is the data operand, low part first. -/
def atomNew (cls aop bytes old arg : Nat) : Nat :=
  let w := 8 * bytes
  let lo := arg % 2 ^ w
  let hi := arg / 2 ^ w % 2 ^ w
  match cls with
  | 0 => atomInt w aop old lo
  | 1 => if old = lo then hi else old
  | 3 => atomFloat aop old lo
  | _ => if aop / 8 = 0 then lo else if old = lo then hi else old

/-- What the contributions of one update-only copy make of an element when its round closes (09 R237): a floating copy is the exact sum of its contributions, added and rounded once; other operations apply in order. -/
def combine (float : Bool) (aop bytes old : Nat) (vals : List Nat) : Nat :=
  if float && aop / 8 == 0 then
    let f := aopFmt (aop % 8)
    let one := fun (sel : Nat → Nat) (o : Nat) =>
      match vals with
      | [] => o
      | v :: vs =>
        let sum := vs.foldl (fun acc x => XR.add false acc (f.value (sel x))) (f.value (sel v))
        roundRne f ((f.value o).add false sum)
    if aop % 8 = 0 then one id old
    else one (· % 2 ^ 16) (old % 2 ^ 16) + 2 ^ 16 * one (· / 2 ^ 16) (old / 2 ^ 16)
  else vals.foldl (fun o v => if float then atomFloat aop o v else atomInt (8 * bytes) aop o v) old

end Sys2Proof.Machine
end

