-- ==== Sys2Proof/Config.lean ====
section
/-! DEFINITION. What the machine's implementation fixes, and the free values: constants without a body, of which nothing can be proved but what holds for every value. -/

namespace Sys2Proof.Config

/-- An undefined 32-bit value: the values a register or a core-store word holds at a start the manual calls undefined (06 R143, 07 R200). The first argument is fresh for each start, the others name the place. Free value, log 4. -/
opaque freeWord : Nat → Nat → Nat → Word

/-- An undefined byte: what stands at and after the fault of a job or write-back, in the row of an out-of-range gcopy index, in the range of a faulting bload (10 R272, R280, 06 R173). Free value, log 4. -/
opaque freeByte : Nat → Nat → Byte

/-- The nanoseconds by which the device timebase is ahead of the last microsecond tick when it is read (16 R360). Free value, log 5. -/
opaque freeNs : Nat → Nat

/-- AES-256-GCM of 21 R424: key, 96-bit IV, additional data and plaintext to ciphertext and tag. Its value is fixed by another specification, log 7. -/
opaque aesGcm : BitVec 256 → Nat → List Byte → List Byte → List Byte

/-- The ECDSA P-384 signature over a SHA-384 digest that closes the Kilsy record (16 R357): 96 bytes as a number. Its value is fixed by another specification, log 7. -/
opaque kilsySignature : List Byte → Nat

/-- Whether a configuration block's signature verifies under Dalob's configuration key (22 R429). Fixed by another specification, log 7. -/
opaque configVerifies : BitVec 1280 → Bool

/-- The checksum of the calibration data in flash (22 R429). The manual names no algorithm, log 7. -/
opaque calibrationSum : Nat → Nat

/-- The dies of a package (01 R9). -/
def dies : Nat := 4

/-- The cores of a package (01 R9): 4 dies of 20 clusters of 4 cores. -/
def cores : Nat := 320

/-- The clusters of a package (13 R291). -/
def clusters : Nat := 80

/-- The entries of a core's store buffer (09 R227). -/
def storeBufferLines : Nat := 256

/-- The entries of a group's on-chip split table (07 R187). -/
def splitEntries : Nat := 16

end Sys2Proof.Config
end

