-- ==== Sys2Proof/Machine/Table.lean ====
section
/-! DEFINITION. Sparse data by key: lists of key and value pairs in one canonical form (keys strictly rising), and the byte memory built on them. -/

namespace Sys2Proof.Machine

/-- The value at a key. -/
def assocGet {α : Type} : List (Nat × α) → Nat → Option α
  | [], _ => none
  | (k, v) :: r, a => if a = k then some v else assocGet r a

/-- The list with a value put at a key, keys kept rising. -/
def assocPut {α : Type} : List (Nat × α) → Nat → α → List (Nat × α)
  | [], key, new => [(key, new)]
  | row :: rest, key, new =>
    if row.1 < key then row :: assocPut rest key new
    else (key, new) :: (if key < row.1 then row :: rest else rest)

/-- The list with a key removed. -/
def assocDel {α : Type} : List (Nat × α) → Nat → List (Nat × α)
  | [], _ => []
  | row :: rest, key => if key = row.1 then rest else row :: assocDel rest key

/-- Keys strictly rising, all at or above a bound. -/
def assocFrom {α : Type} : Nat → List (Nat × α) → Bool
  | _, [] => true
  | b, (k, _) :: r => decide (b ≤ k) && assocFrom (k + 1) r

/-- A table: values by key, in canonical form. -/
structure Table (α : Type) where
  rows : List (Nat × α)
  deriving DecidableEq, Repr

/-- The empty table. -/
def Table.empty {α : Type} : Table α := ⟨[]⟩

/-- The value at a key. -/
def Table.get {α : Type} (t : Table α) (k : Nat) : Option α := assocGet t.rows k

/-- The value at a key, or a default. -/
def Table.getD {α : Type} (t : Table α) (k : Nat) (d : α) : α := (assocGet t.rows k).getD d

/-- The table with a value put at a key. -/
def Table.put {α : Type} (t : Table α) (k : Nat) (v : α) : Table α := ⟨assocPut t.rows k v⟩

/-- The table with a key removed. -/
def Table.del {α : Type} (t : Table α) (k : Nat) : Table α := ⟨assocDel t.rows k⟩

/-- The table with the value at a key changed, where there is one. -/
def Table.upd {α : Type} (t : Table α) (k : Nat) (f : α → α) : Table α :=
  match assocGet t.rows k with
  | none => t
  | some v => ⟨assocPut t.rows k (f v)⟩

/-- The table with every value changed. -/
def Table.map {α : Type} (t : Table α) (f : Nat → α → α) : Table α :=
  ⟨t.rows.map fun r => (r.1, f r.1 r.2)⟩

/-- The table with the rows that satisfy a test. -/
def Table.filter {α : Type} (t : Table α) (f : Nat → α → Bool) : Table α :=
  ⟨t.rows.filter fun r => f r.1 r.2⟩

/-- The keys, rising. -/
def Table.keys {α : Type} (t : Table α) : List Nat := t.rows.map (·.1)

/-- The canonical form of a table. -/
def Table.wf {α : Type} (t : Table α) : Bool := assocFrom 0 t.rows

/-! ### Byte memory -/

/-- Physical memory: bytes by physical address (01 R21). -/
abbrev Memory := List (Nat × BitVec 8)

/-- What a byte that nothing has written reads as. Device DRAM is zeroed by every start (22 R430 step 4); host memory and the memory of peers read zero too (DESIGN CHOICE, log 1). -/
def Memory.default : BitVec 8 := 0

/-- The byte at a physical address. -/
def Memory.read (m : Memory) (a : Nat) : BitVec 8 := (assocGet m a).getD Memory.default

/-- The memory with one byte written, canonical form kept. -/
def Memory.write (m : Memory) (a : Nat) (b : BitVec 8) : Memory :=
  if b = Memory.default then assocDel m a else assocPut m a b

/-- Bytes from an address upward, lowest first. -/
def Memory.readN (m : Memory) (a : Nat) : Nat → List (BitVec 8)
  | 0 => []
  | n + 1 => Memory.read m a :: Memory.readN m (a + 1) n

/-- Bytes written from an address upward. -/
def Memory.writeN (m : Memory) (a : Nat) : List (BitVec 8) → Memory
  | [] => m
  | b :: bs => Memory.writeN (Memory.write m a b) (a + 1) bs

/-- The canonical form of memory: addresses strictly rising, and no entry equal to what an unlisted address reads as. -/
def Memory.wf (m : Memory) : Bool :=
  assocFrom 0 m && m.all fun c => decide (c.2 ≠ Memory.default)

end Sys2Proof.Machine
end

