-- ==== Sys2Proof/Machine/State.lean ====
section
/-! DEFINITION. The state of the machine, all of it plain data, the state after reset, and the reasons a step can stop. Every record cites the rules that name its parts; INVENTORY.md lists them with their reset values. -/

namespace Sys2Proof.Machine
open Sys2Proof

/-! ### Issue streams: fragments and groups -/

/-- Where a fragment stands in its block: at a word, at a header it has been transferred to but has not entered (02 R30), or waiting at its reconvergence header (07 R189). -/
inductive FragPhase where
  | run
  | arrive
  | reconv
  deriving DecidableEq, Repr

/-- The in-handler mark of 07 R194 with the entry it was set by. -/
inductive Handler where
  | none
  | fault
  | view
  | preempt
  | resume
  deriving DecidableEq, Repr

/-- What a waiting instruction of a fragment waits on, or the outcome that has reached it. -/
inductive Pend where
  | none
  | round (n : Nat)
  /-- a publish made by an instruction that does more: its round, and the operands read before it (08 R221, 14 R322) -/
  | handed (n : Nat) (data : List Nat)
  /-- a publish made, and the queue full (08 R221) -/
  | published (data : List Nat)
  /-- nothing: the wait for a publish in round n has ended without effect (07 R177), and the instruction, issued again, waits for that round too (14 R322) -/
  | left (n : Nat)
  | sleep
  | deq (ticket : Nat)
  | svc (seq : Nat)
  | gate (op : Nat)
  /-- an answer to cjoin, with the operand digest of the instruction -/
  | join (group digest : Nat)
  | bar (phase : Nat)
  /-- the outcome of an operation that was sent away, by the opcode of its instruction -/
  | done (op : Nat) (data : List Nat)
  | denied (gate : Nat)
  deriving DecidableEq, Repr

/-- What a fragment knows of the block it runs in, from the block's header (02 R32): the header's address, the length, the live marks, and the reconvergence offset in words (0: none). -/
structure BlockInfo where
  hdr : Addr
  len : Nat
  vmark : Nat
  smark : Nat
  recOff : Int
  deriving DecidableEq, Repr

/-- A block of code not yet entered. -/
def noBlock : BlockInfo := { hdr := 0, len := 0, vmark := 0, smark := 0, recOff := 0 }

/-- One entry of the split table (07 R187): a fragment. -/
structure Frag where
  mask : Mask
  pc : Addr
  rnd : Word
  cause : Word
  tpc : Addr
  tinfo : BitVec 64
  handler : Handler
  /-- the block it runs in; and, in a handler, the block of the word `tpc` names, with where the fragment stood in it -/
  blk : BlockInfo
  tblk : BlockInfo
  tphase : FragPhase
  /-- reconvergence header it fuses at, and its sibling set -/
  reconv : Option Addr
  sib : Option Nat
  phase : FragPhase
  pend : Pend
  /-- issue state of 07 R193 -/
  stall : Nat
  onChip : Bool
  /-- order of its last issue; the least is the least recently issued -/
  stamp : Nat
  /-- the order from which it counts as ready (07 R191): that of its last issue, or of a yield -/
  ready : Nat := 0
  /-- the next instruction matches no breakpoint (21 R415) -/
  free : Bool
  /-- instructions and traps behind it in its part, by which the log places a trap (16 R345) -/
  count : Nat
  deriving DecidableEq, Repr

/-- A sibling set (07 R188): what the fragment that split had held. -/
structure SibSet where
  reconv : Option Addr
  sib : Option Nat
  deriving DecidableEq, Repr

/-- A register write: masked lanes of a vector register, a scalar register, or masked bits of a mask register. -/
inductive RegWrite where
  | vec (i : Nat) (m : Mask) (v : Lanes)
  | sca (i : Nat) (v : Word)
  | msk (i : Nat) (m v : Mask)
  deriving DecidableEq, Repr

/-- An operation in flight of a counted class (10 R248): 0 load, 1 store, 2 copy, 3 tile, 4 atomic. -/
structure Flight where
  id : Nat
  cls : Nat
  /-- its number among the operations of its class since the start -/
  ord : Nat
  done : Bool
  /-- the instruction, and the block it stood in -/
  pc : Addr
  blk : BlockInfo := noBlock
  mask : Mask
  writes : List RegWrite
  /-- a fault taken at completion: a poisoned line, or a peer without route -/
  bad : Option (Code × BitVec 64)
  /-- address of its first access through a peer aperture (17 R373) -/
  peer : Option Nat
  /-- the addresses it was translated at (13 R308) -/
  vas : List Nat := []
  deriving DecidableEq, Repr

/-- A delivered fault that waits for its delivery point (10 R280, R265), with the instruction it names and that one's block. `cls` and `ord` name the operation that carries it; `bar` the barrier of a BARRIER_OVERRUN. -/
structure Delivered where
  seq : Nat
  cls : Nat
  ord : Nat
  bar : Option Nat
  code : Code
  pc : Addr
  blk : BlockInfo := noBlock
  info : BitVec 64
  deriving DecidableEq, Repr

/-- A trap that reaches a group from outside an instruction and is taken at a boundary by the fragment with the lowest live lane of `mask`: a POISON of completion, with the reading instruction and its block (10 R252), or a VIEW_CHANGE, which names the word it meets (19 R402). -/
structure LatePoison where
  mask : Mask
  code : Code
  pc : Addr
  blk : BlockInfo := noBlock
  info : BitVec 64
  deriving DecidableEq, Repr

/-- The kinds of replay log entries (16 R345). -/
inductive LogKind where
  | snap | pub | fill | unmerged | result | storeOrder | peer | xfetch | xstat | clk | digest | coreRead
  | sysrd | svc | view | coll | trap
  deriving DecidableEq, Repr

/-- One entry of the replay log (16 R345): its kind, the opcode, the values, the operand digest of 16 R349. -/
structure LogEntry where
  kind : LogKind
  op : Nat
  data : List Nat
  digest : Nat
  deriving DecidableEq, Repr

/-- A window record (10 R256) with the lines filled and dirty. -/
structure Window where
  off : Nat
  len : Nat
  mode : Nat
  mapped : Bool
  base : Nat
  filled : List Nat
  dirty : List Nat
  deriving DecidableEq, Repr

/-- The four accumulators of a run of a segment (16 R348). -/
structure Sums where
  store : BitVec 64
  stores : BitVec 64
  reg : BitVec 64
  regs : BitVec 64
  deriving DecidableEq, Repr

/-- A private layer (16 R339): the check of its block, or of its tile set, the run, and the block's index. -/
structure Layer where
  check : Nat
  run : Nat
  index : Nat
  deriving DecidableEq, Repr

/-- Who wrote or reads a line: a group; the jobs of a partition, of a run with a private layer or of none (09 R240, 16 R339); or a block, by its windows' write-backs and refills (09 R234). -/
inductive Party where
  | group (uid : Nat)
  | jobs (part : Nat) (layer : Option Layer)
  | block (bid : Nat)
  deriving DecidableEq, Repr

/-- A party's own write above its snapshot: a group's published stores (09 R228 item 2), the writes of earlier jobs (09 R240), a block's published window lines (09 R234). `order` places a group's or a block's among the stores handed to rounds, and names the job of a job's. -/
structure OwnPut where
  party : Party
  round : Nat
  order : Nat
  line : Nat
  mask : Mask
  data : Line
  deriving DecidableEq, Repr

/-- A group's restart point (08 R219). -/
structure RestartPt where
  ks : List Word
  rnd : Word
  mask : Mask
  pc : Addr
  blk : BlockInfo
  mark : Nat
  windows : Table Window
  snap : Nat
  /-- what of the group, its block and its jobs has been published above `snap`, for the runs of a checked block that start here (09 R228 item 2) -/
  own : List OwnPut := []
  /-- in a tile set, which rmark does not divide (16 R337): the log entries of the part before it, the operations issued in the part by class, the instructions and traps behind the fragment, the accumulators, and the stores handed until then -/
  cut : Nat := 0
  ords : List Nat := [0, 0, 0, 0, 0]
  count : Nat := 0
  sums : Option Sums := none
  order : Nat := 0
  deriving DecidableEq, Repr

/-- What hardware captures of a group at pre-emption (07 R197 step 3), beside what stays in the record: its fragments, k0 to k31, m1 to m15. -/
structure Saved where
  frags : Table Frag
  ks : List Word
  ms : List Mask
  /-- the operations still under way, collectives, which count no more until the resume handler has returned (07 R197 step 2, 19 R406), and the faults that wait for their delivery (17 R364) -/
  flights : List Flight := []
  delivered : List Delivered := []
  deriving DecidableEq, Repr

/-- Where a group stands: issuing; its lanes all exited, with its publish still to be made, or made and awaited (08 R210); ended. -/
inductive GroupLife where
  | live
  | leaving
  | publishing (round : Nat)
  | ended
  deriving DecidableEq, Repr

/-- A group (01 R12, R13), or a tile sequencer (`seq`, 06 R141), which is an issue stream of one lane. -/
structure Group where
  block : Nat
  idx : Nat
  seq : Bool
  life : GroupLife
  core : Nat
  quarter : Nat
  vregs : Table Lanes
  sregs : Table Word
  masks : Table Mask
  /-- seed of the undefined values of registers not written since the start (log 4) -/
  undef : Option Nat
  /-- poisoned words of vector registers by lane, and of scalar registers (17 R369) -/
  vpoison : Table Mask
  spoison : List Nat
  exited : Mask
  frags : Table Frag
  sibs : Table SibSet
  nextFrag : Nat
  /-- snapshot number S and import mark (09 R225) -/
  snap : Nat
  mark : Nat
  flights : List Flight
  /-- operations issued since the start, by class (10 R250) -/
  issued : List Nat
  delivered : List Delivered
  late : List LatePoison
  /-- a POISON found at the next publish (17 R369) -/
  pubPoison : Option (BitVec 64)
  restart : Option RestartPt
  log : List LogEntry
  /-- entries still to be consumed in order, and those found by their operation's number in the part or by address -/
  replay : List LogEntry
  keyed : List LogEntry
  /-- operations issued before the part began, by class -/
  base : List Nat
  /-- entry states logged at saving rmarks, for the runs of a checked block (16 R337) -/
  entry : Option RestartPt
  marks : Nat
  /-- collective policy and trap bit (19 R401) -/
  policy : Nat
  trapBit : Bool
  doneMark : Bool
  /-- captured at pre-emption, the latest first: a second entry where a resume handler was itself pre-empted -/
  saved : List Saved
  deriving DecidableEq, Repr

/-! ### Launches, blocks, tile sets -/

/-- A prerequisite record (07 R181). -/
structure Prereq where
  kind : Nat
  ident : Nat
  barrier : Nat
  value : Nat
  held : Bool
  deriving DecidableEq, Repr

/-- A launch header as read at submission (07 R178). -/
structure Header where
  entry : Addr
  tile : Addr
  handler : Addr
  resume : Addr
  widths : List Nat
  extents : List Nat
  groups : Nat
  vregs : Nat
  barriers : Nat
  persistent : Bool
  priority : Nat
  vdev : Nat
  level : Nat
  early : Bool
  distance : Nat
  store : Nat
  spill : Nat
  seed : Word
  patience : Nat
  budget : Nat
  bindings : List Nat
  ctxBase : Addr
  ctxBytes : Nat
  prereqs : List Prereq
  deriving DecidableEq, Repr

/-- A launch (07 R177 to R184). -/
structure Launch where
  hdr : Header
  part : Nat
  ident : Nat
  /-- host privilege of its context (02 R54 step 8) -/
  host : Bool
  /-- packet queue, tag and completion request of its packet (10 R277) -/
  queue : Nat
  tag : Nat
  wants : Bool
  slot : Nat
  order : Nat
  nextBlock : Nat
  /-- import mark of a gate prerequisite (14 R323) -/
  mark : Nat
  ended : Option (Nat × Nat)
  recorded : Bool
  deriving DecidableEq, Repr

/-- A word of a core store with its full/empty bit and poison (01 R17, 17 R369). -/
structure StoreWord where
  val : Word
  full : Bool
  poison : Bool
  deriving DecidableEq, Repr

/-- A transaction barrier (10 R264). -/
structure Barrier where
  p : Word
  eb : Nat
  ea : Nat
  cb : Nat
  ca : Nat
  init : Bool
  poisoned : Bool
  deriving DecidableEq, Repr

/-- A pending write-back line (09 R234). -/
structure WbLine where
  group : Nat
  pc : Addr
  blk : BlockInfo := noBlock
  seq : Nat
  ord : Nat
  va : Nat
  data : Line
  poison : Bool
  deriving DecidableEq, Repr

/-- Where a block stands (07 R184, R197, R199). -/
inductive BlockLife where
  | resident
  | quiesced        -- steps 1 to 3 of R197 taken, handler running
  | saved           -- off its cores after pre-emption
  | waitPage        -- aborted for a page
  | queued          -- to be restarted
  | closing (round : Nat)   -- its window write-back awaited (08 R210)
  | ended
  deriving DecidableEq, Repr

/-- A hold of a block (21 R413): its cause and the code of brk. -/
structure Hold where
  cause : Nat
  bp : Nat
  code : Nat
  /-- group whose single step is under way (21 R415) -/
  step : Option Nat
  deriving DecidableEq, Repr

/-- What hardware captures of a block at the entry of its pre-emption handlers (07 R197 step 3): barrier states and window descriptors. -/
structure Captured where
  bars : Table Barrier
  windows : Table Window
  deriving DecidableEq, Repr

/-- A cooperative block (01 R14). -/
structure Block where
  launch : Nat
  index : Nat
  workid : Nat
  /-- 0 unchecked, 1 primary, 2 shadow, 3 keeping (21 R411); 4 in place of a primary (16 R356) -/
  run : Nat
  check : Option Nat
  seg : Nat
  life : BlockLife
  /-- trigger of a pre-emption that has been ordered and whose state is not captured yet (07 R197 steps 1 and 2) -/
  quiesce : Option Nat
  /-- physical cores of its shares; logical cluster and cores as admitted (01 R26) -/
  cores : List Nat
  lcluster : Nat
  lcores : List Nat
  groups : List Nat
  set : Option Nat
  store : Table StoreWord
  undef : Option Nat
  windows : Table Window
  bars : Table Barrier
  captured : Option Captured
  /-- atomics and reductions performed on each word, for the log's order (10 R263) -/
  atoms : Table Nat
  pending : List WbLine
  hold : Option Hold
  /-- a stop that met the block's pre-emption and holds it when it resumes (21 R417) -/
  holdAtResume : Option Hold
  declined : List Nat
  /-- page requests it was aborted for -/
  pages : List Nat
  trigger : Nat
  order : Nat
  /-- restarted after its primary lost a segment, so that the operations it replays are compared (16 R352) -/
  lost : Bool
  /-- a pending write-back line found uncorrectable, for the group that is to publish it (17 R369) -/
  pubPoison : Option (BitVec 64) := none
  deriving DecidableEq, Repr

/-- A result chunk of 512 bytes (06 R161): one vector register. -/
abbrev Chunk := Lanes

/-- An accumulator tile (06 R155, R157): codes by 32 × row + column, kind (true: int48), the fallback status bit, and the seed of the undefined contents that a poisoned read leaves (06 R173, log 4). -/
structure Tile where
  acc : Table (BitVec 48)
  int : Bool
  fallback : Bool
  undef : Option Nat
  deriving DecidableEq, Repr

/-- A matrix engine of a tile set (06 R142): its block, tiles, activation table and result queue. -/
structure Engine where
  block : Nat
  tiles : Table Tile
  act : Table Word
  results : List Chunk
  deriving DecidableEq, Repr

/-- The unfolding configuration that unf captures (06 R149). -/
structure Unfold where
  desc : List Word
  win : Nat
  windows : List Window
  deriving DecidableEq, Repr

/-- A tile instruction in the command queue with its operand values (06 R169). -/
structure TileCmd where
  op : Nat
  func : Nat
  vals : List Nat
  windows : List Window
  pairing : Option (Nat × Nat × Nat)
  unfold : Option Unfold
  ord : Nat
  pc : Addr
  flight : Nat
  deriving DecidableEq, Repr

/-- A tile set (06 R141, R144). -/
structure TileSet where
  launch : Nat
  blocks : List Nat
  seqr : Nat
  cluster : Nat
  lcluster : Nat
  pairing : Option (Nat × Nat × Nat)
  unfold : Option Unfold
  /-- kind of each tile as issued (06 R157) -/
  kinds : List Bool
  engines : List Engine
  buffer : Table Byte
  /-- 64-byte units of the buffer written from a fallback -/
  fellback : List Nat
  queue : List TileCmd
  /-- the accumulation steps that the first mma of the queue has completed (06 R174) -/
  steps : Nat := 0
  drains : Nat
  marks : List Nat
  toSeq : List Word
  toGrp : List Word
  seqEnded : Bool
  ended : Bool
  /-- set back to its start, to be formed anew (16 R356) -/
  again : Bool := false
  deriving DecidableEq, Repr

/-! ### Jobs, rounds and versions -/

/-- The kinds of engine jobs (09 R240, 10 R277, 19 R388). -/
inductive JobKind where
  | copy | gcopy | bload | xfetch | coll | hostCopy
  deriving DecidableEq, Repr

/-- Where a job stands (09 R240). -/
inductive JobLife where
  | queued
  | taken
  | performed (round : Nat)
  | done
  deriving DecidableEq, Repr

/-- A byte range of a footprint: virtual memory of the partition, or a block's store. -/
structure Range where
  space : Nat
  lo : Nat
  len : Nat
  deriving DecidableEq, Repr

/-- A job card with its footprint and captured windows (09 R240, 10 R269 to R273). -/
structure Job where
  kind : JobKind
  part : Nat
  group : Nat
  block : Nat
  vals : List Nat
  snap : Nat
  mark : Nat
  src : Option Window
  dst : Option Window
  bar : Option Nat
  reads : List Range
  writes : List Range
  flight : Nat
  pc : Addr
  blk : BlockInfo := noBlock
  life : JobLife
  /-- the stores handed to rounds before it was issued -/
  order : Nat := 0
  /-- the public jobs that are earlier than it (09 R240): those of lower number; for a repeat run's, than its primary's -/
  seen : Nat := 0
  /-- it waits for a place in a slice (13 R295) -/
  stuck : Bool := false
  fault : Option (Code × BitVec 64)
  written : Nat
  /-- collective operation number, captured policy and trap bit, or the fallback decision of xfetch -/
  aux : List Nat
  deriving DecidableEq, Repr

/-- A store-buffer entry or spilled line of a group (09 R227). -/
structure BufLine where
  group : Nat
  line : Nat
  mask : Mask
  data : Line
  poison : Bool
  spilled : Bool
  share : BitVec 16
  vdev : Nat
  order : Nat
  deriving DecidableEq, Repr

/-- A contribution of a reduction to one element of an update-only copy (09 R237): physical address, operation code, size and operands in order. -/
structure Update where
  group : Nat
  addr : Nat
  float : Bool
  aop : Nat
  bytes : Nat
  vals : List Nat
  share : BitVec 16
  vdev : Nat
  poison : Bool
  deriving DecidableEq, Repr

/-- A line of stores handed to an open round (09 R230); of a private layer, one kept at the round it took (16 R339). -/
structure Handed where
  part : Nat
  round : Nat
  /-- private layer and segment (16 R339) -/
  layer : Option Layer
  seg : Nat
  group : Nat
  ident : Nat
  order : Nat
  line : Nat
  mask : Mask
  data : Line
  poison : Bool
  share : BitVec 16
  vdev : Nat
  /-- fired (16 R342) -/
  fired : Bool := false
  deriving DecidableEq, Repr

/-- An update-only copy handed to an open round. -/
structure HandedUpd where
  part : Nat
  ident : Nat
  order : Nat
  upd : Update
  deriving DecidableEq, Repr

/-- A numbered version of a line (09 R225, R230, R243): its partition (none: the value before any round), round, close order, data, poison, sharing and the gate stamps it has received, by partition. -/
structure Version where
  line : Nat
  part : Option Nat
  round : Nat
  seq : Nat
  data : Line
  poison : Bool
  share : BitVec 16
  stamps : Table Nat
  vdev : Nat
  deriving DecidableEq, Repr

/-- An error entry as a die keeps it (17 R374): its bytes, and the virtual address it names in a partition's own view, 0 where it arose from no access of the partition. -/
structure ErrRec where
  bytes : List Byte
  va : Nat
  deriving DecidableEq, Repr

/-- An inbound line held in a bounce buffer (13 R311); and, of a run with a private layer, the write it is in that layer once its page is there (16 R339, R342). -/
structure BounceLine where
  die : Nat
  part : Nat
  vdev : Nat
  va : Nat
  mask : Mask
  data : Line
  poison : Bool
  priv : Option Handed
  /-- it counts among the bounce lines of 13 R296: it came after the counter was last cleared -/
  counted : Bool := true
  deriving DecidableEq, Repr

/-- A cached translation (13 R308): context tag, page address, page shift, frame and rights (read, write, execute). -/
structure TlbEntry where
  part : Nat
  vdev : Nat
  page : Nat
  shift : Nat
  frame : Nat
  r : Bool
  w : Bool
  x : Bool
  deriving DecidableEq, Repr

/-- The kinds of line a slice holds (13 R294): a line with its numbered versions, a line of private layers, a spilled store-buffer line, an update-only copy. -/
inductive L2Kind where
  | cached | priv | spill | copy
  deriving DecidableEq, Repr

/-- A line held in an L2 slice (13 R294, R295): set within the slice, way, line, the virtual device it was filled for, and its kind. -/
structure L2Line where
  set : Nat
  way : Nat
  line : Nat
  part : Nat
  vdev : Nat
  kind : L2Kind
  deriving DecidableEq, Repr

/-- A page of code that a launch has fetched from (02 R31): read-only until the launch's record is written. `seq` is the newest version there was at the first fetch, by which every later fetch reads the words as they stood then. -/
structure CodePage where
  launch : Nat
  frame : Nat
  shift : Nat
  seq : Nat
  deriving DecidableEq, Repr

/-! ### Partitions -/

/-- A region attribute entry (13 R305). -/
structure Region where
  valid : Bool
  root : Nat
  share : BitVec 16
  peer : Nat
  span : Nat
  kind : Nat
  stream : Bool
  local_ : Bool
  page : Nat
  deriving DecidableEq, Repr

/-- A range table entry (13 R306). -/
structure RangeEntry where
  valid : Bool
  base : Nat
  limit : Nat
  share : BitVec 16
  peer : Nat
  kind : Nat
  local_ : Bool
  canRead : Bool
  canWrite : Bool
  deriving DecidableEq, Repr

/-- Settings, balance and counters of a virtual device (13 R291, R295 to R300). -/
structure Vdev where
  weight : Nat
  cap : Nat
  boost : Nat
  ways : BitVec 16
  balance : Int
  clamp : Nat
  /-- the timebase when the device was last seen with work (13 R300) -/
  idle : Nat
  regions : Table Region
  /-- region entries written and not yet named by an invalidation (13 R305) -/
  written : Table Region
  sampling : Bool
  mean : Nat
  /-- generators of tagged sampling (21 R418): the seed of the last enabling, and those stepped since, by 4 × core + quarter -/
  seed : Word
  gens : Table Word
  trace : Bool
  channels : BitVec 16
  kinds : BitVec 8
  deriving DecidableEq, Repr

/-- A work queue (07 R182): capacity, items, and the dequeuers in order. -/
structure WorkQueue where
  cap : Nat
  items : List (BitVec 64)
  waiters : List Nat
  deriving DecidableEq, Repr

/-- An entry of the expert table (06 R164). -/
structure Expert where
  valid : Bool
  primary : Addr
  kind : Nat
  len : Nat
  fallback : Addr
  routed : Nat
  fetched : Nat
  fell : Nat
  deriving DecidableEq, Repr

/-- A registered ring (17 R382, 21 R420): descriptor, base, entries, write index, dropped count. -/
structure Ring where
  desc : Nat
  base : Nat
  entries : Nat
  windex : Nat
  dropped : Nat
  deriving DecidableEq, Repr

/-- A page request not yet answered (13 R309). -/
structure PageReq where
  seq : Nat
  va : Nat
  vdev : Nat
  access : Nat
  launch : Nat
  block : Nat
  posted : Bool
  deriving DecidableEq, Repr

/-- A tagged instruction whose record is still to be written (21 R419): the fragment as it stood at the word, with the block it belongs to; the bytes of the record up to its passes; whether the word names a destination; and, once the instruction has retired, whether it faulted and the operations it raised that are still in flight. -/
structure Sample where
  group : Nat
  frag : Nat
  part : Nat
  vdev : Nat
  launch : Nat
  pc : Addr
  count : Nat
  handler : Handler
  /-- operations of its group raised from here on may be its own -/
  from_ : Nat
  mask : Mask
  bytes : List Byte
  hasDest : Bool
  retired : Option (Bool × List Nat)
  deriving DecidableEq, Repr

/-- A service request whose reply is awaited (17 R381). -/
structure SvcReq where
  group : Nat
  frag : Nat
  record : List Byte
  deriving DecidableEq, Repr

/-- A packet queue (10 R275): descriptor address, and the packets taken whose record is not written, oldest first. -/
structure PacketQueue where
  desc : Nat
  open_ : List Nat
  /-- records ready to be written, by packet number (10 R278) -/
  ready : Table (List Byte)
  taken : Nat
  wants : Table Bool
  /-- the launch identifier that the packet at the head has taken, while its header's page is awaited (07 R180) -/
  ident : Option Nat := none
  deriving DecidableEq, Repr

/-- A breakpoint (21 R412). -/
structure Bp where
  addr : Addr
  launch : Nat
  deriving DecidableEq, Repr

/-- A partition (13 R291) and its command front end. -/
structure Part where
  enable : Bool
  base : Nat
  limit : Nat
  colours : BitVec 16
  vdevs : BitVec 8
  lendOn : Bool
  lendTo : Nat
  autoReclaim : Bool
  ranges : Table RangeEntry
  vdev : Table Vdev
  lent : List Nat
  /-- lent clusters under reclaim (13 R304): each is the lender's again once no block of the borrower is on it -/
  reclaim : List Nat
  status : Bool            -- last command accepted (13 R291)
  round : Nat              -- P
  roundOpen : Bool
  nextLaunch : Nat
  queues : Table WorkQueue
  experts : Table Expert
  packets : Table PacketQueue
  pageRing : Option Ring
  pageReqs : Table PageReq
  pageSeq : Nat
  pageCount : Nat
  svcRing : Option Ring
  svcSeq : Nat
  svcs : Table SvcReq
  checkBase : Nat
  checkBytes : Nat
  vbudget : Option Nat
  wdGroup : Nat
  wdCluster : Nat
  wdFront : Nat
  clusterFires : Table Nat
  frontFires : Nat
  lastFired : List Nat
  progWin : Nat
  frozen : Bool
  debugger : Option Bool
  bps : Table Bp
  debugRing : Option Ring
  sampleRings : Table Ring
  traceRings : Table Ring
  errs : Table Nat
  /-- virtual device, destination and clear stream of the dump under way (21 R422 to R425) -/
  dumping : Option (Nat × Nat × List Byte)
  /-- the model's own: a gate's EXPORT has sent the partition away, and it has not arrived since (14 R329; log 67) -/
  moved : Bool
  deriving DecidableEq, Repr

/-! ### Gates, collectives, the kiln and the device -/

/-- A signal in the queue of a frozen gate (14 R328). -/
structure QueuedSig where
  addend : Nat
  group : Nat
  part : Nat
  deriving DecidableEq, Repr

/-- A gate (14 R314). -/
structure Gate where
  payload : BitVec 384
  deferred : Nat
  level : Nat
  stamp : Nat
  seq : Nat
  value : Nat
  acl : BitVec 64
  rate : Nat
  depth : Nat
  frozen : Bool
  owner : Nat
  queue : List QueuedSig
  deriving DecidableEq, Repr

/-- A gate operation that has left for its server (14 R318): opcode, func, operands. `seen` says that the server has performed it once and holds it as a waiter. -/
structure GateOp where
  gate : Nat
  group : Nat
  frag : Nat
  part : Nat
  ident : Nat
  op : Nat
  func : Nat
  operand : Nat
  payload : BitVec 384
  seen : Bool
  deriving DecidableEq, Repr

/-- A collective operation on this device (19 R387 to R401): its job (0 before the card is here), the card's fields that members compare, contributors and layout, what has been received by slot, stale packets, the choices of a view change by slot and whether one is pending, and how it was continued. -/
structure CollOp where
  job : Nat
  card : List Nat
  members : BitVec 256
  layout : BitVec 256
  contrib : Table (List Byte)
  stale : Nat
  choices : Table Nat
  deciding : Bool
  awaiting : Bool
  reduced : Bool
  restarted : Bool
  /-- the reason it was abandoned for before its card was here (10 R274, 19 R399) -/
  ended : Option Nat := none
  /-- choices that have come before this member's own commit (19 R401) -/
  ahead : Table Nat := Table.empty
  deriving DecidableEq, Repr

/-- A collective group on this device (19 R393 to R404). -/
structure CollGroup where
  part : Nat
  slot : Nat
  fabric : List Nat
  view : Nat
  members : BitVec 256
  member : Bool
  joining : Bool
  opNum : Nat
  stale : Nat
  digest : Option (BitVec 64)
  ops : Table CollOp
  suspects : BitVec 256
  joiner : Option Nat
  /-- proposal acknowledged: proposer slot, live set; and, as proposer, the acknowledgements received -/
  acked : Option (Nat × BitVec 256)
  proposed : Option (BitVec 256)
  acks : BitVec 256
  heard : BitVec 256
  lastReason : Nat
  /-- a join's proposal that waits for the operations in flight: proposer slot, live set (19 R404) -/
  pending : Option (Nat × BitVec 256) := none
  /-- as proposer: a proposal of this view number has been replaced, so that what is acknowledged is not known until acknowledgements lapse (19 R398; log 44) -/
  replaced : Bool := false
  deriving DecidableEq, Repr

/-- How a run of a segment stands. -/
inductive RunLife where
  | none | pending | running | closed | diverged
  deriving DecidableEq, Repr

/-- One run of a segment: its block record, accumulators and cores. -/
structure SegRun where
  life : RunLife
  block : Nat
  /-- by group index, the sequencer's at 31 -/
  sums : Table Sums
  cores : List Nat
  injected : Bool
  /-- decided as mismatched without charge: an uncorrectable error lay in its layer (17 R369) -/
  void : Bool
  /-- the operation it stopped at: opcode, operand digest, address -/
  stopOp : Option (Nat × Nat × Nat)
  deriving DecidableEq, Repr

/-- A segment of a checked block under check (16 R337 to R351): entry states and logs of its groups by index, its runs by number 1 to 3, and 4 for the run in place of a primary that is disregarded (R356). -/
structure Check where
  launch : Nat
  index : Nat
  seg : Nat
  entries : Table RestartPt
  present : List Nat
  logs : Table (List LogEntry)
  runs : Table SegRun
  escaped : List Nat
  lines : List Nat
  decided : Bool
  skipped : Bool
  endK : Table RestartPt
  deriving DecidableEq, Repr

/-- A segment as a core's list names it (16 R356): partition, launch identifier, block index, segment, and its check record where the block is checked. -/
structure SegName where
  part : Nat
  ident : Nat
  index : Nat
  seg : Nat
  check : Option Nat
  deriving DecidableEq, Repr

/-- A core of the package (16 R353 to R358): crazing map entry, its test, the segments it held. -/
structure CoreRec where
  aside : Bool
  scanFailed : Bool
  demerits : List Nat       -- passed checks since each unexpired demerit
  aborted : Nat
  passed : Nat
  charges : Nat
  testing : Bool
  targeted : Bool
  slice : Bool              -- L2 slice in service
  held : List SegName       -- the last 65,536 segments held, newest first
  lastPass : Nat
  testedSince : Bool        -- passed a cone test since the last start
  deriving DecidableEq, Repr

/-- A link lane map (16 R358, 17 R372). -/
structure LinkRec where
  lanes : BitVec 8
  half : Bool
  down : Bool
  losses : Nat
  deriving DecidableEq, Repr

/-- A suspect interval (16 R358). -/
structure Suspect where
  core : Nat
  from_ : Nat
  at_ : Nat
  segs : List SegName
  deriving DecidableEq, Repr

/-- The device states of 22 R433. -/
inductive DevState where
  | startingCold | startingWarm | ready | maintenance | power (a : Nat)
  | off
  deriving DecidableEq, Repr

/-- The party a move belongs to, for the rotation of log 3: an issue stream's fragment. -/
structure Issuer where
  group : Nat
  frag : Nat
  deriving DecidableEq, Repr

/-- A move still to be made (log 3): a step of the machine, the host or a peer, or one instruction of a fragment. -/
inductive Move where
  | event (i : Instr)
  | issue (p : Issuer)
  deriving DecidableEq, Repr

/-- What the device sends to the world outside (log 6): an answer to the host, a write to a peer, a packet of the fabric. -/
inductive Sent where
  | reply (data : List Nat)
  | refused
  /-- the vendor return code of a mailbox command (22 R428) -/
  | returns (code : Nat)
  /-- a command during a start (22 R428) -/
  | busy
  /-- an access to the function of a disabled partition (22 R427) -/
  | unsupported
  | bytes (poison : Bool) (data : List Byte)
  | peerWrite (address : Nat) (data : List Byte)
  | heartbeat (group slot : Nat)
  | proposal (group view : Nat) (live : BitVec 256)
  | ack (group view slot : Nat)
  | commit (group view : Nat) (live : BitVec 256)
  | packet (group view op slot : Nat) (card : List Nat) (data : List Byte)
  | choice (group op slot choice : Nat)
  | join (group slot : Nat) (digest : BitVec 64)
  /-- a join request withdrawn (19 R407) -/
  | unjoin (group slot : Nat)
  | digest (group : Nat) (digest : BitVec 64)
  | suspect (group slot : Nat)
  | withdraw (group op : Nat)
  deriving DecidableEq, Repr

/-- The whole machine. -/
structure State where
  -- memory below the cores
  mem : Memory
  poison : List Nat
  versions : List Version
  vseq : Nat
  buffer : List BufLine
  updates : List Update
  handed : List Handed
  handedUpd : List HandedUpd
  /-- stores of private layers by round, kept until the kiln decides (16 R339, R342) -/
  green : List Handed
  /-- those that have been fired, as the later segments of their block still read them at the rounds they took in the layer (log 10) -/
  past : List Handed
  ownPuts : List OwnPut
  handOrder : Nat
  /-- stores through a peer aperture that stand in a store buffer or an open round (17 R373): the group, the line and the instruction -/
  peerStores : List (Nat × Nat × Flight)
  bounce : List BounceLine
  /-- by slice, least recently used last -/
  l2 : Table (List L2Line)
  tlbCore : Table (List TlbEntry)
  tlbDie : Table (List TlbEntry)
  /-- the translations used since an invalidation last named their pages, the newest first (13 R308) -/
  usedPages : List TlbEntry
  codePages : List CodePage
  /-- tagged instructions under way (21 R418, R419) -/
  samples : List Sample
  -- partitions and work
  parts : Table Part
  launches : Table Launch
  blocks : Table Block
  groups : Table Group
  sets : Table TileSet
  jobs : Table Job
  -- gates and collectives
  gates : Table Gate
  gateOps : Table GateOp
  gateStamp : Nat
  colls : Table CollGroup
  -- checks, cores and the device
  checks : Table Check
  coreRecs : Table CoreRec
  /-- bank self-tests that an error has brought and that follow at once (16 R354): the core that owns the bank, and the unit as error entries number it (17 R374) -/
  bankTests : List (Nat × Nat)
  rotation : Nat
  abortPrio : Nat
  nextTest : Table Nat
  links : Table LinkRec
  errors : Table (List ErrRec)
  overwritten : Table Nat
  kilsySeq : Nat
  kilsyTime : Nat
  serial : Nat
  startCount : Nat
  counters : Table Nat
  poisonList : List Nat
  poisonDropped : Nat
  suspects : List Suspect
  suspectDropped : Nat
  keys : Table (BitVec 256)
  dumpCounts : Table Nat
  adminRing : Option Ring
  dev : DevState
  tolerance : Nat
  a4Region : Option Nat
  startFails : Nat
  config : BitVec 1280
  /-- the DRAM and link calibration in flash, and its checksum (22 R429) -/
  calib : Nat
  calibSum : Nat
  timebase : Nat
  /-- rotating pointers over the slots of a quarter (07 R191), by 16 × core + 4 × quarter + pipe -/
  pointers : Table Nat
  throttled : Bool
  warm : Bool
  -- the model's own
  agenda : List Move
  cur : Option Issuer
  word : BitVec 64
  free : Nat
  uid : Nat
  turn : Nat
  /-- instructions issued, the order of 07 R187 -/
  tick : Nat
  sent : List Sent
  deriving DecidableEq, Repr

/-! ### Outcomes that stop -/

/-- The faults that stop the machine. Every fault the manual describes is taken through its trap mechanism instead, as a next state. -/
inductive Fault where
  /-- An instruction word was executed outside any issue stream: `exec` was asked to run an instruction while `cur` names no live fragment. Raised by the shared prologue only; no step raises it, because the manual knows no instruction without a fragment (01 R13). Safe. -/
  | noIssuer
  deriving DecidableEq, Repr

/-- The refusals. -/
inductive Refusal where
  /-- An instruction of the opcode table that has no meaning yet. Raised by the dispatch only. Safe. -/
  | notModelled (mnemonic : String)
  deriving DecidableEq, Repr

/-! ### Reset -/

/-- A crazing-map entry of a new device: good and zero (16 R358; log 2). -/
def CoreRec.reset : CoreRec :=
  { aside := false, scanFailed := false, demerits := [], aborted := 0, passed := 0, charges := 0,
    testing := false, targeted := false, slice := true, held := [], lastPass := 0, testedSince := true }

/-- A link that trained at full width (16 R358). -/
def LinkRec.reset : LinkRec := { lanes := 0xFF, half := false, down := false, losses := 0 }

/-- A virtual device of a cleared partition record (13 R291, R296; log 2). -/
def Vdev.reset : Vdev :=
  { weight := 0, cap := 0, boost := 0, ways := 0, balance := 0, clamp := 0, idle := 0,
    regions := Table.empty, written := Table.empty, sampling := false, mean := 0, seed := 0, gens := Table.empty, trace := false, channels := 0, kinds := 0 }

/-- A partition as a start leaves it (22 R430 step 5): disabled and cleared, thresholds at their defaults (07 R201 to R203). -/
def Part.reset : Part :=
  { enable := false, base := 0, limit := 0, colours := 0, vdevs := 0, lendOn := false, lendTo := 0,
    autoReclaim := false, ranges := Table.empty, vdev := Table.empty, lent := [], reclaim := [], status := true,
    round := 0, roundOpen := false, nextLaunch := 0, queues := Table.empty, experts := Table.empty,
    packets := Table.empty, pageRing := none, pageReqs := Table.empty, pageSeq := 0, pageCount := 0,
    svcRing := none, svcSeq := 0, svcs := Table.empty, checkBase := 0, checkBytes := 0,
    vbudget := none, wdGroup := 2 ^ 24, wdCluster := 8, wdFront := 4, clusterFires := Table.empty,
    frontFires := 0, lastFired := [], progWin := 100, frozen := false, debugger := none,
    bps := Table.empty, debugRing := none, sampleRings := Table.empty, traceRings := Table.empty,
    errs := Table.empty, dumping := none, moved := false }

/-- The configuration block of a new device (22 R429): the format and length it must have, 1,600 W, 2,000 MHz and every link enabled as in the default configuration of 22 R436 (log 2). -/
def defaultConfig : BitVec 1280 := BitVec.ofNat 1280 (1 + 160 * 2 ^ 32 + 1600 * 2 ^ 192 + 2000 * 2 ^ 208 + 0x3FFFF * 2 ^ 224)

/-- The machine right after its first cold start (22 R430): memory zero and clean, no partition, gate or collective group, the Kilsy record of a new device with one start counted. -/
def State.reset : State :=
  { mem := [], poison := [], versions := [], vseq := 0, buffer := [], updates := [], handed := [],
    handedUpd := [], green := [], past := [], ownPuts := [], handOrder := 0, peerStores := [], bounce := [], l2 := Table.empty,
    tlbCore := Table.empty, tlbDie := Table.empty, usedPages := [], codePages := [], samples := [], parts := ⟨(List.range 16).map fun p => (p, Part.reset)⟩,
    launches := Table.empty, blocks := Table.empty, groups := Table.empty, sets := Table.empty,
    jobs := Table.empty, gates := Table.empty, gateOps := Table.empty, gateStamp := 0,
    colls := Table.empty, checks := Table.empty, coreRecs := Table.empty, bankTests := [], rotation := 60,
    abortPrio := 12, nextTest := Table.empty, links := Table.empty, errors := Table.empty,
    overwritten := Table.empty, kilsySeq := 1, kilsyTime := 0, serial := 0, startCount := 1,
    counters := Table.empty, poisonList := [], poisonDropped := 0, suspects := [],
    suspectDropped := 0, keys := Table.empty, dumpCounts := Table.empty, adminRing := none,
    dev := .ready, tolerance := 0, a4Region := none, startFails := 0, config := defaultConfig, calib := 0, calibSum := Config.calibrationSum 0, timebase := 0,
    pointers := Table.empty, throttled := false, warm := false, agenda := [], cur := none, word := 0, free := 0, uid := 1,
    turn := 0, tick := 0, sent := [] }

end Sys2Proof.Machine
end

