-- ==== Sys2Proof/Machine/Ops.lean ====
section
/-! DEFINITION. Operations every family shares: the context of the issuing fragment, register reads and writes, error entries, the end of a kernel, taking a trap (07 R194) and the return from one (08 R215). -/

namespace Sys2Proof.Machine
open Sys2Proof

/-! ### Lanes and masks -/

/-- Whether a block takes up its cores (07 R185). -/
def Block.onCores (b : Block) : Bool :=
  match b.life with
  | .resident | .quiesced | .closing _ => true
  | .saved | .waitPage | .queued | .ended => false

/-- Lanes from a function of the lane number. -/
def mkLanes (f : Nat → Word) : Lanes := ⟨((List.range 128).map f).toArray, by simp⟩

/-- The element of a lane. -/
def laneOf (v : Lanes) (j : Nat) : Word := v.toArray.getD j 0

/-- A mask from a function of the lane number. -/
def mkMask (f : Nat → Bool) : Mask :=
  BitVec.ofNat 128 ((List.range 128).foldl (fun a j => if f j then a + 2 ^ j else a) 0)

/-- The lanes of a mask, rising. -/
def lanesOf (m : Mask) : List Nat := (List.range 128).filter fun j => m.getLsbD j

/-- The lowest lane of a mask, 128 where there is none. -/
def lowestLane (m : Mask) : Nat := (lanesOf m).headD 128

/-- A line from a function of the byte number. -/
def mkLine (f : Nat → Byte) : Line := ⟨((List.range 128).map f).toArray, by simp⟩

/-- A byte of a line. -/
def byteOf (l : Line) (i : Nat) : Byte := l.toArray.getD i 0

/-- a where the mask has a bit, b elsewhere, byte by byte. -/
def overlay (m : Mask) (a b : Line) : Line := mkLine fun i => if m.getLsbD i then byteOf a i else byteOf b i

/-- The undefined lanes of a register (log 4). -/
def freeLanes (seed i : Nat) : Lanes := mkLanes fun j => Config.freeWord seed i j

/-! ### The issuing fragment -/

/-- The records of the fragment that executes: keys and values of its group, fragment, block and launch. -/
structure Ctx where
  uid : Nat
  fid : Nat
  g : Group
  f : Frag
  b : Block
  l : Launch
  deriving DecidableEq, Repr

/-- The context of a fragment. -/
def State.ctxOf (s : State) (uid fid : Nat) : Option Ctx :=
  match s.groups.get uid with
  | none => none
  | some g =>
    match g.frags.get fid, s.blocks.get g.block with
    | some f, some b =>
      match s.launches.get b.launch with
      | some l => some { uid := uid, fid := fid, g := g, f := f, b := b, l := l }
      | none => none
    | _, _ => none

/-- The context of the fragment that executes now. -/
def State.ctx (s : State) : Option Ctx :=
  match s.cur with
  | none => none
  | some c => s.ctxOf c.group c.frag

/-- The state with one group's record replaced. -/
def State.putGroup (s : State) (uid : Nat) (g : Group) : State := { s with groups := s.groups.put uid g }

/-- The group with one fragment's record replaced. -/
def Group.putFrag (g : Group) (fid : Nat) (f : Frag) : Group := { g with frags := g.frags.put fid f }

/-- The state with one fragment of a group changed, where it exists. -/
def State.updFrag (s : State) (uid fid : Nat) (h : Frag → Frag) : State :=
  { s with groups := s.groups.upd uid fun g => { g with frags := g.frags.upd fid h } }

/-- The state with one group changed, where it exists. -/
def State.updGroup (s : State) (uid : Nat) (h : Group → Group) : State :=
  { s with groups := s.groups.upd uid h }

/-- The state with one block changed, where it exists. -/
def State.updBlock (s : State) (b : Nat) (h : Block → Block) : State :=
  { s with blocks := s.blocks.upd b h }

/-- The state with one launch changed, where it exists. -/
def State.updLaunch (s : State) (l : Nat) (h : Launch → Launch) : State :=
  { s with launches := s.launches.upd l h }

/-- The state with one partition changed, where it exists. -/
def State.updPart (s : State) (p : Nat) (h : Part → Part) : State :=
  { s with parts := s.parts.upd p h }

/-- A partition's record; a cleared one where the host has defined none. -/
def State.part (s : State) (p : Nat) : Part := s.parts.getD p Part.reset

/-- A virtual device's record. -/
def Part.vd (p : Part) (v : Nat) : Vdev := p.vdev.getD v Vdev.reset

/-- A core's record. -/
def State.core (s : State) (c : Nat) : CoreRec := s.coreRecs.getD c CoreRec.reset

/-- The die of a physical core (01 R9). -/
def dieOfCore (c : Nat) : Nat := c / 80

/-! ### Registers -/

/-- A scalar register (01 R18); before its first write, an undefined value (log 4). -/
def Group.sreg (g : Group) (i : Nat) : Word :=
  match g.sregs.get i with
  | some v => v
  | none =>
    match g.undef with
    | some d => Config.freeWord d (1024 + i) 0
    | none => 0

/-- A vector register (01 R17); before its first write, undefined lanes (log 4). -/
def Group.vreg (g : Group) (i : Nat) : Lanes :=
  match g.vregs.get i with
  | some v => v
  | none =>
    match g.undef with
    | some d => freeLanes d i
    | none => Vector.replicate 128 0

/-- A mask register of a fragment: m0 is its active mask (01 R11); at the sequencer a mask register is one bit and m0 reads 1 (05 R106). -/
def Group.mreg (g : Group) (active : Mask) (i : Nat) : Mask :=
  if i = 0 then active
  else
    match g.masks.get i with
    | some m => m
    | none =>
      match g.undef with
      | some d => mkMask fun j => (Config.freeWord d (4096 + i) j).getLsbD 0
      | none => 0

/-- The 32-bit element an operand supplies to a lane (02 R39). -/
def Group.lane (g : Group) (o : Opnd) (j : Nat) : Nat :=
  match o with
  | .v i => (laneOf (g.vreg i.toNat) j).toNat
  | .k i => (g.sreg i.toNat).toNat

/-- The value of n consecutive registers to a lane, low register first (02 R40). -/
def Group.wide (g : Group) : Nat → Opnd → Nat → Nat
  | 0, _, _ => 0
  | n + 1, o, j => g.lane o j + 2 ^ 32 * Group.wide g n (match o with | .v i => .v (i + 1) | .k i => .k (i + 1)) j

/-- n consecutive scalar registers. -/
def Group.scalars (g : Group) (i n : Nat) : List Word := (List.range n).map fun t => g.sreg (i + t)

/-- m1 to m15. -/
def Group.maskRegs (g : Group) : List Mask := (List.range 15).map fun t => g.mreg 0 (t + 1)

/-- A pair of scalar registers as 64 bits. -/
def Group.pair (g : Group) (i : Nat) : Nat := (g.sreg i).toNat + 2 ^ 32 * (g.sreg (i + 1)).toNat

/-- The wide pointer of a scalar quad: its low 80 bits (02 R40). -/
def Group.pointer (g : Group) (i : Nat) : Nat := fromWords (g.scalars i 3) % 2 ^ 80

/-- One register write. A whole 32-bit write clears the poison of the word (17 R369); m0 is never written. -/
def Group.write (g : Group) : RegWrite → Group
  | .vec i m v =>
    let old := g.vreg i
    { g with
      vregs := g.vregs.put i (mkLanes fun j => if m.getLsbD j then laneOf v j else laneOf old j),
      vpoison := match g.vpoison.get i with
        | none => g.vpoison
        | some p => if p &&& ~~~m = 0 then g.vpoison.del i else g.vpoison.put i (p &&& ~~~m) }
  | .sca i v => { g with sregs := g.sregs.put i v, spoison := g.spoison.filter (· != i) }
  | .msk i m v => { g with masks := g.masks.put i ((v &&& m) ||| (g.mreg 0 i &&& ~~~m)) }

/-- Register writes in order. -/
def Group.writes (g : Group) (ws : List RegWrite) : Group := ws.foldl Group.write g

/-- The writes of an n-register result to a destination operand: to the lanes of the effective mask of a vector register, or once to a scalar one (02 R38). -/
def destWrites (eff : Mask) (n : Nat) (dst : Opnd) (val : Nat → Nat) : List RegWrite :=
  match dst with
  | .v i =>
    (List.range n).map fun r =>
      .vec (i.toNat + r) eff (mkLanes fun j => if eff.getLsbD j then toWord (val j / 2 ^ (32 * r)) else 0)
  | .k i =>
    let x := val 0
    (List.range n).map fun r => .sca (i.toNat + r) (toWord (x / 2 ^ (32 * r)))

/-- Writes of consecutive scalar registers. -/
def sclWrites (i : Nat) (ws : List Word) : List RegWrite := ws.zipIdx.map fun p => .sca (i + p.2) p.1

/-- The registers an operand of n registers names, as (scalar, index). -/
def opndRegs (n : Nat) (o : Opnd) : List (Bool × Nat) :=
  (List.range n).map fun r => (opndScalar o, opndIdx o + r)

/-- The first poisoned register among those read, with the lanes read (17 R369). -/
def Group.poisoned (g : Group) (lanes : Mask) (rs : List (Bool × Nat)) : Option (Bool × Nat) :=
  rs.find? fun r =>
    if r.1 then g.spoison.contains r.2 else decide (g.vpoison.getD r.2 0 &&& lanes ≠ 0)

/-- `$trapinfo` of a POISON read from a register (17 R369). -/
def poisonInfo (r : Bool × Nat) : BitVec 64 :=
  BitVec.ofNat 64 (0xFFFF * 2 ^ 48 + (if r.1 then 1024 else 0) + r.2)

/-! ### Fragments -/

/-- The effective mask of 01 R11. -/
def Ctx.eff (c : Ctx) (g : Guard) : Mask :=
  let m := c.g.mreg c.f.mask g.mask.toNat
  c.f.mask &&& (if g.neg then ~~~m else m)

/-- The lanes of a group that have not exited. -/
def Group.liveLanes (g : Group) : Mask := g.frags.rows.foldl (fun m r => m ||| r.2.mask) 0

/-- The fragment holding the lowest lane of a mask. -/
def Group.fragOfLowest (g : Group) (m : Mask) : Option Nat :=
  let j := lowestLane (m &&& g.liveLanes)
  (g.frags.rows.find? fun r => r.2.mask.getLsbD j).map (·.1)

/-- The address after the word at an address (02 R28). -/
def nextWord (a : Addr) : Addr := a + 8

/-- Whether a fragment's word is the last of its block (02 R28). -/
def Frag.atLast (f : Frag) : Bool := f.pc.toNat == (f.blk.hdr.toNat + 8 * f.blk.len) % 2 ^ 80

/-! ### Records of errors -/

/-- The 32-byte error entry of 17 R374. -/
structure ErrEntry where
  ty : Nat
  code : Nat
  unit : Nat
  owner : Option (Nat × Nat)   -- partition, virtual device
  core : Nat
  bank : Nat
  line : Nat
  launch : Nat
  block : Nat
  /-- the virtual address of the partition's own access it arose from -/
  va : Nat := 0
  deriving DecidableEq, Repr

/-- The die whose record keeps an entry: a core's, or a link's (01 R24). -/
def ErrEntry.die (e : ErrEntry) : Nat :=
  if e.unit = 6 then (if e.core ≤ 4 then 0 else if e.core ≤ 8 then 1 else if e.core ≤ 12 then 2 else 3) else dieOfCore e.core

/-- An error entry's bytes (17 R374). -/
def ErrEntry.bytes (e : ErrEntry) (time : Nat) : List Byte :=
  let own := match e.owner with | some (p, v) => 128 + 16 * (v % 8) + p % 16 | none => 0
  toBytes 1 e.ty ++ toBytes 1 e.code ++ toBytes 1 e.unit ++ toBytes 1 own
    ++ toBytes 1 e.die ++ toBytes 1 (if e.unit = 6 then 0 else e.core / 4 % 20)
    ++ toBytes 1 (if e.unit = 6 then e.core else e.core % 4)
    ++ toBytes 1 e.bank ++ toBytes 8 e.line ++ toBytes 8 time ++ toBytes 4 e.launch ++ toBytes 4 e.block

/-- Bytes that the device itself writes at a physical address, seen by every later reader (17 R382, 10 R278). -/
def State.poke (s : State) (pa : Nat) (bs : List Byte) : State :=
  let laid := fun (v : Version) =>
    if pa < 128 * v.line + 128 ∧ 128 * v.line < pa + bs.length then
      { v with data := mkLine fun i =>
          if pa ≤ 128 * v.line + i then bs.getD (128 * v.line + i - pa) (byteOf v.data i) else byteOf v.data i }
    else v
  { s with mem := Memory.writeN s.mem pa bs, versions := s.versions.map laid }

/-- Writes of the device in order. -/
def State.pokes (s : State) (ws : List (Nat × List Byte)) : State := ws.foldl (fun s w => s.poke w.1 w.2) s

/-- A record for a ring of slots of a given size: written whole, only while slots are free, else counted as dropped (17 R382, 21 R420). The indices stand in memory at the descriptor. Answers the writes it makes and the ring. -/
def ringPut (mem : Memory) (r : Ring) (slot : Nat) (rec : List Byte) : List (Nat × List Byte) × Ring :=
  let need := (rec.length + slot - 1) / slot
  let rindex := fromBytes (Memory.readN mem (r.desc + 0x20) 8)
  if r.entries < r.windex + need - rindex then
    let d := min (r.dropped + 1) (2 ^ 32 - 1)
    ([(r.desc + 0x14, toBytes 4 d)], { r with dropped := d })
  else
    let w := r.windex + need
    (((List.range need).map fun t => (r.base + slot * ((r.windex + t) % r.entries), (rec.drop (slot * t)).take slot))
      ++ [(r.desc + 0x18, toBytes 8 w)], { r with windex := w })

/-- The device timebase as it is read: nanoseconds since cold start, those past the last bucket tick free (16 R360; log 5). -/
def State.now (s : State) : Nat := s.timebase + Config.freeNs s.tick % 1000

/-- An error event: an entry of the die error record, the oldest overwritten past 1,024, and of the admin queue where one is registered (17 R374). -/
def State.logError (s : State) (e : ErrEntry) : State :=
  let die := e.die
  let es := (s.errors.getD die []) ++ [{ bytes := e.bytes s.now, va := e.va }]
  let s1 := if es.length ≤ 1024 then { s with errors := s.errors.put die es }
    else { s with errors := s.errors.put die es.tail,
                  overwritten := s.overwritten.put die (s.overwritten.getD die 0 + 1) }
  match s1.adminRing with
  | none => s1
  | some r =>
    let x := ringPut s1.mem r 32 (e.bytes s.now)
    { s1 with adminRing := some x.2 }.pokes x.1

/-- Counter i of the Kilsy record rises, and the owner partition's count where there is one (16 R358, 17 R367). -/
def State.count (s : State) (i n : Nat) (owner : Option Nat) : State :=
  let s1 := { s with counters := s.counters.put i (min (s.counters.getD i 0 + n) (2 ^ 64 - 1)),
                     kilsySeq := s.kilsySeq + 1, kilsyTime := s.now }
  match owner with
  | none => s1
  | some p => s1.updPart p fun q => { q with errs := q.errs.put i (min (q.errs.getD i 0 + n) (2 ^ 64 - 1)) }

/-! ### The end of a kernel -/

/-- The key of a segment's check record, from its block's: segment numbers are below 2^64. -/
def checkKey (k seg : Nat) : Nat := 2 ^ 64 * k + seg

/-- The block's part of a segment's key. -/
def checkOf (key : Nat) : Nat := key / 2 ^ 64

/-- Stores of private layers are discarded, those that wait for their pages in a bounce buffer among them (16 R339, 13 R311). -/
def State.dropPrivate (s : State) (gone : Handed → Bool) : State :=
  { s with green := s.green.filter fun h => !gone h, past := s.past.filter fun h => !gone h, bounce := s.bounce.filter fun b => !b.priv.any gone }

/-- Whether a store is one of a private layer of a list of blocks or tile sets under check. -/
def Handed.checkIn (h : Handed) (ks : List Nat) : Bool := match h.layer with | some y => ks.contains y.check | none => false

/-- Whether a wait is that of a cjoin for a group. -/
def Pend.joins (p : Pend) (gid : Nat) : Bool := match p with | .join j _ => j == gid | _ => false

/-- What stands at a server, a queue or a group for waits that have ended without effect is taken back (07 R177). -/
def State.dropWaits (s : State) (ps : List Pend) : State :=
  { s with
    gateOps := s.gateOps.filter fun k o => !(o.seen && ps.contains (.gate k)),
    colls := s.colls.map fun k (g : CollGroup) => if ps.any fun p => p.joins k then { g with joining := false } else g,
    sent := s.sent ++ (s.colls.rows.filter fun r => r.2.joining && ps.any fun p => p.joins r.1).map fun r => Sent.unjoin r.1 r.2.slot,
    parts := s.parts.map fun _ (p : Part) => { p with queues := p.queues.map fun _ (q : WorkQueue) =>
      { q with waiters := q.waiters.filter fun t => !ps.contains (.deq t) } } }

/-- What the fragments of some groups wait on, those saved at a pre-emption among them. -/
def State.pends (s : State) (grps : List Nat) : List Pend :=
  (s.groups.filter fun k _ => grps.contains k).rows.flatMap fun r =>
    (r.2.frags.rows ++ r.2.saved.flatMap fun v => v.frags.rows).map fun (x : Nat × Frag) => x.2.pend

/-- What withdraws a cancelled collective from its group (10 R274); a coll that only takes up a logged outcome has no operation there. -/
def Job.withdrawal (j : Job) : List Sent :=
  if j.kind ≠ .coll ∨ j.aux.getD 2 0 = 0 then [] else [Sent.withdraw (j.aux.getD 0 0) (j.aux.getD 1 0)]

/-- A launch ends with a status and code (07 R195): its blocks leave their cores without further issue, unpublished stores, copies, greenware and pending write-back lines are discarded, its jobs that have not completed are cancelled (10 R274). The completion record is written by LAUNCH_COMPLETE. -/
def State.endLaunch (s : State) (launch status code : Nat) : State :=
  match s.launches.get launch with
  | none => s
  | some l =>
    if l.ended.isSome then s
    else
      let mine := (s.blocks.filter fun _ b => decide (b.launch = launch)).keys
      let grps := (s.groups.filter fun _ g => mine.contains g.block).keys
      let chks := (s.checks.filter fun _ c => decide (c.launch = launch)).keys
      let kilns := chks.map checkOf
      let cancelled := s.jobs.filter fun _ j => grps.contains j.group && decide (j.life ≠ .done)
      let s0 := (s.dropWaits (s.pends grps)).dropPrivate fun h => h.checkIn kilns
      let s1 := { s0 with
        launches := s.launches.put launch { l with ended := some (status, code) },
        blocks := s.blocks.map fun _ b =>
          if b.launch = launch then { b with life := .ended, hold := none, pending := [], pubPoison := none, pages := [] } else b,
        groups := s.groups.map fun k g =>
          if grps.contains k then { g with life := .ended, frags := Table.empty, flights := [], delivered := [] }
          else g,
        sets := s.sets.map fun _ t => if t.launch = launch then { t with ended := true, queue := [] } else t,
        buffer := s.buffer.filter fun e => !grps.contains e.group,
        updates := s.updates.filter fun e => !grps.contains e.group,
        handed := s.handed.filter fun h => !h.checkIn kilns,
        checks := s.checks.map fun k c => if chks.contains k then { c with decided := true } else c,
        jobs := s.jobs.filter fun k _ => (cancelled.get k).isNone,
        colls := s0.colls.map fun _ g => { g with ops := g.ops.filter fun _ o => (cancelled.get o.job).isNone },
        gateOps := s0.gateOps.filter fun _ o => !(grps.contains o.group && o.seen),
        sent := s0.sent ++ cancelled.rows.flatMap fun (r : Nat × Job) => r.2.withdrawal }
      s1.logError { ty := 0x11, code := code, unit := 8, owner := some (l.part, l.hdr.vdev), core := 0,
                    bank := 0, line := 0, launch := l.ident, block := 0xFFFFFFFF }

/-! ### Segments under check -/

/-- A run that repeats a primary's (16 R339). -/
def Ctx.repeats (c : Ctx) : Bool := decide (2 ≤ c.b.run)

/-- The segment that a group's part belongs to (16 R337); a tile set is one segment. -/
def Ctx.seg (c : Ctx) : Nat := if c.b.set.isSome then 0 else c.g.marks


/-- The check record of the segment a context runs in. -/
def Ctx.check (c : Ctx) : Option Nat := c.b.check.map fun k => checkKey k c.seg

/-- The logical core number of a group (01 R16, R26). -/
def Ctx.lcore (c : Ctx) : Nat :=
  ((c.b.cores.zip c.b.lcores).find? fun x => x.1 == c.g.core).elim 0 (·.2)

/-- The place of a group's part in its segment's record: 31 is the sequencer's, and the blocks of a tile set stand 32 apart. -/
def Ctx.slot (c : Ctx) : Nat := (if c.b.set.isSome then 32 * c.lcore else 0) + (if c.g.seq then 31 else c.g.idx)

/-- The blocks that run as one: those of a block's tile set, or the block alone (16 R337). -/
def State.unit (s : State) (bid : Nat) : List Nat :=
  match (s.blocks.get bid).bind fun (b : Block) => b.set.bind s.sets.get with
  | some t => t.blocks
  | none => [bid]

/-- Whether an entry is found by its operation's number or address, because it is written when the operation completes and not in issue order. -/
def LogEntry.isKeyed (e : LogEntry) : Bool :=
  match e.kind with
  | .fill | .coll | .xfetch => true
  | .pub => e.op != 0
  | .peer => e.op == 2
  | .snap | .unmerged | .result | .storeOrder | .xstat | .clk | .digest | .coreRead | .sysrd | .svc | .view | .trap => false

/-- The instruction count at which a fill was made, by which the fills of one line are told apart (10 R258). -/
def LogEntry.tick (e : LogEntry) : Nat := if e.kind = .fill then e.data.getD 3 0 else 0

/-- A keyed entry that the groups of a repeat run have to follow: of those that fit the one written first, taken from its group's entries into its group's log (16 R346). -/
def State.takeKeyed (s : State) (bid : Nat) (fits : LogEntry → Bool) : Option (LogEntry × State) :=
  let us := s.unit bid
  let found := s.groups.rows.flatMap fun r =>
    if us.contains r.2.block then (r.2.keyed.filter fits).map fun e => (r.1, e) else []
  (found.foldl (fun (o : Option (Nat × LogEntry)) x => match o with
    | none => some x
    | some y => if x.2.tick < y.2.tick then some x else some y) none).map fun x =>
      (x.2, s.updGroup x.1 fun g => { g with keyed := g.keyed.erase x.2, log := g.log ++ [x.2] })

/-- The entry that an operation of one group has to follow, taken from the group's keyed entries into its log (16 R346). -/
def State.takeOwn (s : State) (uid : Nat) (fits : LogEntry → Bool) : Option (LogEntry × State) :=
  ((s.groups.get uid).bind fun (g : Group) => g.keyed.find? fits).map fun e =>
    (e, s.updGroup uid fun g => { g with keyed := g.keyed.erase e, log := g.log ++ [e] })

/-- An operation's number among those of its class in the part. -/
def Group.partOrd (g : Group) (cls ord : Nat) : Nat := ord - g.base.getD cls 0

/-- A repeat run stops at a divergence or a differing digest (16 R346, R349): its block, or its tile set, leaves its cores, its jobs perform nothing more, and the check records the operation. -/
def State.stopRun (s : State) (c : Ctx) (stop : Option (Nat × Nat)) : State :=
  let us := s.unit c.g.block
  let s1 := { s with
    jobs := s.jobs.filter fun _ j => !us.contains j.block || decide (j.life = .done),
    groups := s.groups.map fun _ g => if us.contains g.block then { g with life := .ended, frags := Table.empty } else g,
    buffer := s.buffer.filter fun b => !us.contains (((s.groups.get b.group).map fun (g : Group) => g.block).getD 0) }
  let s2 : State := { us.foldl (fun (s : State) i => s.updBlock i fun b => { b with life := .ended }) s1 with
    sets := match c.b.set with | some t => s.sets.upd t fun x => { x with ended := true, queue := [] } | none => s.sets }
  match c.check with
  | none => s2
  | some k => { s2 with checks := s2.checks.upd k fun ch => { ch with
      runs := ch.runs.upd c.b.run fun r => { r with life := .diverged, stopOp := stop.map fun x => (x.1, x.2, c.f.pc.toNat) } } }

/-! ### Trace -/

/-- The run of a block as 21 R411 names it: one in place of a disregarded primary is a primary's. -/
def Block.runName (b : Block) : Nat := if b.run = 4 then 1 else b.run

/-- The block name of 21 R411, with a segment number where the block is checked. -/
def blockName (b : Block) (l : Launch) (seg : Nat) : List Byte :=
  toBytes 8 b.workid ++ toBytes 4 l.ident ++ toBytes 4 b.index ++ toBytes 1 (l.part % 16 + 16 * (l.hdr.vdev % 8))
    ++ toBytes 1 b.runName ++ toBytes 2 (if b.check.isSome then seg else 0) ++ toBytes 4 0
    ++ (List.range 4).flatMap fun i => toBytes 2 ((b.bars.get i).elim 0 fun x => x.p.toNat)

/-- A trace record of 21 R421 reaches its virtual device's ring, where trace is on, the kind or channel is enabled, and a ring stands. -/
def State.trace (s : State) (b : Block) (l : Launch) (seg gidx kind chan : Nat) (pc : Addr) (w : Nat) (value : Option Nat) : State :=
  let v := (s.part l.part).vd l.hdr.vdev
  let on := v.trace && (if kind = 0 then v.channels.getLsbD chan else v.kinds.getLsbD kind)
  match (s.part l.part).traceRings.get l.hdr.vdev with
  | none => s
  | some r =>
    if !on then s
    else
      let rec_ := blockName b l seg ++ toBytes 1 kind ++ toBytes 1 chan ++ toBytes 1 gidx
        ++ toBytes 1 (if value.isSome then 1 else 0) ++ toBytes 10 pc.toNat ++ toBytes 2 0 ++ toBytes 4 w
        ++ toBytes 4 (value.getD 0) ++ toBytes 8 s.now
      let x := ringPut s.mem r 64 rec_
      (s.updPart l.part fun p => { p with traceRings := p.traceRings.put l.hdr.vdev x.2 }).pokes x.1

/-- A trace record of a fragment's group. -/
def State.traceOf (s : State) (c : Ctx) (kind chan : Nat) (pc : Addr) (w : Nat) (value : Option Nat) : State :=
  s.trace c.b c.l c.seg (if c.g.seq then 0 else c.g.idx) kind chan pc w value

/-! ### Traps -/

/-- What a trap carries (07 R194): kind, code, the instruction named and the detail; and the block of that instruction where it is not the one at which the fragment stands. -/
structure Trap where
  kind : Nat
  code : Code
  pc : Addr
  info : BitVec 64
  blk : Option BlockInfo := none
  deriving DecidableEq, Repr

/-- A precise fault at an instruction (17 R362): `$trapinfo` zero where its description names none. -/
def faultAt (code : Code) (pc : Addr) (info : Nat) : Trap :=
  { kind := 0, code := code, pc := pc, info := BitVec.ofNat 64 info }

/-- The fragment as the trap registers and the handler entry leave it (07 R194). The handler's first word must be a header, which is checked when control arrives (02 R30). -/
def Frag.enter (f : Frag) (t : Trap) (entry : Addr) (mark : Handler) : Frag :=
  { f with
    cause := BitVec.ofNat 32 (t.kind * 256 + codeNum t.code), tpc := t.pc, tinfo := t.info,
    tblk := t.blk.getD f.blk, tphase := if t.blk.isNone then f.phase else .run, handler := mark, pc := entry,
    phase := .arrive, pend := .none, stall := 3, free := false, count := f.count + 1 }

/-- An entry of the group's replay log (16 R345), written by every run that performs. -/
def Group.logs (g : Group) (e : LogEntry) : Group := { g with log := g.log ++ [e] }

/-- The log entry of a trap (16 R345): where the fragment stood and what it took. -/
def trapLogEntry (f : Frag) (t : Trap) : LogEntry :=
  { kind := .trap, op := 0, data := [f.pc.toNat, f.count, t.kind, codeNum t.code, t.pc.toNat, t.info.toNat], digest := 0 }

/-- Taking a trap (07 R194), the one operation by which every fault, software trap and view change reaches a fragment: the trap registers are set; with no handler entry, in a handler, or at the sequencer (08 R217), the kernel ends with the code; otherwise the fragment is marked and control goes to the handler entry. The trap is logged, and a repeat run takes no trap but the logged one (16 R345, R346). -/
def State.takeTrap (s : State) (c : Ctx) (t : Trap) : State :=
  let e := trapLogEntry c.f t
  if c.repeats && decide (c.g.replay.head? ≠ some e) then s.stopRun c none
  else if c.g.seq || decide (c.l.hdr.handler = 0) || decide (c.f.handler ≠ .none) then
    s.endLaunch c.b.launch 0x05 (codeNum t.code)
  else
    let f := c.f.enter t c.l.hdr.handler (if t.kind = 2 then .view else .fault)
    let g := (c.g.putFrag c.fid f).logs e
    (s.putGroup c.uid { g with replay := if c.repeats then g.replay.drop 1 else g.replay }).traceOf c 5 0 t.pc
      (t.kind * 256 + codeNum t.code) (some (t.info.toNat % 2 ^ 32))

/-- What a waiting fragment waited on has come: the wait is replaced by its outcome, in the split table or in the fragments saved at a pre-emption (07 R197 step 2). -/
def State.answer (s : State) (uid fid : Nat) (p q : Pend) : State :=
  let h := fun (f : Frag) => if f.pend = p then { f with pend := q } else f
  s.updGroup uid fun g => { g with
    frags := g.frags.upd fid h,
    saved := g.saved.map fun v => { v with frags := v.frags.upd fid h } }

/-- Whether a fragment waits on something. -/
def Group.waits (g : Group) (fid : Nat) (p : Pend) : Bool :=
  (match g.frags.get fid with | some f => decide (f.pend = p) | none => false)
    || g.saved.any fun v => match v.frags.get fid with | some f => decide (f.pend = p) | none => false

/-- The return from a handler (08 R215): the mark is cleared and the fragment goes back to the word named, in the block it left, or to the word after it. A trap taken before a block was entered is retried by entering it again; one taken at a reconvergence header leads back to the wait there (07 R189, 19 R402). -/
def Frag.leave (f : Frag) (skip : Bool) : Frag :=
  { f with
    handler := .none, pc := if skip then nextWord f.tpc else f.tpc, blk := f.tblk,
    phase := f.tphase, tphase := .run, pend := .none, stall := if f.tphase = .reconv then 14 else 0,
    free := false, count := f.count + 1 }

end Sys2Proof.Machine
end

