-- ==== Sys2Proof/Machine/Translate.lean ====
section
/-! DEFINITION. The physical map (01 R21, R22), L2 placement (13 R294, R295) and the lookup of virtual addresses (13 R305 to R308). -/

namespace Sys2Proof.Machine
open Sys2Proof

/-! ### The physical map -/

/-- Bytes from one die base to the next (01 R21). -/
def dieStride : Nat := 0x2000000000
/-- Bytes of device DRAM on a die. -/
def dieBytes : Nat := 0x1E00000000
/-- Bytes of a die's bounce buffer, the last of its DRAM. -/
def bounceBytes : Nat := 0x4000000
def hostBase : Nat := 0x10000000000000
def hostLimit : Nat := 0x20000000000000
def peerBase : Nat := 0x20000000000000
def peerStride : Nat := 0x100000000000
def peerBytes : Nat := 0x8000000000

/-- Device DRAM of some die (01 R21). -/
def isDevice (pa : Nat) : Bool := decide (pa < 4 * dieStride) && decide (pa % dieStride < dieBytes)

/-- A die's bounce buffer (01 R21). -/
def isBounce (pa : Nat) : Bool := isDevice pa && decide (dieBytes - bounceBytes ≤ pa % dieStride)

/-- The host aperture (01 R21). -/
def isHost (pa : Nat) : Bool := decide (hostBase ≤ pa ∧ pa < hostLimit)

/-- The peer device whose aperture holds an address (01 R21). -/
def peerOf (pa : Nat) : Option Nat :=
  if peerBase ≤ pa ∧ (pa - peerBase) / peerStride < 256 ∧ (pa - peerBase) % peerStride < peerBytes then
    some ((pa - peerBase) / peerStride)
  else none

/-- The channel of a granule of a die under a placement (01 R22), and its position within the channel. -/
def channelOf (isLocal : Bool) (pa : Nat) : Nat × Nat :=
  let g := pa % dieStride / 512
  if isLocal then (g / 3145728, g % 3145728)
  else
    let q := g / 80
    ((g % 80 + (q ^^^ (q >>> 5) ^^^ (q >>> 11)) % 80) % 80, q)

/-- The core whose slice serves for a core's own: itself, or, with that slice out of service, the other of its pair, or the lowest good one of the cluster (17 R371). -/
def State.sliceFor (s : State) (c : Nat) : Nat :=
  let pair := c / 2 * 2 + (1 - c % 2)
  if (s.core c).slice then c
  else if (s.core pair).slice then pair
  else (((List.range 4).map fun i => c / 4 * 4 + i).find? fun d => (s.core d).slice).getD c

/-- The core whose slice is home to a physical line under a placement (01 R22). -/
def State.homeCore (s : State) (isLocal : Bool) (pa : Nat) : Nat :=
  s.sliceFor (80 * (pa / dieStride % 4) + (channelOf isLocal pa).1)

/-- The range table entries of a partition over an address. -/
def Part.rangesOver (p : Part) (pa : Nat) : List RangeEntry :=
  (p.ranges.rows.map (·.2)).filter fun e => e.valid && decide (e.base ≤ pa ∧ pa ≤ e.limit)

/-- The placement of a physical address: that of the ranges over it. Those of one partition do not overlap, and those of two never reach one DRAM position under two placements (13 R306; log 64), so it is that of every region whose access they grant. -/
def State.isLocal (s : State) (pa : Nat) : Bool := s.parts.rows.any fun r => r.2.enable && (r.2.rangesOver pa).any (·.local_)

/-- The core whose slice is home to a physical line. -/
def State.home (s : State) (line : Nat) : Nat := s.homeCore (s.isLocal (128 * line)) (128 * line)

/-! ### Live snapshots -/

/-- The partition of a group. -/
def State.partOf (s : State) (uid : Nat) : Option Nat :=
  ((s.groups.get uid).bind fun (g : Group) => s.blocks.get g.block).bind fun (b : Block) =>
    (s.launches.get b.launch).map fun l => l.part

/-- The snapshot number that a log entry records (09 R232, 10 R281, 14 R331). -/
def LogEntry.snapOf (e : LogEntry) : Option Nat :=
  match e.kind with
  | .snap | .fill => some (e.data.getD 0 0)
  | .result => if e.data.getD 20 0 = 1 then e.data[22]? else none
  | .pub | .unmerged | .storeOrder | .peer | .xfetch | .xstat | .clk | .digest | .coreRead | .sysrd | .svc | .view | .coll | .trap => none

/-- The import mark that it records (14 R331). -/
def LogEntry.markOf (e : LogEntry) : Option Nat := if e.kind = .result ∧ e.data.getD 20 0 = 1 then e.data[21]? else none

/-- The snapshot numbers recorded in the logs of a partition's runs not yet checked (09 R232): of the entry states, and of the snaps, gate results and fills of the parts that are over and of those still running. -/
def State.loggedSnaps (s : State) (part : Nat) : List Nat :=
  let mine := fun (c : Check) => !c.decided && (match s.launches.get c.launch with | some l => l.part == part | none => false)
  let over_ := s.checks.rows.flatMap fun r =>
    if mine r.2 then (r.2.entries.rows.map fun e => e.2.snap) ++ r.2.logs.rows.flatMap fun x => x.2.filterMap LogEntry.snapOf else []
  let running := s.groups.rows.flatMap fun r =>
    if (s.partOf r.1 == some part) && (match s.blocks.get r.2.block with | some b => b.check.isSome | none => false) then r.2.log.filterMap LogEntry.snapOf else []
  (over_ ++ running).eraseDups

/-- The snapshot numbers that a partition's groups and jobs hold (09 R232). -/
def State.heldSnaps (s : State) (part : Nat) : List Nat :=
  ((s.groups.rows.filterMap fun r => if r.2.life ≠ .ended ∧ s.partOf r.1 = some part then some r.2.snap else none)
    ++ s.jobs.rows.filterMap fun r => if r.2.part = part then some r.2.snap else none).eraseDups

/-- Whether a live snapshot reads a line as it was before its partition's first version of it (09 R228, R232). -/
def State.needsBase (s : State) (line : Nat) : Bool :=
  s.versions.any fun v => decide (v.line = line) && (match v.part with
    | none => false
    | some p => !(s.versions.any fun w => decide (w.line = line ∧ w.part = v.part ∧ w.round < v.round))
        && (s.heldSnaps p ++ s.loggedSnaps p).any fun n => decide (n < v.round))

/-! ### L2 placement -/

/-- The set bits of a 16-bit mask, rising. -/
def setBits (m : BitVec 16) : List Nat := (List.range 16).filter fun i => m.getLsbD i

/-- Whether a group's core has a slice as its near slice (01 R20). -/
def State.isNear (s : State) (uid slice : Nat) : Bool :=
  match s.groups.get uid with
  | some g => s.sliceFor g.core == slice
  | none => false

/-- Whether what an L2 entry holds is still there: a private line until its layer is fired or discarded, a spilled line or an update-only copy until it is handed to a round. -/
def State.stands (s : State) (slice : Nat) (e : L2Line) : Bool :=
  match e.kind with
  | .cached => true
  | .priv => s.green.any fun h => h.line == e.line
  | .spill => s.buffer.any fun b => b.spilled && b.line == e.line && s.isNear b.group slice
  | .copy => s.updates.any fun u => u.addr / 128 == e.line && s.isNear u.group slice

/-- Whether an entry may not be evicted (13 R295, 16 R344): a version pinned for a live snapshot under a newer one, the value before all versions among them, greenware, a repeat run's private line within the version budget, a spilled line, an update-only copy. Older versions are retired as they fall out of reach (09 R232), so one that stands under a newer one is held to be pinned. -/
def State.pinned (s : State) (full : Bool) (slice : Nat) (e : L2Line) : Bool :=
  s.stands slice e
    && (match e.kind with
        | .cached => decide (2 ≤ (s.versions.filter fun v => decide (v.line = e.line ∧ v.part.isSome)).length) || s.needsBase e.line
        | .priv => !full || s.green.any fun h => h.line == e.line && (match h.layer with | some y => y.run == 1 | none => false)
        | .spill | .copy => true)

/-- The position of a line within its channel (13 R294); a line of host memory, which has no channel, takes that of its address under hashed placement (DESIGN CHOICE, log 64). -/
def linePos (isLocal : Bool) (pa : Nat) : Nat := 4 * (channelOf isLocal pa).2 + pa / 128 % 4

/-- A line is filled into a slice on behalf of a virtual device (13 R294, R295): a hit moves it to the front; a miss takes a free allotted way of its set, or that of the least recently used evictable line. None where the fill has to wait. A record with no way, which R291 refuses, caches nothing. Every entry is a physical line in one way, with all its versions, and none is compressed: the spec says neither which lines compress nor how versions of a line share ways (DESIGN CHOICE, log 64). `full` says that the version budget is used up. -/
def State.fillSlice (s : State) (slice part vdev : Nat) (isLocal : Bool) (line : Nat) (kind : L2Kind) (full : Bool) : Option State :=
  let held := s.l2.getD slice []
  match held.find? fun e => decide (e.line = line ∧ e.kind = kind) with
  | some e => some { s with l2 := s.l2.put slice (e :: held.filter fun x => decide (x.line ≠ line ∨ x.kind ≠ kind)) }
  | none =>
    let p := s.part part
    let groups := setBits p.colours
    let pos := linePos isLocal (128 * line)
    let set := 64 * groups.getD (pos / 64 % max groups.length 1) 0 + pos % 64
    let ways := setBits (p.vd vdev).ways
    let busy := held.filter fun e => decide (e.set = set) && ways.contains e.way
    let new := fun (w : Nat) => ({ set := set, way := w, line := line, part := part, vdev := vdev, kind := kind } : L2Line)
    if ways.isEmpty then some s
    else
      match ways.find? fun w => !(busy.any fun e => e.way == w) with
      | some w => some { s with l2 := s.l2.put slice (new w :: held) }
      | none =>
        ((busy.filter fun e => !s.pinned full slice e).getLast?).map fun v =>
          { s with l2 := s.l2.put slice (new v.way :: held.filter fun e => decide (e ≠ v)) }

/-- A line is filled into its home slice. -/
def State.fillHome (s : State) (part vdev : Nat) (line : Nat) (kind : L2Kind) (full : Bool) : Option State :=
  s.fillSlice (s.home line) part vdev (s.isLocal (128 * line)) line kind full

/-- A line is filled into a core's near slice: a host line, a spilled line or an update-only copy (09 R227, R237, R238). -/
def State.fillNear (s : State) (core part vdev : Nat) (line : Nat) (kind : L2Kind) (full : Bool) : Option State :=
  s.fillSlice (s.sliceFor core) part vdev (s.isLocal (128 * line)) line kind full

/-- The occupancy counter of a virtual device in a slice (13 R296). -/
def State.occupancyIn (s : State) (slice part vdev : Nat) : Nat :=
  ((s.l2.getD slice []).filter fun e => decide (e.part = part ∧ e.vdev = vdev) && s.stands slice e).length

/-- The occupancy counters of a virtual device summed over slices (17 R377). -/
def State.occupancy (s : State) (part vdev : Nat) : Nat :=
  (s.l2.keys.map fun k => s.occupancyIn k part vdev).sum

/-! ### Regions and ranges -/

/-- A region attribute entry from its 128 bits (13 R305); none where the write is refused. A root that is no multiple of 4,096 and a peer in an entry of kind host are taken as written: no refusal of R305 names them (DESIGN CHOICE, log 46). -/
def regionOf (e : BitVec 128) : Option Region :=
  let w := e.toNat
  let kind := bitsAt w 7 2
  let span := bitsAt w 9 7
  let peer := bitsAt w 48 8
  if bitsAt w 16 32 ≠ 0 ∨ bitsAt w 1 2 ≠ 0 ∨ kind = 3 ∨ span < 32 ∨ 76 < span ∨ (kind = 0 ∧ peer ≠ 0) then none
  else some { valid := bitAt w 0, root := bitsAt w 72 56, share := BitVec.ofNat 16 (bitsAt w 56 16), peer := peer,
              span := span, kind := kind, stream := bitAt w 6, local_ := bitAt w 5, page := bitsAt w 3 2 }

/-- A range table entry from its 128 bits (13 R306); none where its own fields refuse it: kind 11, a limit below its base, and reserved bits that are not zero, which R306 gives as zero without naming their refusal (DESIGN CHOICE, log 64). -/
def rangeOf (e : BitVec 128) : Option RangeEntry :=
  let w := e.toNat
  let base := bitsAt w 98 30
  let limit := bitsAt w 68 30
  let kind := bitsAt w 6 2
  if bitsAt w 8 36 ≠ 0 ∨ bitsAt w 1 2 ≠ 0 ∨ kind = 3 ∨ limit < base then none
  else some { valid := bitAt w 0, base := base * 2 ^ 26, limit := limit * 2 ^ 26 + (2 ^ 26 - 1),
              share := BitVec.ofNat 16 (bitsAt w 52 16), peer := bitsAt w 44 8, kind := kind,
              local_ := bitAt w 5, canRead := bitAt w 3, canWrite := bitAt w 4 }

/-- The page shift of a region (13 R305, R307). -/
def Region.shift (r : Region) : Nat :=
  match r.page with | 0 => 12 | 1 => 16 | 2 => 21 | _ => 26

/-- What an access needs (13 R307 steps 6 and 7). -/
inductive Access where
  | load | store | atomic | fetch
  deriving DecidableEq, Repr

/-- Step 7 of 13 R307: some range matches the region and grants the access. -/
def Part.rangeGrants (p : Part) (r : Region) (acc : Access) (pa : Nat) : Bool :=
  (p.rangesOver pa).any fun e =>
    decide (e.kind = r.kind) && decide (e.local_ = r.local_) && (decide (r.kind ≠ 2) || decide (e.peer = r.peer))
      && (match acc with
          | .load | .fetch => e.canRead
          | .store => e.canWrite
          | .atomic => e.canRead && e.canWrite)

/-! ### The walk -/

/-- The outcome of a translation (13 R307). -/
inductive XResult where
  | ok (pa : Nat) (r : Region)
  | protect (malformed : Bool)
  | declined
  | absent (page : Nat)
  deriving DecidableEq, Repr

/-- The outcome of a walk: a leaf entry, or the steps that end it. -/
inductive Walk where
  | leaf (e : Nat)
  | refused (malformed : Bool)
  | declined
  | absent
  deriving DecidableEq, Repr

/-- The walk of 13 R307 from a node down the indices, top level first. -/
def walk (mem : Memory) (nodeOk : Nat → Bool) (shift : Nat) (node : Nat) : List Nat → Walk
  | [] => .refused true
  | i :: rest =>
    if !nodeOk node then .refused false
    else
      let e := fromBytes (Memory.readN mem (node + 8 * i) 8)
      let addr := bitsAt e 12 44 * 4096
      let wrong := match rest with
        | [] => decide (addr % 2 ^ shift ≠ 0)
        | _ :: _ => decide (bitsAt e 1 3 ≠ 0)
      if bitsAt e 56 8 ≠ 0 ∨ bitsAt e 5 7 ≠ 0 ∨ wrong = true then .refused true
      else if !bitAt e 0 then (if bitAt e 4 then .declined else .absent)
      else
        match rest with
        | [] => .leaf e
        | _ :: _ => walk mem nodeOk shift addr rest

/-- The table indices of a page number, top level first (13 R307). -/
def walkIndices (levels page : Nat) : List Nat :=
  (List.range levels).reverse.map fun i => page / 2 ^ (9 * i) % 512

/-- Rights of 13 R307 step 6. -/
def rightsGrant (acc : Access) (r w x : Bool) : Bool :=
  match acc with
  | .load => r
  | .store => w
  | .atomic => r && w
  | .fetch => x

/-- A cached translation of a page (13 R308). -/
def tlbFind (es : List TlbEntry) (part vdev shift va : Nat) : Option TlbEntry :=
  es.find? fun e => decide (e.part = part ∧ e.vdev = vdev ∧ e.shift = shift ∧ e.page = va / 2 ^ shift * 2 ^ shift)

/-- A translation without its side effects: the result and the page's translation where there is one (13 R307). -/
def State.lookup (s : State) (part vdev core va : Nat) (acc : Access) : XResult × Option TlbEntry :=
  let p := s.part part
  match (p.vd vdev).regions.get (va / 2 ^ 76 % 16) with
  | none => (.protect false, none)
  | some r =>
    if !r.valid || decide (va % 2 ^ 76 / 2 ^ r.span ≠ 0) then (.protect false, none)
    else
      let sh := r.shift
      let page := va / 2 ^ sh * 2 ^ sh
      let finish := fun (e : TlbEntry) =>
        let pa := e.frame + va % 2 ^ sh
        if !rightsGrant acc e.r e.w e.x then (XResult.protect false, some e)
        else if !p.rangeGrants r acc pa then (XResult.protect false, some e)
        else (XResult.ok pa r, some e)
      match (tlbFind (s.tlbCore.getD core []) part vdev sh va).or
            (tlbFind (s.tlbDie.getD (dieOfCore core) []) part vdev sh va) with
      | some e => finish e
      | none =>
        let levels := (r.span - sh + 8) / 9
        let nodeOk := fun n => (p.rangesOver n).any (·.canRead)
        match walk s.mem nodeOk sh r.root (walkIndices levels (va % 2 ^ r.span / 2 ^ sh)) with
        | .refused m => (.protect m, none)
        | .declined => (.declined, none)
        | .absent => (.absent page, none)
        | .leaf e =>
          finish { part := part, vdev := vdev, page := page, shift := sh, frame := bitsAt e 12 44 * 4096,
                   r := bitAt e 1, w := bitAt e 2, x := bitAt e 3 }

/-- A translation enters the core's TLB and the die's, and is among those used (13 R308). -/
def State.cache (s : State) (core : Nat) (e : TlbEntry) : State :=
  let put := fun (n : Nat) (es : List TlbEntry) => if es.contains e then es else (e :: es).take n
  { s with
    tlbCore := s.tlbCore.put core (put 256 (s.tlbCore.getD core [])),
    tlbDie := s.tlbDie.put (dieOfCore core) (put 12288 (s.tlbDie.getD (dieOfCore core) [])),
    usedPages := if s.usedPages.contains e then s.usedPages else e :: s.usedPages }

/-- Whether a frame's address lies in a page that a running launch has fetched from (02 R31). -/
def State.codeProtected (s : State) (pa : Nat) : Bool :=
  s.codePages.any fun c => decide (c.frame ≤ pa ∧ pa < c.frame + 2 ^ c.shift)

end Sys2Proof.Machine
end

