-- ==== Sys2Proof/Machine/Rounds.lean ====
section
/-! DEFINITION. The ordering machine of chapter 09 below translation: what a reader of a line sees (R228), buffering (R227), handing stores to a round (R229), closing a round (R230), atomics at the home (R236), reductions (R237), and the host's reads and writes (R238). -/

namespace Sys2Proof.Machine
open Sys2Proof

/-! ### Lines -/

/-- The line of a physical address as the home ALU holds it. -/
def State.homeLine (s : State) (line : Nat) : Line := mkLine fun i => Memory.read s.mem (128 * line + i)

/-- Memory with a whole line replaced. -/
def Memory.putLine (m : Memory) (line : Nat) (l : Line) : Memory := Memory.writeN m (128 * line) l.toList

/-- The mask of n bytes of a line from a byte offset. -/
def byteMask (off n : Nat) : Mask := BitVec.ofNat 128 ((2 ^ n - 1) * 2 ^ off)

/-- A line holding bytes from an offset upward. -/
def lineWith (off : Nat) (bs : List Byte) : Line := mkLine fun i => if off ≤ i then bs.getD (i - off) 0 else 0

/-! ### Readers -/

/-- Who reads: the party (jobs read without their issuer's unpublished stores, 09 R240), the parties whose published writes it sees as its own, each with the stores handed before it (none: all), the jobs that are earlier than a job, of its layer and of none, partition, snapshot number, import mark and private layer. -/
structure Reader where
  party : Party
  also : List (Party × Option Nat) := []
  job : Nat := 0
  seen : Nat := 0
  part : Nat
  snap : Nat
  mark : Nat
  layer : Option Layer
  seg : Nat
  deriving DecidableEq, Repr

/-- The private layer of a run of a block (16 R339): a primary under HOLD, a shadow or a keeping run; a tile sequencer's is that of its anchor block (09 R226). -/
def Ctx.layer (c : Ctx) : Option Layer :=
  match c.b.check with
  | none => none
  | some k => if c.b.run = 1 ∧ c.l.hdr.early then none else some { check := k, run := c.b.run, index := c.b.index }

/-- The reader that a group is. -/
def Ctx.reader (c : Ctx) : Reader :=
  { party := .group c.uid, part := c.l.part, snap := c.g.snap, mark := c.g.mark, layer := c.layer,
    seg := c.seg }

/-- Whether a private store is one of the reader's run: of its layer, or, for a repeat run, made by its primary in an earlier segment (16 R339; log 10). -/
def inLayer (rd : Reader) (h : Handed) : Bool :=
  match rd.layer, h.layer with
  | some x, some y => x.check == y.check && x.index == y.index && (x.run == y.run || (y.run == 1 && decide (h.seg < rd.seg)))
  | _, _ => false

/-- The newest version of a line at or below a reader's snapshot, of its partition. -/
def State.ownVersion (s : State) (rd : Reader) (line : Nat) : Option Version :=
  s.versions.find? fun v => decide (v.line = line ∧ v.part = some rd.part ∧ v.round ≤ rd.snap)

/-- The version of a line a reader sees (09 R228 item 3, R243): its partition's newest at or below its snapshot, or a version of another partition once the gate stamp it has for the reader's partition is at or below the import mark. The rounds of two partitions are unrelated: of the two the one made later is taken (DESIGN CHOICE, log 73). Versions stand newest first. -/
def State.versionFor (s : State) (rd : Reader) (line : Nat) : Option Version :=
  let other := s.versions.find? fun v =>
    decide (v.line = line ∧ v.part.isSome ∧ v.part ≠ some rd.part)
      && (match v.stamps.get rd.part with | some t => decide (t ≤ rd.mark) | none => false)
  let best := match s.ownVersion rd line, other with
    | some a, some b => if a.seq < b.seq then some b else some a
    | none, x => x
    | x, none => x
  best.or (s.versions.find? fun v => decide (v.line = line ∧ v.part = none))

/-- Insertion of an item by identifier and order (09 R230, R237). -/
def insertBy {α : Type} (key : α → Nat × Nat) (item : α) : List α → List α
  | [] => [item]
  | first :: later =>
    let before := decide ((key item).1 < (key first).1) || (decide ((key item).1 = (key first).1) && decide ((key item).2 < (key first).2))
    if before then item :: first :: later else first :: insertBy key item later

/-- Items by ascending identifier, then order. -/
def sortBy {α : Type} (key : α → Nat × Nat) (xs : List α) : List α :=
  xs.foldl (fun acc x => insertBy key x acc) []

/-- Private stores in the order in which they lie over one another: by round, in one round by identifier, then as they were handed (16 R339, 09 R230). -/
def sortLayer (hs : List Handed) : List Handed := sortBy (fun h => (h.round, 0)) (sortBy (fun h => (h.ident, h.order)) hs)

/-- The private stores of a line that lie over the version a reader sees (16 R339): those of its run from the round of its partition's version on up to its snapshot. They lie over a version of another partition too (DESIGN CHOICE, log 73). -/
def State.privateOver (s : State) (rd : Reader) (line : Nat) : List Handed :=
  if rd.layer.isNone then []
  else
    let from_ := (s.ownVersion rd line).elim 0 (·.round)
    sortLayer ((s.green ++ s.past).filter fun h => decide (h.line = line ∧ from_ ≤ h.round ∧ h.round ≤ rd.snap) && inLayer rd h)

/-- Whether a reader sees a published write above its snapshot as its own (09 R228 item 2, R234): its own, or that of an earlier job of its partition and run (R240). -/
def Reader.sees (rd : Reader) (o : OwnPut) : Bool :=
  (match rd.party, o.party with
    | .group u, .group v => u == v
    | .jobs p l, .jobs q m => p == q && (if m.isNone then decide (o.order < rd.seen) else decide (m = l) && decide (o.order < rd.job))
    | _, _ => false)
  || rd.also.any fun x => decide (x.1 = o.party) && (match x.2 with | none => true | some n => decide (o.order < n))

/-- The bytes of a mask are all set. -/
def wholeLine (m : Mask) : Bool := m == BitVec.allOnes 128

/-- A line with its poison under the stores of a private layer. -/
def overPrivate (b : Line × Bool) (hs : List Handed) : Line × Bool :=
  hs.foldl (fun x h => (overlay h.mask h.data x.1, (x.2 && !wholeLine h.mask) || h.poison)) b

/-- A reader's view of a line with its poison (09 R228, 17 R370). -/
def State.view (s : State) (rd : Reader) (line : Nat) : Line × Bool :=
  let base := match s.versionFor rd line with
    | some v => (v.data, v.poison)
    | none => (s.homeLine line, s.poison.contains line)
  let l0 := overPrivate base (s.privateOver rd line)
  let l1 := (s.ownPuts.filter fun o =>
      rd.sees o && decide (o.line = line ∧ rd.snap < o.round)).foldl
    (fun l o => overlay o.mask o.data l) l0.1
  let l2 := (s.buffer.filter fun b => decide (Party.group b.group = rd.party ∧ b.line = line)).foldl
    (fun l b => overlay b.mask b.data l) l1
  (l2, l0.2)

/-- A line of a peer's memory as a group of a block reads it (09 R228, R238): as it stands, under the group's own stores that have not reached it yet, and, in a refill, under what its block has written back. -/
def State.peerView (s : State) (part uid line : Nat) (block : Option Nat) : Line × Bool :=
  let own := fun (o : OwnPut) => decide (o.party = .group uid) || (match block with | some b => decide (o.party = .block b) | none => false)
  let l1 := (s.ownPuts.filter fun o => own o && decide (o.line = line ∧ (s.part part).round < o.round)).foldl
    (fun l o => overlay o.mask o.data l) (s.homeLine line)
  let l2 := (s.buffer.filter fun b => decide (b.group = uid ∧ b.line = line)).foldl (fun l b => overlay b.mask b.data l) l1
  (l2, s.poison.contains line)

/-- Bytes a reader reads at a physical address, within one line, with the poison of the line. -/
def State.readBytes (s : State) (rd : Reader) (pa n : Nat) : List Byte × Bool :=
  let (l, p) := s.view rd (pa / 128)
  ((List.range n).map fun i => byteOf l (pa % 128 + i), p)

/-! ### Buffered stores -/

/-- The version budget of a partition in lines (16 R344): the host's number, or a quarter of the lines its colours hold. -/
def Part.budget (p : Part) : Nat :=
  p.vbudget.getD ((setBits p.colours).length * 64 * 16 * 320 / 4)

/-- Whether some snapshot number of a list reaches a version of a partition: at or above its round, and below that of the version after it (09 R232). -/
def State.reachedBy (s : State) (v : Version) (snaps : List Nat) : Bool :=
  let later := (s.versions.filter fun w => decide (w.line = v.line ∧ w.part = v.part ∧ v.round < w.round)).map fun w => w.round
  snaps.any fun n => decide (v.round ≤ n) && later.all fun m => decide (n < m)

/-- The versions that stand under a newer one of their line and partition. -/
def State.olderVersions (s : State) (part : Nat) : List Version :=
  s.versions.filter fun v => decide (v.part = some part)
    && s.versions.any fun w => decide (w.line = v.line ∧ w.part = v.part ∧ v.round < w.round)

/-- The private versions of a partition: the lines that each layer holds, closed or handed to the open round, at each round it took (16 R339). -/
def State.privateLines (s : State) (part : Nat) : List (Option Layer × Nat × Nat) :=
  (((s.green ++ s.handed).filter fun h => decide (h.part = part ∧ h.layer.isSome)).map fun h => (h.layer, h.line, h.round)).eraseDups

/-- The lines that count against a partition's budget (16 R344, 09 R227): private versions and spilled lines, and versions retained only for a run not yet checked. -/
def State.budgetUsed (s : State) (part : Nat) : Nat :=
  let logged := s.loggedSnaps part
  let retained := if logged.isEmpty then []
    else
      let held := s.heldSnaps part
      (s.olderVersions part).filter fun v => s.reachedBy v logged && !s.reachedBy v held
  (s.privateLines part).length
    + (s.buffer.filter fun b => b.spilled && s.partOf b.group == some part).length
    + retained.length

/-- Whether a partition's version budget is used up (16 R344). -/
def State.budgetFull (s : State) (part : Nat) : Bool := decide ((s.part part).budget ≤ s.budgetUsed part)

/-- The entries in the replay logs of a partition's segments under check (16 R345). -/
def State.logEntries (s : State) (part : Nat) : Nat :=
  let mine := fun (launch : Nat) => match s.launches.get launch with | some l => l.part == part | none => false
  (s.checks.rows.map fun r => if !r.2.decided && mine r.2.launch then r.2.entries.rows.length + (r.2.logs.rows.map fun x => x.2.length).sum else 0).sum
    + (s.groups.rows.map fun r => match s.blocks.get r.2.block with
        | some b => if b.check.isSome && b.run == 1 && mine b.launch then r.2.log.length else 0
        | none => 0).sum

/-- Whether a partition's check area has no room for one more log entry, beside its logs and the private lines beyond the budget (16 R344). An entry takes 64 bytes, and the logs of a partition with no check area take up none (DESIGN CHOICE, log 65). -/
def State.areaFull (s : State) (part : Nat) : Bool :=
  let p := s.part part
  let logs := if p.checkBytes = 0 then 0 else 64 * (s.logEntries part + 1)
  decide (p.checkBytes < logs + 128 * (s.budgetUsed part - p.budget))

/-- Bytes stored to a line by a group enter its core's store buffer (09 R227), over an entry of the same line where there is one; with 256 entries of the core taken, the group's oldest entry spills to the near slice, and where the group has none of them the line just stored (DESIGN CHOICE, log 74: R227 names only the oldest entry of the storing group). None where neither the version budget nor the slice has room for the spill. A line stored to through several regions is shared with every partition that one of them shares it with (09 R243). -/
def State.bufferStore (s : State) (c : Ctx) (pa : Nat) (bs : List Byte) (share : BitVec 16) : Option State :=
  let line := pa / 128
  let m := byteMask (pa % 128) bs.length
  let d := lineWith (pa % 128) bs
  if s.buffer.any fun b => decide (b.group = c.uid ∧ b.line = line) then
    some { s with buffer := s.buffer.map fun b =>
      if b.group = c.uid ∧ b.line = line then
        { b with mask := b.mask ||| m, data := overlay m d b.data, share := b.share ||| share } else b }
  else
    let e : BufLine := { group := c.uid, line := line, mask := m, data := d, poison := false, spilled := false,
                         share := share, vdev := c.l.hdr.vdev, order := s.handOrder }
    let onCore := s.buffer.filter fun b =>
      !b.spilled && (match s.groups.get b.group with | some g => decide (g.core = c.g.core) | none => false)
    if onCore.length < Config.storeBufferLines then
      some { s with buffer := s.buffer ++ [e], handOrder := s.handOrder + 1 }
    else
      let full := s.budgetFull c.l.part
      if full && !c.repeats then none
      else
        let out := (onCore.find? fun b => decide (b.group = c.uid)).elim line (·.line)
        let s1 : State := { s with
          buffer := (s.buffer ++ [e]).map fun b => if b.group = c.uid ∧ b.line = out then { b with spilled := true } else b,
          handOrder := s.handOrder + 1 }
        let filled := s1.fillNear c.g.core c.l.part c.l.hdr.vdev out .spill full
        if c.repeats then some (filled.getD s1) else filled

/-- A group's contribution to a reduction enters its update-only copy of the element, held at the core's near slice (09 R237). None where the copy finds no room there. -/
def State.addUpdate (s : State) (c : Ctx) (u : Update) (v : Nat) : Option State :=
  let same := fun (x : Update) =>
    decide (x.group = u.group ∧ x.addr = u.addr ∧ x.float = u.float ∧ x.aop = u.aop ∧ x.bytes = u.bytes)
  if s.updates.any same then
    some { s with updates := s.updates.map fun x => if same x then { x with vals := x.vals ++ [v] } else x }
  else ({ s with updates := s.updates ++ [{ u with vals := [v] }] } : State).fillNear c.g.core c.l.part c.l.hdr.vdev (u.addr / 128) .copy
    (s.budgetFull c.l.part)

/-! ### Handing to a round -/

/-- The logical core identifier of a group's core (09 R226). -/
def Ctx.ident (c : Ctx) : Nat :=
  4 * c.b.lcluster + ((c.b.cores.zip c.b.lcores).find? fun x => x.1 == c.g.core).elim 0 (·.2)

/-- The identifier of a host or peer write (09 R226, R238). -/
def hostIdent : Nat := 1024

/-- A line of stores handed to a partition's open round, a round opened where none is open (09 R229). -/
def State.hand (s : State) (h : Handed) : State :=
  { s.updPart h.part fun p => { p with roundOpen := true } with
    handed := s.handed ++ [{ h with order := s.handOrder, round := (s.part h.part).round + 1 }],
    handOrder := s.handOrder + 1 }

/-- The lines that a checked primary publishes openly, for the report of 16 R351. -/
def State.noteLines (s : State) (c : Ctx) (lines : List Nat) : State :=
  match c.check with
  | none => s
  | some k =>
    if c.b.run = 1 ∧ c.layer.isNone then
      { s with checks := s.checks.upd k fun ch => { ch with
          lines := lines.foldl (fun ls x => if ls.contains x then ls else ls ++ [x]) ch.lines } }
    else s

/-- A line of stores as a group, its block or its job hands it (09 R229, R240). -/
def Ctx.handed (c : Ctx) (n grp line : Nat) (m : Mask) (d : Line) (poison : Bool) (share : BitVec 16) : Handed :=
  { part := c.l.part, round := n, layer := c.layer, seg := c.seg, group := grp, ident := c.ident, order := 0, line := line,
    mask := m, data := d, poison := poison, share := share, vdev := c.l.hdr.vdev }

/-- A group's buffered stores, update-only copies and its block's pending write-back lines with the physical lines they go to, handed to the open round (09 R229); for the anchor block the tile sequencer's stores go with them (09 R226). Of one publish, the lines are handed as their first stores came, the group's and the sequencer's alike, and the write-back lines last, and a later one wins a byte (DESIGN CHOICE, log 74: R230 ranks the publishes of a core and not the stores of one). Answers the number of the round, none where there was nothing to hand. -/
def State.handGroup (s : State) (c : Ctx) (uids : List Nat) (wb : List (Nat × WbLine × BitVec 16)) : State × Option Nat :=
  let n := (s.part c.l.part).round + 1
  let bufs := s.buffer.filter fun b => uids.contains b.group
  let upds := s.updates.filter fun u => uids.contains u.group
  if bufs.isEmpty && upds.isEmpty && wb.isEmpty then (s, none)
  else
    let s1 := bufs.foldl (fun s b => s.hand (c.handed n b.group b.line b.mask b.data b.poison b.share)) s
    let s2 := wb.foldl (fun s w => s.hand (c.handed n c.uid w.1 (BitVec.allOnes 128) w.2.1.data w.2.1.poison w.2.2)) s1
    let s3 := upds.foldl (fun (s : State) u =>
      { s.updPart c.l.part (fun p => { p with roundOpen := true }) with
        handedUpd := s.handedUpd ++ [{ part := c.l.part, ident := c.ident, order := s.handOrder, upd := u }],
        handOrder := s.handOrder + 1 }) s2
    (({ s3 with
       buffer := s3.buffer.filter fun b => !uids.contains b.group,
       updates := s3.updates.filter fun u => !uids.contains u.group,
       ownPuts := s3.ownPuts ++ (bufs.map fun b =>
         ({ party := .group b.group, round := n, order := s.handOrder, line := b.line, mask := b.mask, data := b.data } : OwnPut))
         ++ wb.map fun w => { party := .block c.g.block, round := n, order := s.handOrder, line := w.1, mask := BitVec.allOnes 128, data := w.2.1.data } } : State).noteLines c
      (bufs.map (fun b => b.line) ++ wb.map (fun w => w.1)), some n)

/-! ### Versions -/

/-- The value of a line before anything versioned it is kept as a version of no partition, for readers below every round (09 R228). -/
def State.keepBase (s : State) (line : Nat) : State :=
  if s.versions.any fun v => decide (v.line = line ∧ v.part = none) then s
  else
    let base : Version :=
      { line := line, part := none, round := 0, seq := 0, data := s.homeLine line,
        poison := s.poison.contains line, share := 0, stamps := Table.empty, vdev := 0 }
    { s with versions := s.versions ++ [base] }

/-- The owner of a DRAM line: the one enabled partition whose range holds it (17 R367). -/
def State.lineOwner (s : State) (line : Nat) : Option (Nat × Nat) :=
  match (s.parts.rows.filter fun r => r.2.enable && !(r.2.rangesOver (128 * line)).isEmpty).map (·.1) with
  | [p] => some (p, 0)
  | _ => none

/-- The owner of an L2 line: the enabled partition that holds its set-group (17 R367). -/
def State.l2Owner (s : State) (line : Nat) : Option (Nat × Nat) :=
  (s.l2.rows.findSome? fun r => r.2.find? fun e => e.line == line).bind fun e =>
    if (s.part e.part).enable && (s.part e.part).colours.getLsbD (e.set / 64) then some (e.part, e.vdev % 8) else none

/-- A poisoned line is recorded, and charged to its owner where it has one (17 R367, R368). -/
def State.notePoison (s : State) (line : Nat) (owner : Option (Nat × Nat)) : State :=
  let s1 := if s.poison.contains line then s else { s with poison := line :: s.poison }
  let s2 := if s1.poisonList.length < 256 then { s1 with poisonList := s1.poisonList ++ [128 * line] }
    else { s1 with poisonDropped := s1.poisonDropped + 1 }
  let e : ErrEntry :=
    { ty := 0x05, code := codeNum .poison, unit := 3, owner := owner, core := s.home line,
      bank := 0, line := 128 * line, launch := 0xFFFFFFFF, block := 0xFFFFFFFF }
  (s2.count 4 1 (owner.map (·.1))).logError e

/-- The stores and update-only copies of a round for a line, in the order in which they are applied (09 R230, R237). -/
def roundFor (puts : List Handed) (upds : List HandedUpd) (line : Nat) : List Handed × List HandedUpd :=
  (sortBy (fun h => (h.ident, h.order)) (puts.filter fun h => decide (h.line = line)),
   sortBy (fun h => (h.ident, h.order)) (upds.filter fun h => decide (h.upd.addr / 128 = line)))

/-- The virtual device for which a round's version of a line is placed: that of the store or copy applied last (13 R295). -/
def lastVdev (puts : List Handed) (upds : List HandedUpd) (line : Nat) : Nat :=
  let r := roundFor puts upds line
  match r.2.getLast?, r.1.getLast? with | some u, _ => u.upd.vdev | none, some h => h.vdev | none, none => 0

/-- One line of a closing round takes its version (09 R230): from the home value, the ordinary stores by identifier, then the update-only copies by identifier; the result is also the home's new value. Stores through a peer aperture reach the peer (09 R238). -/
def State.closeLine (s : State) (part n : Nat) (puts : List Handed) (upds : List HandedUpd) (line : Nat) : State :=
  let s := s.keepBase line
  let (mine, us) := roundFor puts upds line
  let d1 := mine.foldl (fun l h => overlay h.mask h.data l) (s.homeLine line)
  let d2 := us.foldl (fun l h =>
    let off := h.upd.addr % 128
    let old := fromBytes ((List.range h.upd.bytes).map fun i => byteOf l (off + i))
    let new := combine h.upd.float h.upd.aop h.upd.bytes old h.upd.vals
    overlay (byteMask off h.upd.bytes) (lineWith off (toBytes h.upd.bytes new)) l) d1
  let covered := mine.foldl (fun m h => m ||| h.mask) 0
  let poisoned := (s.poison.contains line && !wholeLine covered) || mine.any (·.poison) || us.any (·.upd.poison)
  let share := mine.foldl (fun m h => m ||| h.share) (us.foldl (fun m h => m ||| h.upd.share) 0)
  let vd := lastVdev puts upds line
  let s1 := { s with
    mem := Memory.putLine s.mem line d2,
    versions := { line := line, part := some part, round := n, seq := s.vseq + 1, data := d2,
                  poison := poisoned, share := share, stamps := Table.empty, vdev := vd } :: s.versions,
    vseq := s.vseq + 1,
    poison := if poisoned then s.poison else s.poison.filter (· != line),
    sent := match peerOf (128 * line) with
      | some _ => s.sent ++ mine.flatMap fun (h : Handed) =>
          (lanesOf h.mask).map fun i => Sent.peerWrite (128 * line + i) [byteOf h.data i]
      | none => s.sent }
  if poisoned && !s.poison.contains line then s1.notePoison line (some (part, vd)) else s1

/-- A store of a private layer takes its round in the layer (16 R339), where it is kept with its mask until the kiln decides: what the run reads of the line is composed when it is read. -/
def State.closePrivate (s : State) (n : Nat) (h : Handed) : State := { s with green := s.green ++ [{ h with round := n }] }

/-- A private line with its place in the L2; one that finds none lies in the partition's check area (16 R344). -/
def State.placePrivate (s : State) (n : Nat) (h : Handed) : State :=
  let s1 := s.closePrivate n h
  (s1.fillHome h.part h.vdev h.line .priv (s1.budgetFull h.part)).getD s1

/-- A line that a repeat run absorbs at its primary's round (16 R339). -/
def State.absorb (s : State) (n : Nat) (h : Handed) : State :=
  { s.placePrivate n { h with order := s.handOrder } with handOrder := s.handOrder + 1 }

/-- Lines enter their home slices, each for its virtual device (13 R295); none where one of them has to wait. -/
def State.fillAll (s : State) (part : Nat) (full : Bool) (ls : List (Nat × Nat × L2Kind)) : Option State :=
  ls.foldlM (fun s x => s.fillHome part x.2.1 x.1 x.2.2 full) s

/-- The open round of a partition takes effect (09 R229, R230): every line touched has its version. Answers the lines to be placed, each with its virtual device and kind. -/
def State.closeLines (s : State) (part : Nat) : State × List (Nat × Nat × L2Kind) :=
  let n := (s.part part).round + 1
  let mine := s.handed.filter fun h => decide (h.part = part)
  let upds := s.handedUpd.filter fun h => decide (h.part = part)
  let open_ := mine.filter fun h => h.layer.isNone
  let priv := mine.filter fun h => h.layer.isSome
  let touched : List Nat := open_.map (fun h => h.line) ++ upds.map (fun h => h.upd.addr / 128)
  let lines := touched.eraseDups
  let s1 := { s with handed := s.handed.filter (fun h => decide (h.part ≠ part)),
                     handedUpd := s.handedUpd.filter fun h => decide (h.part ≠ part) }
  let s2 := lines.foldl (fun s l => s.closeLine part n open_ upds l) s1
  let s3 := priv.foldl (fun s h => s.closePrivate n h) s2
  (s3.updPart part fun q => { q with round := n, roundOpen := false },
    (lines.map fun l => (l, lastVdev open_ upds l, .cached)) ++ priv.map fun h => (h.line, h.vdev, .priv))

/-- The open round of a partition closes; none where a line of it finds no place in its home slice, so that the close waits (13 R295). -/
def State.closeRound (s : State) (part : Nat) : Option State :=
  let r := s.closeLines part
  r.1.fillAll part (r.1.budgetFull part) r.2

/-- The snap step (09 R231): S becomes the partition's P; a published write at or below it is reached through its version, and is forgotten once no job of the group, and for a write of its block no group of it, has an S below it. -/
def State.snapTo (s : State) (uid n : Nat) : State :=
  let jobSnaps := (s.jobs.filter fun _ j => decide (j.group = uid)).rows.map fun r => r.2.snap
  let bid := ((s.groups.get uid).map fun (g : Group) => g.block).getD 0
  let mates := (s.groups.filter fun k g => decide (g.block = bid ∧ k ≠ uid ∧ g.life ≠ .ended)).rows.map fun r => r.2.snap
  let kept := fun (o : OwnPut) =>
    if o.party = .group uid then jobSnaps.any fun m => decide (m < o.round)
    else if o.party = .block bid then (jobSnaps ++ mates).any fun m => decide (m < o.round)
    else true
  { s.updGroup uid (fun g => { g with snap := max g.snap n }) with
    ownPuts := s.ownPuts.filter fun o => decide (n < o.round) || kept o }

/-! ### Atomics at the home (09 R236) -/

/-- Bytes at the home ALU. -/
def State.homeBytes (s : State) (pa n : Nat) : List Byte := Memory.readN s.mem pa n

/-- A location is changed at its home outside any round's stores, for a virtual device and shared as its region says: the round open, or opened, touches the line (09 R229, R230, R243). -/
def State.performAt (s : State) (part vdev pa : Nat) (share : BitVec 16) (bs : List Byte) : State :=
  let s1 := s.keepBase (pa / 128)
  let s2 := s1.hand { part := part, round := 0, layer := none, seg := 0, group := 0, ident := 0, order := 0, line := pa / 128, mask := 0,
                      data := Vector.replicate 128 0, poison := false, share := share, vdev := vdev }
  { s2 with mem := Memory.writeN s2.mem pa bs }

/-! ### The host and the peers (09 R238) -/

/-- The partitions that hold a range over an address and are enabled. -/
def State.holders (s : State) (pa : Nat) : List Nat :=
  (s.parts.rows.filter fun r => r.2.enable && !(r.2.rangesOver pa).isEmpty).map (·.1)

/-- Pieces of a byte string that lie in one line each: address and bytes. -/
def splitLines : Nat → Nat → List Byte → List (Nat × List Byte)
  | 0, _, _ => []
  | _ + 1, _, [] => []
  | fuel + 1, pa, bs =>
    let n := 128 - pa % 128
    (pa, bs.take n) :: splitLines fuel (pa + n) (bs.drop n)

/-- A write of identifier 1,024 within a line (09 R238): handed to the open round of every enabled partition that holds a range over the line, or written directly where none does. -/
def State.hostWriteLine (s : State) (pa : Nat) (bs : List Byte) : State :=
  let line := pa / 128
  match s.holders pa with
  | [] =>
    let s1 := { s with mem := Memory.writeN s.mem pa bs,
                       versions := s.versions.filter fun v => decide (v.line ≠ line) }
    if bs.length = 128 then { s1 with poison := s1.poison.filter (· != line) } else s1
  | ps => ps.foldl (fun s p => s.hand
      { part := p, round := 0, layer := none, seg := 0, group := 0, ident := hostIdent, order := 0, line := line,
        mask := byteMask (pa % 128) bs.length, data := lineWith (pa % 128) bs, poison := false, share := 0, vdev := 0 }) s

/-- A write of the host or a peer to a page of a running launch's code is not made, and is reported (02 R31). -/
def State.dropCodeWrite (s : State) (pa : Nat) : State :=
  s.logError { ty := 0x12, code := codeNum .accessProtection, unit := 8, owner := none, core := 0, bank := 0,
               line := pa / 128 * 128, launch := 0xFFFFFFFF, block := 0xFFFFFFFF }

/-- A host or peer write, line by line. -/
def State.hostWrite (s : State) (pa : Nat) (bs : List Byte) : State :=
  (splitLines (bs.length / 128 + 2) pa bs).foldl (fun s c =>
    if s.codeProtected c.1 then s.dropCodeWrite c.1 else s.hostWriteLine c.1 c.2) s

/-- The newest closed version of a line (09 R238), with poison. -/
def State.newest (s : State) (line : Nat) : Line × Bool :=
  match s.versions.find? fun v => decide (v.line = line) with
  | some v => (v.data, v.poison)
  | none => (s.homeLine line, s.poison.contains line)

/-- A byte of it, read without the rest of its line. -/
def State.newestByte (s : State) (a : Nat) : Byte :=
  match s.versions.find? fun v => decide (v.line = a / 128) with
  | some v => byteOf v.data (a % 128)
  | none => Memory.read s.mem a

/-- A host or peer read: the newest closed versions, and whether a line read is poisoned. -/
def State.hostRead (s : State) (pa n : Nat) : List Byte × Bool :=
  ((List.range n).map fun i => s.newestByte (pa + i),
   (List.range n).any fun i => (s.newest ((pa + i) / 128)).2)

/-- The bytes of a word of a launch's code: of a page that it has fetched from already, as they stood at the first fetch, so that no fetch sees a word change (02 R31); else the newest. With the poison of the line. -/
def State.codeRead (s : State) (launch pa n : Nat) : List Byte × Bool :=
  match s.codePages.find? fun c => decide (c.launch = launch ∧ c.frame ≤ pa ∧ pa < c.frame + 2 ^ c.shift) with
  | none => s.hostRead pa n
  | some c =>
    match s.versions.find? fun v => decide (v.line = pa / 128 ∧ v.seq ≤ c.seq) with
    | some v => ((List.range n).map fun i => byteOf v.data (pa % 128 + i), v.poison)
    | none => (Memory.readN s.mem pa n, s.poison.contains (pa / 128))

end Sys2Proof.Machine
end

