-- ==== Sys2Proof/Machine/Pager.lean ====
section
/-! DEFINITION. Translation with what it leaves behind (13 R307), the pager's requests (13 R309) and the bounce buffer (13 R311). -/

namespace Sys2Proof.Machine
open Sys2Proof

/-- `$trapinfo` of a global access (10 R252). -/
def accessInfo (lane va : Nat) : Nat := lane % 128 + va % 2 ^ 64 / 128 * 128

/-- A bounced line goes where its page now is: into the frame, or, of a run with a private layer, into that layer (13 R311, 16 R339, R342). A frame that a running launch has fetched from meanwhile takes no write (02 R31): that of a line whose issuer has long been credited is dropped and reported as a host's is (DESIGN CHOICE, log 77). -/
def State.placeBounced (s : State) (pa : Nat) (b : BounceLine) : State :=
  match b.priv with
  | some h => s.placePrivate h.round { h with line := pa / 128 }
  | none =>
    if s.codeProtected pa then s.dropCodeWrite pa
    else
    let s1 : State := { s with
      mem := (lanesOf b.mask).foldl (fun m i => Memory.write m (pa + i) (byteOf b.data i)) s.mem,
      versions := s.versions.filter (fun v => decide (v.line ≠ pa / 128)),
      poison := if wholeLine b.mask then s.poison.filter (· != pa / 128) else s.poison }
    if b.poison then s1.notePoison (pa / 128) (some (b.part, b.vdev)) else s1

/-- The bounced lines of a page found present are merged into its frame, in arrival order (13 R311). -/
def State.mergeBounce (s : State) (e : TlbEntry) : State :=
  let mine := fun (b : BounceLine) =>
    decide (b.part = e.part ∧ b.vdev = e.vdev ∧ b.va / 2 ^ e.shift * 2 ^ e.shift = e.page)
  if !s.bounce.any mine then s
  else
    (s.bounce.filter mine).foldl (fun s b => s.placeBounced (e.frame + b.va % 2 ^ e.shift) b)
      { s with bounce := s.bounce.filter fun b => !mine b }

/-- The error entry of a malformed table entry (13 R307 step 3): it names no physical line, and to its partition the address translated (17 R374). -/
def malformedEntry (part vdev core va : Nat) : ErrEntry :=
  { ty := 0x0E, code := codeNum .accessProtection, unit := 8, owner := some (part, vdev), core := core,
    bank := 0, line := 0, launch := 0xFFFFFFFF, block := 0xFFFFFFFF, va := va % 2 ^ 64 }

/-- Translation of 13 R307 with what it leaves behind: the caches, the merge of bounced lines into a page that the walk finds present, whether or not its rights then grant the access, and the error entry of a malformed table entry. -/
def State.translate (s : State) (part vdev core va : Nat) (acc : Access) : State × XResult :=
  let (x, e) := s.lookup part vdev core va acc
  let s1 := match x, e with
    | .ok _ _, some t => (s.mergeBounce t).cache core t
    | .protect true, _ => s.logError (malformedEntry part vdev core va)
    | _, some t => s.mergeBounce t
    | _, none => s
  (s1, x)

/-- The lines that a die's bounce buffer still takes (01 R21, 13 R311). -/
def State.bounceRoom (s : State) (die : Nat) : Nat := bounceBytes / 128 - (s.bounce.filter fun b => b.die == die).length

/-! ### Page requests -/

/-- The 32-byte record of a page request (13 R309). -/
def PageReq.bytes (r : PageReq) : List Byte :=
  toBytes 10 r.va ++ toBytes 1 r.vdev ++ toBytes 1 r.access ++ toBytes 4 r.launch ++ toBytes 4 r.block
    ++ toBytes 4 r.seq ++ toBytes 8 0

/-- A request for a page that is not resident (13 R309): requests for one page merge until answered; while the ring is full a request waits in the front end. Answers the request's sequence number. -/
def State.requestPage (s : State) (part vdev page access launch block : Nat) : State × Nat :=
  let p := s.part part
  match p.pageReqs.rows.find? fun r => decide (r.2.va = page ∧ r.2.vdev = vdev) with
  | some r => (s, r.1)
  | none =>
    let n := p.pageSeq
    let outstanding := (p.pageReqs.filter fun _ r => r.posted).rows.length
    let room := match p.pageRing with | none => false | some r => decide (outstanding < r.entries)
    let req : PageReq := { seq := n, va := page, vdev := vdev, access := access, launch := launch, block := block, posted := room }
    let s1 := s.updPart part fun q => { q with
      pageReqs := q.pageReqs.put n req, pageSeq := n + 1,
      pageCount := if room then min (q.pageCount + 1) (2 ^ 32 - 1) else q.pageCount }
    match p.pageRing, room with
    | some r, true => (s1.poke (r.base + 32 * (n % r.entries)) req.bytes, n)
    | _, _ => (s1, n)

end Sys2Proof.Machine
end

