-- ==== Sys2Proof/Machine/Issue.lean ====
section
/-! DEFINITION. The shared prologue of every instruction (02 R54 steps 8 and 9, R30, R38), the advance of the program counter, fetching (02 R31), the replay log (16 R345), the abort for a page (07 R199), fusion (07 R189) and arrival at headers (02 R32 to R35). -/

namespace Sys2Proof.Machine
open Sys2Proof

/-- The outcomes of a step of this machine. -/
abbrev Out := Host.Outcome State Fault Refusal

/-! ### Advance -/

/-- A fragment past its instruction: at the next word, or, past the last word of its block, arriving at the fall-through successor (02 R28, R30). -/
def Frag.next (f : Frag) : Frag :=
  if f.atLast then { f with pc := nextWord f.pc, phase := .arrive, pend := .none, stall := 0, free := false, count := f.count + 1 }
  else { f with pc := nextWord f.pc, pend := .none, stall := 0, free := false, count := f.count + 1 }

/-- A fragment transferred to a header (02 R30). -/
def Frag.goto (f : Frag) (a : Addr) : Frag :=
  { f with pc := a, phase := .arrive, pend := .none, stall := 0, free := false, count := f.count + 1 }

/-- The group with a fragment past its instruction. -/
def Group.advance (g : Group) (fid : Nat) (f : Frag) : Group := g.putFrag fid f.next

/-- The state with the executing fragment past its instruction, its record read anew. -/
def State.advance (s : State) (uid fid : Nat) : State := s.updFrag uid fid Frag.next

/-! ### Fetching -/

/-- Whether a word is a header (02 R30). -/
def isHeader (w : Nat) : Bool := bitsAt w 56 8 == 1

/-- What fetching a word finds (02 R31): the word, a fault with its `$trapinfo`, or a page that is not resident. `malformed` says that the walk met a malformed table entry (13 R307). -/
inductive Fetch where
  | word (w : BitVec 64)
  | trap (code : Code) (info : Nat) (malformed : Bool)
  | absent (page : Nat)
  deriving DecidableEq, Repr

/-- The word at a virtual address as a fetch of the fragment's block reads it: translated like a load by the block, with the bounced lines of its page merged (13 R311), and, of a page that the launch has fetched from, as it stood at the first fetch (02 R31). A poisoned line answers its virtual address (17 R369), and a fault of translation what a global access of lane 0 does (10 R252). Nothing is changed. -/
def State.peek (s : State) (c : Ctx) (a : Addr) : Fetch :=
  match s.lookup c.l.part c.l.hdr.vdev c.g.core a.toNat .fetch with
  | (.ok pa _, e) =>
    let t := e.elim s s.mergeBounce
    let (bs, p) := t.codeRead c.b.launch pa 8
    if p then .trap .poison (a.toNat % 2 ^ 64 / 128 * 128) false else .word (wordOfBytes bs)
  | (.protect m, _) => .trap .accessProtection (accessInfo 0 a.toNat) m
  | (.declined, _) => .trap .pageNotResident (accessInfo 0 a.toNat) false
  | (.absent page, _) => if c.b.declined.contains page then .trap .pageNotResident (accessInfo 0 a.toNat) false else .absent page

/-- A page becomes read-only at a launch's first fetch from it (02 R31), and its translation is cached. -/
def State.noteFetch (s : State) (c : Ctx) (a : Addr) : State :=
  match s.lookup c.l.part c.l.hdr.vdev c.g.core a.toNat .fetch with
  | (.ok _ _, some e) =>
    let s1 := (s.mergeBounce e).cache c.g.core e
    if s1.codePages.any fun p => decide (p.launch = c.b.launch ∧ p.frame = e.frame ∧ p.shift = e.shift) then s1
    else { s1 with codePages := { launch := c.b.launch, frame := e.frame, shift := e.shift, seq := s1.vseq } :: s1.codePages }
  | _ => s

/-! ### The replay log -/

/-- What the log says of an operation (16 R345, R346). -/
inductive Consult where
  | perform
  | replay (data : List Nat) (s : State)
  | diverged (s : State)

/-- The kinds that a restart takes from the log: the irrevocable operations (07 R200, 16 R345). -/
def LogKind.irrevocable : LogKind → Bool
  | .result | .clk | .sysrd | .svc | .view | .coll | .xstat | .xfetch => true
  | .snap | .pub | .fill | .unmerged | .storeOrder | .peer | .digest | .coreRead | .trap => false

/-- The entries that a restart keeps: those of irrevocable operations, and a gate's denial (14 R331). -/
def LogEntry.kept (e : LogEntry) : Bool :=
  e.kind.irrevocable || (decide (e.kind = LogKind.trap) && decide (e.data.getD 3 0 = codeNum .gateDenied))

/-- The trap that the log has at the place where a fragment stands (16 R345). -/
def Ctx.loggedTrap (c : Ctx) : Option Trap :=
  match c.g.replay with
  | [] => none
  | e :: _ =>
    if e.kind = .trap ∧ e.data.getD 0 0 = c.f.pc.toNat ∧ (c.repeats = false ∨ e.data.getD 1 0 = c.f.count) then
      (codeOf (e.data.getD 3 0)).map fun code =>
        { kind := e.data.getD 2 0, code := code, pc := BitVec.ofNat 80 (e.data.getD 4 0), info := BitVec.ofNat 64 (e.data.getD 5 0) }
    else none

/-- A restarted primary that lost a segment reaches an operation that it had performed with other operands (16 R351, R352): the launch ends with ESCAPED_MISMATCH, which names the operation. -/
def State.escaped (s : State) (c : Ctx) : State :=
  let e : ErrEntry :=
    { ty := 0x0D, code := codeNum .escapedMismatch, unit := 7, owner := some (c.l.part, c.l.hdr.vdev), core := c.g.core, bank := 0,
      line := 0, va := c.f.pc.toNat % 2 ^ 64, launch := c.l.ident, block := c.b.index }
  ((s.logError e).count 10 1 (some c.l.part)).endLaunch c.b.launch 0x05 (codeNum .escapedMismatch)

/-- A logged operation is reached: a repeat run, or a restarted group with results left, takes the logged one (07 R200, 16 R346); any other performs it. A repeat run, and a primary restarted under 16 R352, compare their operands first. -/
def State.consult (s : State) (c : Ctx) (kind : LogKind) (op digest : Nat) : Consult :=
  match c.g.replay with
  | [] => if c.repeats then .diverged (s.stopRun c none) else .perform
  | e :: rest =>
    if e.kind = kind ∧ e.op = op then
      if e.digest = digest ∨ (!c.repeats ∧ !c.b.lost) then
        .replay e.data (s.updGroup c.uid fun g => { g with replay := rest, log := g.log ++ [e] })
      else if c.repeats then .diverged (s.stopRun c (some (op, digest)))
      else .diverged (s.escaped c)
    else if c.repeats then .diverged (s.stopRun c none)
    else if c.b.lost && kind.irrevocable && e.kind.irrevocable then .diverged (s.escaped c)
    else .perform

/-- An operation's result enters the log. -/
def State.record (s : State) (uid : Nat) (kind : LogKind) (op : Nat) (data : List Nat) (digest : Nat) : State :=
  s.updGroup uid fun g => g.logs { kind := kind, op := op, data := data, digest := digest }

/-- The operand digest of 16 R349 over lanes with their addresses and operand words. -/
def opDigest (op : Nat) (items : List (Nat × Nat × List Nat)) : Nat :=
  mix (items.foldl (fun t i =>
    (t + mix (op * 2 ^ 56 + i.1) + mix (i.2.1 % 2 ^ 64) + i.2.2.foldl (fun u w => u + mix w) 0) % 2 ^ 64) 0)

/-- The snap step of 09 R231 with its log entry: a repeat run snaps at the logged number. -/
def State.snap (s : State) (c : Ctx) : State :=
  let now := (s.part c.l.part).round
  match s.consult c .snap 0 0 with
  | .perform => (s.snapTo c.uid now).record c.uid .snap 0 [now] 0
  | .replay data t => t.snapTo c.uid (data.getD 0 now)
  | .diverged t => t

/-! ### The device -/

/-- Whether the device executes work (22 R433). -/
def State.running (s : State) : Bool :=
  match s.dev with
  | .ready | .maintenance => true
  | .startingCold | .startingWarm | .power _ | .off => false

/-! ### Waits that end without effect (07 R177, R197, 21 R413) -/

/-- What is left of a wait when it ends: a publish handed to its round (10 R254), an operation that has reached its server or its ring and the outcomes that have come stay; any other wait has had no effect. An enq or a gsig whose item or signal has not left starts anew, and publishes what has been stored since (08 R221, 14 R330). -/
def State.keepsWait (s : State) : Pend → Bool
  | .round _ | .svc _ | .done _ _ | .denied _ => true
  | .gate op => match s.gateOps.get op with | some o => !o.seen | none => false
  | .none | .handed _ _ | .published _ | .left _ | .sleep | .deq _ | .join _ _ | .bar _ => false

/-- What a wait that has ended leaves: the round of a publish that the instruction had made. -/
def Pend.ended : Pend → Pend
  | .handed n _ | .left n => .left n
  | _ => .none

/-- Whether a fragment stands at a waiting instruction whose wait ends without effect (07 R177, R193). -/
def State.waitEnds (s : State) (f : Frag) : Bool :=
  decide (f.phase = .run) && !s.keepsWait f.pend && (decide (f.pend ≠ .none) || (decide (5 ≤ f.stall ∧ f.stall ≤ 11) || f.stall == 14))

/-- The waits of a block's fragments end without effect, each to be issued again as if for the first time; a tagged one leaves no record (21 R419). -/
def State.endWaits (s : State) (bid : Nat) : State :=
  let us := s.unit bid
  let mine := s.groups.filter fun _ g => us.contains g.block
  let ps : List Pend := (mine.rows.flatMap fun r => r.2.frags.rows.map fun (x : Nat × Frag) => x.2.pend).filter fun p => !s.keepsWait p
  let t := s.dropWaits ps
  { t with
    groups := t.groups.map fun _ (g : Group) =>
      if us.contains g.block then
        { g with frags := g.frags.map fun _ (f : Frag) =>
            if s.keepsWait f.pend then f else { f with pend := f.pend.ended, stall := if s.waitEnds f then 0 else f.stall } }
      else g,
    samples := t.samples.filter fun x => x.retired.isSome ||
      !((mine.get x.group).bind fun (g : Group) => g.frags.get x.frag).any fun f =>
        decide (f.pc = x.pc ∧ f.count = x.count ∧ f.phase = .run) && s.waitEnds f }

/-- The log's entry of a gate operation from what its server answered (14 R331): the result block, the stamp, and the snapshot number taken. -/
def State.gateEntry (s : State) (part op : Nat) (d : List Nat) : LogEntry :=
  { kind := .result, op := op, data := d.take 22 ++ [(s.part part).round], digest := d.getD 22 0 }

/-- The log's entry of an outcome that has reached its fragment and that the instruction has not taken yet: of a gate operation, svc, or cjoin, the last two with their digests behind the value. -/
def State.outcomeEntry (s : State) (part : Nat) (f : Frag) : Option LogEntry :=
  match f.pend with
  | .done op d =>
    if 0xE8 ≤ op ∧ op ≤ 0xEC then some (s.gateEntry part op d)
    else if op = 0xF7 then some { kind := .svc, op := op, data := d.take 1, digest := d.getD 1 0 }
    else if op = 0xE4 then some { kind := .view, op := op, data := d.take 1, digest := d.getD 1 0 }
    else none
  | .denied gate => some (trapLogEntry f (faultAt .gateDenied f.pc gate))
  | _ => none

/-- The outcomes that have reached a group's fragments and are not in its log yet: a restart finds them there (07 R200, 14 R331). -/
def State.outcomes (s : State) (g : Group) (part : Nat) : List LogEntry := g.frags.rows.filterMap fun r => s.outcomeEntry part r.2

/-! ### Pages that are not resident -/

/-- Whether private data of a group belongs to a part that an abort restarts (07 R199, 16 R337): to its segment, and, in a tile set, made since its last rmark. -/
def State.abortedPart (s : State) (grps : List Nat) (c : Ctx) (h : Handed) : Bool :=
  match s.groups.get h.group with
  | some g => grps.contains h.group && decide (g.marks ≤ h.seg ∨ c.b.set.isSome) && decide ((g.restart.elim 0 (·.order)) ≤ h.order)
  | none => decide (c.seg ≤ h.seg)

/-- The groups' logs at an abort: what its part had behind its restart point stays, and what came after it is to be replayed, with the outcomes `more` that were still to be taken; a repeat run replays all of it, a primary the irrevocable operations (07 R200, 08 R219, R223). -/
def Group.rewind (g : Group) (all : Bool) (more : List LogEntry) : Group :=
  let r := g.restart
  let cut := r.elim 0 (·.cut)
  let again := ((g.log.drop cut).filter fun e => all || e.kept) ++ more
  { g with
    frags := Table.empty, sibs := Table.empty, flights := [], delivered := [], late := [],
    replay := again.filter (fun e => !e.isKeyed) ++ g.replay,
    keyed := again.filter (fun e => e.isKeyed) ++ g.keyed,
    base := g.issued.zipWith (· - ·) (r.elim [0, 0, 0, 0, 0] (·.ords)), log := g.log.take cut }

/-- A block is aborted for a page (07 R199): its unpublished stores, copies and greenware are discarded, the pager is asked, and the block leaves its cores until the page is resident or declined. In a tile set, whose segment rmark does not divide, what was published before a group's restart point stays, and so do its accumulators of then (16 R337). -/
def State.abortForPage (s : State) (c : Ctx) (page access : Nat) : State :=
  let bid := c.g.block
  let grps := (s.groups.filter fun _ g => decide (g.block = bid) && !g.seq).keys
  let rq := (s.endWaits bid).requestPage c.l.part c.l.hdr.vdev page access c.l.ident c.b.index
  let s1 : State := rq.1
  let s2 : State := { s1.dropPrivate fun h => s1.abortedPart grps c h && decide (h.layer = c.layer) with
    handed := s1.handed.filter fun h => !(h.layer.isSome && decide (h.layer = c.layer) && s1.abortedPart grps c h),
    buffer := s1.buffer.filter fun b => !grps.contains b.group,
    updates := s1.updates.filter fun u => !grps.contains u.group,
    ownPuts := s1.ownPuts.filter fun o => match o.party with | .group u => !grps.contains u | .jobs _ l => l.isNone || decide (l ≠ c.layer) | .block i => i != bid,
    groups := s1.groups.map fun k (g : Group) =>
      if grps.contains k && decide (g.life = GroupLife.live) then g.rewind c.repeats (s1.outcomes g c.l.part) else g }
  let s3 : State := match c.b.check with
    | none => s2
    | some k =>
      { s2 with checks := grps.foldl (fun cs u =>
          match s2.groups.get u with
          | none => cs
          | some g =>
            let slot := ({ c with g := g } : Ctx).slot
            cs.upd (checkKey k (if c.b.set.isSome then 0 else g.marks)) fun ch => { ch with
              runs := ch.runs.upd c.b.run fun r => { r with sums := match g.restart.bind (·.sums) with
                | some x => r.sums.put slot x
                | none => r.sums.del slot } }) s2.checks }
  { s3.updBlock bid (fun b => { b with life := .waitPage, pages := rq.2 :: b.pages, pending := [], pubPoison := none, order := s.uid }) with uid := s3.uid + 1 }

/-- The sequencer is suspended until its page is resident (06 R145): the request is made and the same instruction is issued again. -/
def State.suspendSeq (s : State) (c : Ctx) (page access : Nat) : State :=
  let s1 := (s.requestPage c.l.part c.l.hdr.vdev page access c.l.ident c.b.index).1
  s1.updFrag c.uid c.fid fun f => { f with stall := 3 }

/-- A page that is not resident, by the party that found it (07 R199, 06 R145). -/
def State.pageFault (s : State) (c : Ctx) (page access : Nat) : State :=
  if c.g.seq then s.suspendSeq c page access else s.abortForPage c page access

/-! ### What keeps an instruction from its effect -/

/-- What is found before an instruction takes effect (02 R30, R31, R54): a trap, with the error entry of a malformed table entry where there is one, or the page of a word to be reached that is not resident. -/
inductive Bar where
  | trap (t : Trap)
  | malformed (va : Nat) (t : Trap)
  | absent (page : Nat)
  deriving DecidableEq, Repr

/-- The state it leaves: the trap taken, or the block aborted for the page as for a fetch from it (02 R31, 13 R309). -/
def Ctx.barred (c : Ctx) (s : State) : Bar → State
  | .trap t => s.takeTrap c t
  | .malformed va t => (s.logError (malformedEntry c.l.part c.l.hdr.vdev c.g.core va)).takeTrap c t
  | .absent page => s.pageFault c page 2

/-- What a fetch that finds no word comes to, at the instruction that needs the word. -/
def Fetch.bar (a pc : Addr) : Fetch → Option Bar
  | .word _ => none
  | .trap code info false => some (.trap (faultAt code pc info))
  | .trap code info true => some (.malformed a.toNat (faultAt code pc info))
  | .absent page => some (.absent page)

/-- The check of 02 R30 before an instruction transfers control to a word: it must be a header. A word that cannot be fetched stops the instruction as the fetch of the word would (DEDUCED, log 9). -/
def State.reach (s : State) (c : Ctx) (a : Addr) : Option Bar :=
  let wrong := faultAt .branchNotHeader c.f.pc (a.toNat % 2 ^ 64)
  if a.toNat % 8 ≠ 0 then some (.trap wrong)
  else
    match s.peek c a with
    | .word w => if isHeader w.toNat then none else some (.trap wrong)
    | x => x.bar a c.f.pc

/-! ### The prologue -/

/-- Whether an operand of n registers lies beyond its allocation (02 R39 and R54 step 9): a vector register beyond the launch's, a scalar register beyond k255 at the sequencer. -/
def Ctx.beyond (c : Ctx) (u : Nat × Opnd) : Bool :=
  match u.2 with
  | .v i => !c.g.seq && decide (c.l.hdr.vregs < i.toNat + u.1)
  | .k i => decide ((if c.g.seq then 256 else 1024) < i.toNat + u.1)

/-- The checks before an instruction takes effect: step 9 of 02 R54, then the successor of the last word of a block (02 R30). The successor comes before the faults that the word itself raises later, such as POISON, MISALIGNED and ACCESS_BOUNDS: 02 R30 says only that it is before any effect (DESIGN CHOICE, log 9). -/
def State.precheck (s : State) (c : Ctx) (used : List (Nat × Opnd)) : Option Bar :=
  if used.any c.beyond then some (.trap (faultAt .badHandle c.f.pc s.word.toNat))
  else if c.f.atLast then s.reach c (nextWord c.f.pc)
  else none

/-- The registers of a list of operands. -/
def usedRegs (us : List (Nat × Opnd)) : List (Bool × Nat) := us.flatMap fun u => opndRegs u.1 u.2

/-- The outcome of an instruction's own part: its effect made and the fragment to advance, the effect made and the fragment placed already, a trap with no effect, or a wait with a stall reason of 07 R193. -/
inductive Act where
  | done (s : State)
  | placed (s : State)
  | trap (t : Trap)
  | wait (stall : Nat) (s : State)

/-- A trap taken by the executing fragment, as an outcome. -/
def Ctx.trapped (c : Ctx) (s : State) (t : Trap) : Out := .next (s.takeTrap c t)

/-- A trap taken by the executing fragment in a state that the instruction has already changed. -/
def Ctx.trapIn (c : Ctx) (s : State) (t : Trap) : State :=
  match s.ctxOf c.uid c.fid with
  | some d => s.takeTrap d t
  | none => s

/-- Whether a checked primary finds its log full (16 R344). -/
def Ctx.holdsUp (c : Ctx) (s : State) : Bool := c.b.check.isSome && c.b.run == 1 && s.areaFull c.l.part

/-- Whether an instruction of a checked primary would log more than the check area takes (16 R344). -/
def Ctx.logFull (c : Ctx) (s t : State) : Bool :=
  c.holdsUp s
    && decide (c.g.log.length < ((t.groups.get c.uid).map fun (g : Group) => g.log.length).getD 0)

/-- The next state of an instruction's outcome. A waiting instruction stays where it is and is issued again (07 R177); one whose log entry finds no room waits in version pressure (16 R344). -/
def Ctx.finish (c : Ctx) (s : State) : Act → Out
  | .done t => .next (if c.logFull s t then s.updFrag c.uid c.fid fun f => { f with stall := 10 } else t.advance c.uid c.fid)
  | .placed t => .next t
  | .trap t => c.trapped s t
  | .wait r t => .next (t.updFrag c.uid c.fid fun f => { f with stall := r })

/-- What the own part of an instruction on registers comes to: its trap, or the group it gives with the fragment gone on. -/
def Ctx.outcome (c : Ctx) (s : State) : Except Trap Group → Out
  | .error t => c.trapped s t
  | .ok g => .next (s.putGroup c.uid (g.advance c.fid (g.frags.getD c.fid c.f)))

/-- An instruction that computes on registers alone (05 R100): checks, guard (02 R38), poison of its sources (17 R369), and the group with the results written. `dsts` and `srcs` are the operands it uses with the registers each takes; `cross` says that sources are read in every lane of m0 (05 R102). Which lanes of a cross-lane source count as read for POISON is the model's choice (DESIGN CHOICE, log 70): all of m0, an index included, for permutes, broadcasts and shifts, and the effective lanes for votes, counts, scans, reductions and ranks, whose results depend on those alone. -/
def alu (s : State) (g : Guard) (dsts srcs : List (Nat × Opnd)) (cross : Bool)
    (k : Ctx → Mask → Except Trap Group) : Out :=
  match s.ctx with
  | none => .fault .noIssuer
  | some c =>
    match s.precheck c (dsts ++ srcs) with
    | some x => .next (c.barred s x)
    | none =>
      if c.eff g = 0 then .next (s.putGroup c.uid (c.g.advance c.fid c.f))
      else
        match c.g.poisoned (if cross then c.f.mask else c.eff g) (usedRegs srcs) with
        | some r => c.trapped s { kind := 0, code := .poison, pc := c.f.pc, info := poisonInfo r }
        | none => c.outcome s (k c (c.eff g))

/-- An instruction that reaches beyond the registers: privilege (02 R54 step 8), allocations of registers and of handles (step 9), then its own part once the effective mask is nonempty. `priv` says that the context may not execute the form, `bad` that a handle lies beyond its allocation. -/
def sysFull (s : State) (g : Guard) (priv bad : Ctx → Bool) (dsts srcs : List (Nat × Opnd))
    (k : Ctx → Mask → Act) : Out :=
  match s.ctx with
  | none => .fault .noIssuer
  | some c =>
    if priv c then c.trapped s (faultAt .privilege c.f.pc s.word.toNat)
    else if bad c then c.trapped s (faultAt .badHandle c.f.pc s.word.toNat)
    else
      match s.precheck c (dsts ++ srcs) with
      | some x => .next (c.barred s x)
      | none =>
        if c.eff g = 0 then .next (s.putGroup c.uid (c.g.advance c.fid c.f))
        else
          match c.g.poisoned (c.eff g) (usedRegs srcs) with
          | some r => c.trapped s { kind := 0, code := .poison, pc := c.f.pc, info := poisonInfo r }
          | none => c.finish s (k c (c.eff g))

/-- The same for a form any context may execute, with no handle. -/
def sysInstr (s : State) (g : Guard) (dsts srcs : List (Nat × Opnd)) (k : Ctx → Mask → Act) : Out :=
  sysFull s g (fun _ => false) (fun _ => false) dsts srcs k

/-! ### Sibling sets and fusion (07 R188 to R190) -/

/-- Whether a fragment belongs to a sibling set, itself or through the sets it split within. -/
def Group.inSet (g : Group) (sib : Option Nat) (id : Nat) : Nat → Bool
  | 0 => false
  | fuel + 1 =>
    match sib with
    | none => false
    | some k => k == id || g.inSet ((g.sibs.get k).bind (·.sib)) id fuel

/-- How many sibling sets enclose a fragment, its own among them. -/
def Group.depth (g : Group) (sib : Option Nat) : Nat → Nat
  | 0 => 0
  | fuel + 1 =>
    match sib with
    | none => 0
    | some k => 1 + g.depth ((g.sibs.get k).bind (·.sib)) fuel

/-- What the log says of a fragment that proceeds unmerged (04 R95, 07 R190): the header it waits at, its mask, the instructions behind it, and how many sets enclose it, by which the sets nested at one header are told apart (DEDUCED, log 72). -/
def Group.unmergedData (g : Group) (f : Frag) : List Nat :=
  [f.pc.toNat, f.mask.toNat, f.count, g.depth f.sib (g.sibs.rows.length + 1)]

/-- Whether a repeat run's log still has a waiting fragment proceed unmerged where it waits, as its primary did (04 R95, 16 R345). -/
def Group.toPart (g : Group) (f : Frag) : Bool :=
  decide (f.phase = .reconv) && g.replay.any fun e => decide (e.kind = .unmerged ∧ e.data = g.unmergedData f)

/-- Whether every live fragment of a set waits at its header (07 R189), none of them to proceed unmerged by the log. -/
def Group.setComplete (g : Group) (id : Nat) : Bool :=
  g.frags.rows.all fun r =>
    !(g.inSet r.2.sib id (g.sibs.rows.length + 1)) || (decide (r.2.sib = some id ∧ r.2.phase = .reconv) && !g.toPart r.2)

/-- The fusion of a complete set: one fragment with the union of the masks, the rounding state, trap registers and handler mark of the one with the lowest lane (04 R94, 08 R213), and the reconvergence header and set that the fragment that split had held. It continues past the header, ready from `now` on (07 R191), unless it now waits at the same header for the outer set. -/
def Group.fuse (g : Group) (now id : Nat) : Group :=
  let mine := g.frags.filter fun _ f => decide (f.sib = some id)
  let all := mine.rows.foldl (fun m r => m ||| r.2.mask) 0
  match mine.rows.find? fun r => r.2.mask.getLsbD (lowestLane all), g.sibs.get id with
  | some (k, f), some o =>
    let stay := decide (o.reconv = some f.pc ∧ o.sib.isSome)
    let f1 : Frag := { f with
      mask := all, reconv := o.reconv, sib := o.sib, phase := if stay then .reconv else .run,
      pc := if stay then f.pc else nextWord f.pc, stall := if stay then 14 else 0, ready := now }
    { g with frags := (g.frags.filter fun _ x => decide (x.sib ≠ some id)).put k f1, sibs := g.sibs.del id }
  | _, _ => g

/-- Every complete set fuses, innermost first. -/
def Group.fuseAll (g : Group) (now : Nat) : Nat → Group
  | 0 => g
  | fuel + 1 =>
    match g.sibs.rows.reverse.find? fun r =>
        g.setComplete r.1 && g.frags.rows.any fun x => decide (x.2.sib = some r.1) with
    | some r => (g.fuse now r.1).fuseAll now fuel
    | none => g

/-! ### Arrival at a header -/

/-- The fields of a header (02 R32). -/
def headerInfo (a : Addr) (w : Nat) : BlockInfo :=
  { hdr := a, len := bitsAt w 46 10, vmark := bitsAt w 22 8, smark := bitsAt w 12 10,
    recOff := signed 16 (bitsAt w 30 16) }

/-- The fault of a header (02 R33, R35), at a group or a sequencer. -/
def headerFault (seq : Bool) (vregs : Nat) (b : BlockInfo) : Option Code :=
  if b.len = 0 ∨ 256 < b.smark ∨ (seq ∧ b.vmark ≠ 0) then some .illegalEncoding
  else if vregs < (if b.vmark = 255 then 256 else b.vmark) ∨ (seq ∧ 64 < b.smark) then some .badHandle
  else none

/-- Control arrives at a header whose word is given: its rules are checked, a fragment at its reconvergence header waits or fuses, and any other goes to the first word, for which it is ready from then on (02 R33, 07 R189, R191). -/
def State.enterHeader (s : State) (c : Ctx) (w : BitVec 64) : State :=
  let a := c.f.pc
  if !isHeader w.toNat then s.takeTrap c (faultAt .branchNotHeader a (a.toNat % 2 ^ 64))
  else
    let b := headerInfo a w.toNat
    match headerFault c.g.seq c.l.hdr.vregs b with
    | some code => s.takeTrap c (faultAt code a w.toNat)
    | none =>
      if c.f.reconv = some a ∧ c.f.sib.isSome then
        let f : Frag := { c.f with blk := b, phase := .reconv, stall := 14 }
        let g := c.g.putFrag c.fid f
        s.putGroup c.uid (g.fuseAll s.tick (g.sibs.rows.length + 1))
      else
        s.putGroup c.uid (c.g.putFrag c.fid { c.f with
          blk := b, phase := .run, pc := nextWord a, stall := 0, ready := s.tick })

end Sys2Proof.Machine
end

