-- ==== Sys2Proof/Machine/Operands.lean ====
section
/-! DEFINITION. Every operand form: source modifiers (02 R41), registers of 32, 64 and 128 bits (02 R40), immediates (05 R107), memory addresses (02 R47, 10 R257), special registers (05 R117, 07 R196), and the shapes in which an instruction on registers reads and writes them. -/

namespace Sys2Proof.Machine
open Sys2Proof

/-! ### Modifiers -/

/-- The element width of a type for `.rot` (02 R41). -/
def rotWidth : Ty → Nat
  | .s4 | .n4 | .n4x8 => 4
  | .s8 | .n8 | .b8 | .e4m3 | .e5m2 | .n8x4 | .s8x4 => 8
  | .s16 | .n16 | .b16 | .f16 | .bf16 | .f16x2 | .bf16x2 => 16
  | .s32 | .n32 | .f32 | .b32 | .s64 | .n64 | .b64 | .b128 => 32

/-- The nibbles of a 32-bit value swapped within each byte. -/
def swapNibbles (x : Nat) : Nat := mapElems 8 4 (fun b _ => b % 16 * 16 + b / 16) x 0

/-- A source modifier applied to a 32-bit value (02 R41). -/
def applyMod (m : Modifier) (w x : Nat) : Nat :=
  let lo := x % 2 ^ 16
  let hi := x / 2 ^ 16 % 2 ^ 16
  let by_ := fun i => x / 2 ^ (8 * i) % 256
  match m with
  | .none => x
  | .lo => lo * 2 ^ 16 + lo
  | .hi => hi * 2 ^ 16 + hi
  | .swh => lo * 2 ^ 16 + hi
  | .rev => by_ 0 * 2 ^ 24 + by_ 1 * 2 ^ 16 + by_ 2 * 2 ^ 8 + by_ 3
  | .swb => by_ 2 * 2 ^ 24 + by_ 3 * 2 ^ 16 + by_ 0 * 2 ^ 8 + by_ 1
  | .swn => swapNibbles x
  | .rot => rotlN 32 x w

/-! ### Sources -/

/-- Source a of format A in a lane, of n registers, with its modifier. -/
def Group.srcA (g : Group) (f : FormA) (n j : Nat) : Nat :=
  applyMod f.modA (rotWidth f.ty) (g.wide n f.a j)

/-- Source b of format A in a lane, of n registers, with its modifier. -/
def Group.srcB (g : Group) (f : FormA) (n j : Nat) : Nat :=
  applyMod f.modB (rotWidth f.ty) (g.wide n f.b j)

/-- The immediate of format C, sign extended to 32 bits (05 R107). -/
def immWord (f : FormC) : Nat := sext 22 32 f.imm.toNat

/-- A source in a lane as a cross-lane source: zero outside m0 (05 R102). -/
def crossLane (active : Mask) (f : Nat → Nat) (j : Nat) : Nat := if active.getLsbD j then f j else 0

/-! ### Shapes of instructions on registers -/

/-- Format A, two sources: d(j) := op a(j) b(j), with nd, na and nb registers. -/
def aluA2 (s : State) (f : FormA) (nd na nb : Nat) (op : Nat → Nat → Nat) : Out :=
  alu s f.g [(nd, f.dst)] [(na, f.a), (nb, f.b)] false fun c m =>
    .ok (c.g.writes (destWrites m nd f.dst fun j => op (c.g.srcA f na j) (c.g.srcB f nb j)))

/-- Format A, one source. -/
def aluA1 (s : State) (f : FormA) (nd na : Nat) (op : Nat → Nat) : Out :=
  alu s f.g [(nd, f.dst)] [(na, f.a)] false fun c m =>
    .ok (c.g.writes (destWrites m nd f.dst fun j => op (c.g.srcA f na j)))

/-- Format B, three sources. -/
def aluB3 (s : State) (f : FormB) (nd na nb nc : Nat) (op : Nat → Nat → Nat → Nat) : Out :=
  alu s f.g [(nd, f.dst)] [(na, f.a), (nb, f.b), (nc, f.c)] false fun c m =>
    .ok (c.g.writes (destWrites m nd f.dst fun j =>
      op (c.g.wide na f.a j) (c.g.wide nb f.b j) (c.g.wide nc f.c j)))

/-- Format C, a source and the immediate. -/
def aluC1 (s : State) (f : FormC) (op : Nat → Nat) : Out :=
  alu s f.g [(1, f.dst)] [(1, f.a)] false fun c m =>
    .ok (c.g.writes (destWrites m 1 f.dst fun j => op (c.g.lane f.a j)))

/-! ### Addresses -/

/-- The signed 32-bit offset an offset register gives a lane; `k 1023` names none (02 R47). -/
def Group.offset (g : Group) (o : Opnd) (j : Nat) : Int :=
  if o = .k 1023 then 0 else signed 32 (g.lane o j)

/-- An offset register as a used operand; none where there is none. -/
def offUsed (o : Opnd) : List (Nat × Opnd) := if o = .k 1023 then [] else [(1, o)]

/-- The address of a lane (02 R47), with a displacement in units of the access size. -/
def Group.addr (g : Group) (f : FormE) (disp : Int) (j : Nat) : Nat :=
  wrap 80 ((g.pointer (4 * f.base.toNat) : Int) + g.offset f.off j + disp * (sizeBytes f.size : Int))

/-- The displacement of a plain access. -/
def dispE (f : FormE) : Int := signed 12 f.imm.toNat

/-- The displacement of format E's atomics (10 R261). -/
def dispA (f : FormE) : Int := signed 6 (f.imm.toNat % 64)

/-- The lanes that access: each of the effective mask, or one access for scalar data (10 R251). -/
def accessLanes (data : Opnd) (m : Mask) : List Nat := if opndScalar data then [0] else lanesOf m

/-- The lanes of an access with their addresses (02 R47). -/
def Ctx.addrs (c : Ctx) (f : FormE) (disp : Int) (m : Mask) : List (Nat × Nat) :=
  (accessLanes f.data m).map fun j => (j, c.g.addr f disp j)

/-- The base quad of format E as a used operand (02 R47). -/
def baseUsed (f : FormE) : List (Nat × Opnd) := [(3, .k (BitVec.ofNat 10 (4 * f.base.toNat)))]

/-! ### Special registers -/

/-- A field of the work identifier (01 R15): start bit and width. -/
def fieldAt (ws : List Nat) (n : Nat) : Nat × Nat := ((ws.take n).sum, ws.getD n 0)

/-- The work identifier of a lane of a group (01 R15). -/
def workId (h : Header) (blk gidx lane : Nat) : Nat :=
  blk + (if h.widths.getD 0 0 = 0 then 0 else lane)
    + (if h.widths.getD 1 0 = 0 then 0 else gidx * 2 ^ h.widths.getD 0 0)

/-- The value of a special register in a lane (05 R117, 07 R196); `vec` says that the destination is a vector register. `$core` at the sequencer reads E − 1 (06 R143). -/
def State.special (s : State) (c : Ctx) (n : Nat) (vec : Bool) (j : Nat) : Nat :=
  let w := workId c.l.hdr c.b.workid (if c.g.seq then 0 else c.g.idx) 0
  match n with
  | 0x000 => if vec then j else 0
  | 0x001 => if c.g.seq then 0 else c.g.idx
  | 0x002 => w % 2 ^ 32
  | 0x003 => w / 2 ^ 32 % 2 ^ 32
  | 0x004 => if vec ∧ c.l.hdr.widths.getD 0 0 ≠ 0 then j else 0
  | 0x005 => if c.g.seq ∨ c.l.hdr.widths.getD 1 0 = 0 then 0 else c.g.idx
  | 0x006 => let (b, k) := fieldAt c.l.hdr.widths 2; bitsAt w b k
  | 0x007 => let (b, k) := fieldAt c.l.hdr.widths 3; bitsAt w b k
  | 0x008 => let (b, k) := fieldAt c.l.hdr.widths 4; bitsAt w b k
  | 0x009 => let (b, k) := fieldAt c.l.hdr.widths 5; bitsAt w b k
  | 0x00A =>
    if c.g.seq then (match c.b.set.bind s.sets.get with | some t => t.blocks.length - 1 | none => 0) else c.lcore
  | 0x00B => c.b.lcluster
  | 0x00C => (if c.b.check.isSome then 1 else 0) + (if c.l.hdr.early then 2 else 0)
  | 0x00D => c.g.snap % 2 ^ 32
  | 0x010 => c.f.cause.toNat
  | 0x011 => c.f.tpc.toNat
  | 0x012 => c.f.tinfo.toNat
  | 0x020 => c.l.ident
  | 0x021 => c.b.index
  | 0x022 => c.l.hdr.vdev
  | 0x023 => c.l.hdr.priority
  | 0x024 => if c.l.hdr.patience = 0 then 2048 else c.l.hdr.patience
  | 0x025 => (c.l.hdr.ctxBase.toNat + c.b.index * c.l.hdr.ctxBytes) % 2 ^ 80
  | 0x026 => c.l.hdr.ctxBytes
  | 0x027 => if c.f.handler = .none then 0 else 1
  | _ => 0

end Sys2Proof.Machine
end

