-- ==== Sys2Proof/Machine/Publish.lean ====
section
/-! DEFINITION. Counted classes (10 R248 to R250), delivered faults (10 R280), signatures (16 R348), write-back of window lines (09 R234, 10 R258) and the publish that pub, phase, rmark, enq, gsig and exit make (10 R254). -/

namespace Sys2Proof.Machine
open Sys2Proof

/-- The state with the registers of a result written. -/
def State.writeRegs (s : State) (uid : Nat) (ws : List RegWrite) : State := s.updGroup uid fun g => g.writes ws

/-! ### Counted classes -/

/-- The operations of a class in flight (10 R248). -/
def Group.counter (g : Group) (cls : Nat) : Nat := (g.flights.filter fun f => f.cls == cls).length

/-- Whether all five counted classes are zero. -/
def Group.idle (g : Group) : Bool := g.flights.isEmpty

/-- The flights of a class with the completed ones at its front removed: a counter falls in issue order (10 R248). -/
def dropDone (cls : Nat) : List Flight → List Flight
  | [] => []
  | f :: fs => if f.cls == cls then (if f.done then dropDone cls fs else f :: fs) else f :: dropDone cls fs

/-- Every counter lowered as far as its completions allow. -/
def Group.settle (g : Group) : Group :=
  { g with flights := (List.range 5).foldl (fun fs cls => dropDone cls fs) g.flights }

/-- The number of a class's operations issued since the start. -/
def Group.ordOf (g : Group) (cls : Nat) : Nat := g.issued.getD cls 0

/-- An operation of a class is issued (10 R248). -/
def Group.raise (g : Group) (f : Flight) : Group :=
  { g with
    issued := g.issued.zipIdx.map fun p => if p.2 = f.cls then p.1 + 1 else p.1,
    flights := g.flights ++ [{ f with ord := g.ordOf f.cls + 1 }] }

/-- A flight of a class without effects at completion. -/
def Flight.plain (id cls : Nat) (pc : Addr) (mask : Mask) : Flight :=
  { id := id, cls := cls, ord := 0, done := false, pc := pc, mask := mask, writes := [], bad := none, peer := none }

/-- An operation of a group completes (10 R249). -/
def Group.complete (g : Group) (id : Nat) : Group :=
  ({ g with flights := g.flights.map fun f => if f.id = id then { f with done := true } else f } : Group).settle

/-- The operation that completes as it issues: raised and lowered. -/
def Group.pass (g : Group) (id cls : Nat) (pc : Addr) : Group := (g.raise (Flight.plain id cls pc 0)).complete id

/-- Whether a class is at its limit of 63, so that an instruction of the class waits at issue (10 R248). -/
def Group.full (g : Group) (cls : Nat) : Bool := decide (63 ≤ g.counter cls)

/-! ### Delivered faults -/

/-- A fault found after issue waits for its delivery point (10 R280); for a sequencer it ends the kernel at the next tsync, tsig, waitc or waitr that covers it (06 R173). -/
def State.deliver (s : State) (uid : Nat) (d : Delivered) : State :=
  s.updGroup uid fun g => { g with delivered := g.delivered ++ [d] }

/-- The delivered faults that a wait with a limit for each class covers (10 R250). -/
def Group.covered (g : Group) (limit : Nat → Option Nat) : List Delivered :=
  g.delivered.filter fun d =>
    match limit d.cls with
    | none => false
    | some n => decide (n < 63) && decide (n ≤ g.ordOf d.cls - d.ord)

/-- The one from the oldest issuing instruction (10 R280). -/
def oldest (ds : List Delivered) : Option Delivered :=
  ds.foldl (fun o d => match o with
    | none => some d
    | some x => if d.seq < x.seq then some d else some x) none

/-- The trap of a delivered fault. -/
def Delivered.trap (d : Delivered) : Trap := { kind := 0, code := d.code, pc := d.pc, info := d.info, blk := some d.blk }

/-- The fault that a list of pending ones gives, with the group that has none of them left (10 R280). -/
def takeDelivered (ds : List Delivered) (g : Group) : Option (Trap × Group) :=
  (oldest ds).map fun d => (d.trap, { g with delivered := g.delivered.filter fun x => !ds.contains x })

/-! ### Signatures (16 R348) -/

/-- Accumulators at a segment's start. -/
def Sums.zero : Sums := { store := 0, stores := 0, reg := 0, regs := 0 }

/-- Terms added to the store (`reg` false) or register sum of the run that a context belongs to. -/
def State.addTerms (s : State) (c : Ctx) (reg : Bool) (terms : List Nat) : State :=
  match c.check with
  | none => s
  | some k =>
    let sum := terms.sum
    { s with checks := s.checks.upd k fun ch => { ch with
        runs := ch.runs.upd c.b.run fun r =>
          let t := r.sums.getD c.slot Sums.zero
          let t1 : Sums :=
              (if reg then { t with reg := t.reg + BitVec.ofNat 64 sum, regs := t.regs + BitVec.ofNat 64 terms.length }
               else { t with store := t.store + BitVec.ofNat 64 sum, stores := t.stores + BitVec.ofNat 64 terms.length })
          { r with sums := r.sums.put c.slot t1 } } }

/-- The term of one 32-bit word: its address, byte mask and data with the disabled bytes zero. -/
def storeTerm (a e d : Nat) : Nat := mix ((mix ((a % 2 ^ 64) ^^^ (e * 2 ^ 60)) + d) % 2 ^ 64)

/-- The terms of bytes written at a virtual address, those of a mask (bit i: byte i). -/
def storeTerms (va : Nat) (bs : List Byte) (on : Nat → Bool) : List Nat :=
  let first := va / 4
  let last := (va + bs.length - 1) / 4
  (List.range (if bs.isEmpty then 0 else last + 1 - first)).filterMap fun t =>
    let a := 4 * (first + t)
    let at_ := fun (i : Nat) => if va ≤ a + i ∧ on (a + i - va) then bs[a + i - va]? else none
    let e := ((List.range 4).map fun i => if (at_ i).isSome then 2 ^ i else 0).sum
    let d := fromBytes ((List.range 4).map fun i => (at_ i).getD 0)
    if e = 0 then none else some (storeTerm a e d)

/-- The terms of the live registers that a header's marks name, over the given lanes. -/
def foldTerms (c : Ctx) (lanes : Mask) : List Nat :=
  let gi := if c.g.seq then 0x1F else c.g.idx
  let nv := if c.f.blk.vmark = 255 then 256 else c.f.blk.vmark
  let vec := if c.g.seq then [] else
    (lanesOf lanes).flatMap fun j => (List.range nv).map fun i =>
      mix ((gi * 2 ^ 56) ^^^ (j * 2 ^ 48) ^^^ (i * 2 ^ 32) ^^^ (c.g.lane (.v (BitVec.ofNat 10 i)) j))
  let sca := (List.range (4 * c.f.blk.smark)).map fun i =>
    mix ((gi * 2 ^ 56) ^^^ (0xFF * 2 ^ 48) ^^^ (i * 2 ^ 32) ^^^ (c.g.sreg i).toNat)
  vec ++ sca

/-- The register signature is folded (16 R348). -/
def State.foldRegs (s : State) (c : Ctx) (lanes : Mask) : State :=
  if c.b.check.isNone then s else s.addTerms c true (foldTerms c lanes)

/-! ### Write-back of window lines -/

/-- The partitions a store to a frame is shared with (09 R243): the region's sharing and the ranges' shared-with. -/
def State.shareOf (s : State) (part pa : Nat) (r : Region) : BitVec 16 :=
  r.share &&& ((s.part part).rangesOver pa).foldl (fun m e => m ||| e.share) 0

/-- An inbound line whose page is not resident enters the bounce buffer of its core's die, and the page is asked for (13 R311). Of a run with a private layer it is a write in that layer, which `priv` holds (16 R339, R342). -/
def State.bounceLine (s : State) (core part vdev va : Nat) (m : Mask) (d : Line) (poison : Bool) (launch block : Nat) (priv : Option Handed) : State :=
  let sh := match (s.part part).vd vdev |>.regions.get (va / 2 ^ 76 % 16) with | some r => r.shift | none => 12
  let s1 := (s.requestPage part vdev (va / 2 ^ sh * 2 ^ sh) 3 launch block).1
  { s1 with bounce := s1.bounce ++ [{ die := dieOfCore core, part := part, vdev := vdev, va := va, mask := m, data := d, poison := poison, priv := priv }] }

/-- A line that a group of a run, its block or its job writes to a page that is not resident. -/
def State.bounceFor (s : State) (c : Ctx) (n grp va : Nat) (m : Mask) (d : Line) (poison : Bool) : State :=
  s.bounceLine c.g.core c.l.part c.l.hdr.vdev va m d poison c.l.ident c.b.index
    (if c.layer.isSome then some { c.handed n grp 0 m d poison 0 with order := s.handOrder } else none)

/-- Whether the bounce buffer of a core's die takes the lines of some addresses whose pages are not resident; inbound writes that it does not take are suspended (13 R311). -/
def State.roomFor (s : State) (part vdev core : Nat) (vas : List Nat) : Bool :=
  let away := vas.filter fun va => match (s.lookup part vdev core va .store).1 with
    | .absent _ => true
    | .ok _ _ | .protect _ | .declined => false
  decide (away.length ≤ s.bounceRoom (dieOfCore core))

/-- The same for the writes of a group, its block or its job. -/
def State.bounceFits (s : State) (c : Ctx) (vas : List Nat) : Bool := s.roomFor c.l.part c.l.hdr.vdev c.g.core vas

/-- The fault of a global write made after issue, by what translation answers (13 R307, 10 R280). -/
def xFault : XResult → Option Code
  | .ok _ _ => none
  | .protect _ => some .accessProtection
  | .declined => some .pageNotResident
  | .absent _ => none

/-- A pending write-back line reaches the round n its block publishes in (09 R234), the bounce buffer, or delivers its fault to the group that made it pending (10 R258, R280). -/
def State.placeLine (s : State) (c : Ctx) (n : Nat) (w : WbLine) : State × List (Nat × WbLine × BitVec 16) :=
  let r := s.translate c.l.part c.l.hdr.vdev c.g.core w.va .store
  let s1 : State := r.1
  let bad := fun (code : Code) =>
    s1.deliver w.group { seq := w.seq, cls := 1, ord := w.ord, bar := none, code := code, pc := w.pc, blk := w.blk,
                         info := BitVec.ofNat 64 w.va }
  let counted := s1.addTerms c false (storeTerms w.va w.data.toList fun _ => true)
  match r.2 with
  | .ok pa rg =>
    if s1.codeProtected pa then (bad .accessProtection, [])
    else (counted, [(pa / 128, w, s1.shareOf c.l.part pa rg)])
  | .absent _ => (counted.bounceFor c n c.uid w.va (BitVec.allOnes 128) w.data w.poison, [])
  | .protect _ => (bad .accessProtection, [])
  | .declined => (bad .pageNotResident, [])

/-- The pending write-back lines of a block, in order. -/
def State.placeLines (s : State) (c : Ctx) (n : Nat) : List WbLine → State × List (Nat × WbLine × BitVec 16)
  | [] => (s, [])
  | w :: ws =>
    let r := s.placeLine c n w
    let t := r.1.placeLines c n ws
    (t.1, r.2 ++ t.2)

/-- The physical lines that a block's pending write-back lines go to. -/
def State.pendingLines (s : State) (c : Ctx) : List Nat :=
  c.b.pending.filterMap fun w =>
    match (s.lookup c.l.part c.l.hdr.vdev c.g.core w.va .store).1 with
    | .ok pa _ => some (pa / 128)
    | .protect _ | .declined | .absent _ => none

/-! ### Publishing -/

/-- The issue streams whose stores a group's publish hands over: its own and, for the anchor block, its tile sequencer's (09 R226). -/
def State.publishers (s : State) (c : Ctx) : List Nat :=
  match c.b.set.bind s.sets.get with
  | none => [c.uid]
  | some t => if t.blocks.head? = some c.g.block then [c.uid, t.seqr] else [c.uid]

/-- How a publish stands: complete, or waiting with a stall reason. -/
inductive Pub where
  | done (s : State)
  | wait (stall : Nat) (s : State)
  | poison (info : BitVec 64) (s : State)

/-- What comes of a publish that is made now: nothing to wait for, a round to wait for, or no room yet. -/
inductive Hand where
  | clear (s : State)
  | round (n : Nat) (s : State)
  | wait (stall : Nat) (s : State)

/-- The lines a repeat run's publish makes private versions of, at the round its primary's publish took (16 R339). -/
def State.publishPrivate (s : State) (c : Ctx) (n : Nat) : State :=
  let uids := s.publishers c
  let w := s.placeLines c n (s.blocks.getD c.g.block c.b).pending
  let s1 : State := w.1.updBlock c.g.block fun b => { b with pending := [] }
  let bufs := s1.buffer.filter fun b => uids.contains b.group
  let items := bufs.map (fun b => (Party.group b.group, c.handed n b.group b.line b.mask b.data b.poison b.share))
    ++ w.2.map fun x => (Party.block c.g.block, c.handed n c.uid x.1 (BitVec.allOnes 128) x.2.1.data x.2.1.poison x.2.2)
  let s2 := items.foldl (fun s x => s.absorb n x.2) s1
  { s2 with
    buffer := s2.buffer.filter fun b => !uids.contains b.group,
    ownPuts := s2.ownPuts ++ items.map fun x =>
      { party := x.1, round := n, order := s1.handOrder, line := x.2.line, mask := x.2.mask, data := x.2.data } }

/-- The publishes that its primary's instruction made after the first, each time it was issued again (08 R221): a repeat run makes them with the first. -/
def State.publishAgain (s : State) (c : Ctx) : Nat → State
  | 0 => s
  | fuel + 1 =>
    match (s.groups.get c.uid).bind fun (g : Group) => g.replay.head? with
    | some e =>
      if e.kind = .pub ∧ e.op = 0 ∧ e.data.getD 1 0 = 1 then
        ((s.updGroup c.uid fun g => { g with replay := g.replay.drop 1, log := g.log ++ [e] }).publishPrivate c (e.data.getD 0 0)).publishAgain c fuel
      else s
    | none => s

/-- Whether an instruction has published before, and its wait has ended since (07 R177). -/
def Frag.published (f : Frag) : Option Nat := match f.pend with | .left n => some n | _ => none

/-- The lines that a publish of a run with a private layer would add to those that count against the budget (16 R344): spilled ones, and those that the layer holds in the open round already, count as it is. -/
def State.freshLines (s : State) (c : Ctx) : Nat :=
  let uids := s.publishers c
  let ls := ((s.buffer.filter fun b => uids.contains b.group && !b.spilled).map fun b => b.line) ++ s.pendingLines c
  (ls.eraseDups.filter fun l => !s.handed.any fun h => decide (h.layer = c.layer ∧ h.line = l)).length

/-- A line found uncorrectable before its publish makes the publishing instruction take POISON, once the other lines are published (17 R369); a repeat run takes the one of its log (R364). -/
def State.published (s : State) (c : Ctx) : Pub :=
  let logged := if c.repeats then (s.ctxOf c.uid c.fid).bind Ctx.loggedTrap else none
  match ((s.groups.get c.uid).bind fun (g : Group) => g.pubPoison).or ((logged.filter fun t => t.code == .poison).map (·.info)) with
  | none => .done s
  | some info => .poison info (s.updGroup c.uid fun g => { g with pubPoison := none })

/-- What there is to publish is handed to the open round (10 R254), once the group's store class is at zero. A repeat run's is absorbed at the logged round (16 R339, R345). Under HOLD it waits while the version budget has no room, a checked primary's while its log has none (16 R344), and any while a bounce buffer has none (13 R311). -/
def State.handOut (s : State) (c : Ctx) : Hand :=
  if c.g.counter 1 ≠ 0 || !s.bounceFits c (c.b.pending.map (·.va)) then .wait 6 s
  else if c.repeats then
    match s.consult c .pub 0 0 with
    | .replay d t => .clear ((if d.getD 0 0 = 0 then t else t.publishPrivate c (d.getD 0 0)).publishAgain c c.g.replay.length)
    | .perform => .clear s
    | .diverged t => .wait 6 t
  else
    let uids := s.publishers c
    let n := if c.layer.isSome then s.freshLines c else 0
    if c.layer.isSome ∧ n ≠ 0 ∧ (s.part c.l.part).budget < s.budgetUsed c.l.part + n then .wait 10 s
    else if c.b.check.isSome && s.areaFull c.l.part then .wait 10 s
    else
      let w := s.placeLines c ((s.part c.l.part).round + 1) c.b.pending
      let s1 : State := w.1.updBlock c.g.block fun b => { b with pending := [] }
      let h := s1.handGroup c uids w.2
      let again := c.f.published.isSome
      let s2 : State := if c.b.check.isSome && (!again || h.2.isSome) then h.1.record c.uid .pub 0 (h.2.getD 0 :: if again then [1] else []) 0 else h.1
      match h.2 with
      | some m => .round m s2
      | none => .clear s2

/-- The POISON of a line that is not there to be published, the block's and those of its publishers, falls to the group that publishes (17 R369). -/
def State.claimPoison (s : State) (c : Ctx) : State :=
  let us := s.publishers c
  match (us.findSome? fun u => (s.groups.get u).bind fun (g : Group) => g.pubPoison).or ((s.blocks.get c.g.block).bind fun (b : Block) => b.pubPoison) with
  | none => s
  | some info =>
    ((us.foldl (fun (s : State) u => s.updGroup u fun g => { g with pubPoison := none }) s).updGroup c.uid fun g =>
      { g with pubPoison := some info }).updBlock c.g.block fun b => { b with pubPoison := none }

/-- `handOut`, with what was lost of it before. -/
def State.handOver (s : State) (c : Ctx) : Hand :=
  match s.handOut c with
  | .clear t => .clear (t.claimPoison c)
  | .round n t => .round n (t.claimPoison c)
  | .wait r t => .wait r t

/-- A publish (10 R254): it waits, as `wait` of the round's number, until the round closes; with nothing to hand it completes at once. An instruction that acts after its publish and is issued again before the round has closed waits for that round; and one that has fired greenware (`out`) for the round that it goes in (14 R332). -/
def State.publish (s : State) (c : Ctx) (wait : Nat → Pend := .round) (out : Bool := false) : Pub :=
  let waits := fun (m : Nat) (t : State) => Pub.wait 6 (t.updFrag c.uid c.fid fun f => { f with pend := wait m })
  match c.f.pend with
  | .done _ _ | .published _ => .done s
  | .round n | .handed n _ => if n ≤ (s.part c.l.part).round then s.published c else .wait 6 s
  | .none | .left _ | .sleep | .deq _ | .svc _ | .gate _ | .join _ _ | .bar _ | .denied _ =>
    match s.handOver c with
    | .wait r t => .wait r t
    | .round m t => waits m t
    | .clear t =>
      let now := (t.part c.l.part).round
      let due := max (c.f.published.getD 0) (if out then now + 1 else 0)
      if now < due then waits due t else t.published c

/-- The instruction that publishes and then acts. -/
def Ctx.afterPublish (c : Ctx) (s : State) (k : State → Act) (wait : Nat → Pend := .round) (out : Bool := false) : Act :=
  match s.publish c wait out with
  | .done t => k t
  | .wait r t => .wait r t
  | .poison info t => .placed (c.trapIn t { kind := 0, code := .poison, pc := c.f.pc, info := info })

end Sys2Proof.Machine
end

