-- ==== Sys2Proof/Machine/Segment.lean ====
section
/-! DEFINITION. Segments of checked blocks (16 R337): where a group's part begins and ends, and where a run closes. -/

namespace Sys2Proof.Machine
open Sys2Proof

/-- A run before it starts. -/
def SegRun.idle : SegRun :=
  { life := .none, block := 0, sums := Table.empty, cores := [], injected := false, void := false, stopOp := none }

/-- The record of a segment, its primary running (16 R337, R339). -/
def Check.start (launch index seg block : Nat) (cores : List Nat) : Check :=
  { launch := launch, index := index, seg := seg, entries := Table.empty, present := [], logs := Table.empty,
    runs := Table.empty.put 1 { SegRun.idle with life := .running, block := block, cores := cores },
    escaped := [], lines := [], decided := false, skipped := false, endK := Table.empty }

/-- A segment enters the lists of the cores that hold it (16 R356), the oldest names leaving after 65,536. -/
def State.noteHeld (s : State) (cores : List Nat) (n : SegName) : State :=
  let note := fun (r : CoreRec) => if r.held.contains n then r else { r with held := (n :: r.held).take 65536 }
  { s with coreRecs := cores.foldl (fun t k => t.put k (note (t.getD k CoreRec.reset))) s.coreRecs }

/-- A segment's name. -/
def segName (l : Launch) (b : Block) (seg : Nat) : SegName :=
  { part := l.part, ident := l.ident, index := b.index, seg := seg, check := b.check.map fun k => checkKey k seg }

/-- More cores hold a run (16 R351). -/
def SegRun.holdOn (r : SegRun) (cores : List Nat) : SegRun := { r with cores := (r.cores ++ cores).eraseDups }

/-- A group's part of a segment begins at an entry state (16 R337), on the cores where that is known. -/
def Check.enter (ch : Check) (idx : Nat) (cores : List Nat) (e : RestartPt) : Check :=
  { ch with
    entries := ch.entries.put idx e, present := if ch.present.contains idx then ch.present else ch.present ++ [idx],
    runs := ch.runs.upd 1 fun r => r.holdOn cores }

/-- What a group, its block and their run's jobs have published above a snapshot number (09 R228 item 2, R234, R240). -/
def State.ownAbove (s : State) (c : Ctx) (snap : Nat) : List OwnPut :=
  s.ownPuts.filter fun o => decide (snap < o.round) && (match o.party with
    | .group u => u == c.uid
    | .block b => b == c.g.block
    | .jobs _ l => l.isSome && decide (l = c.layer))

/-- The groups and the sequencer of the blocks that run as one. -/
def State.unitGroups (s : State) (bid : Nat) : List (Nat × Group) :=
  let us := s.unit bid
  (s.groups.filter fun _ g => us.contains g.block).rows

/-- Whether every group of a block has reached the end of its part of a segment. -/
def State.partsOver (s : State) (bid seg : Nat) : Bool :=
  (s.unitGroups bid).all fun r => decide (seg < r.2.marks) || decide (r.2.life = .ended)

/-- The primary of a segment has closed: its shadow run is pending (16 R339). -/
def Check.closeFirst (ch : Check) : Check :=
  match ch.runs.get 1 with
  | some r =>
    if r.life = .running then
      { ch with runs := (ch.runs.put 1 { r with life := .closed }).put 2 { SegRun.idle with life := .pending } }
    else ch
  | none => ch

/-- The primary run of a segment closes once every group has reached the end of its part. -/
def State.closePrimary (s : State) (bid k seg : Nat) : State :=
  if s.partsOver bid seg then { s with checks := s.checks.upd (checkKey k seg) Check.closeFirst } else s

/-- A group of a repeat run has reached the end of its part (16 R337); the run closes with its last group. Entries left, a group's own at its end and at the close those that any group could have taken, are a divergence (16 R346). -/
def State.endRepeat (s : State) (c : Ctx) : State :=
  match c.check, s.groups.get c.uid with
  | some key, some g =>
    if !g.replay.isEmpty then s.stopRun c none
    else
      let s1 := s.putGroup c.uid { g with life := .ended, frags := Table.empty }
      let all := s1.unitGroups c.g.block
      if all.all fun r => decide (r.2.life = .ended) && r.2.keyed.isEmpty then
        let s2 : State := { s1 with checks := s1.checks.upd key fun ch => { ch with
          runs := ch.runs.upd c.b.run fun r => { r with life := .closed } } }
        (s2.unit c.g.block).foldl (fun (s : State) i => s.updBlock i fun b => { b with life := .ended })
          { s2 with sets := match c.b.set with | none => s2.sets | some k => s2.sets.upd k fun x => { x with ended := true } }
      else if all.all fun r => decide (r.2.life = .ended) then s1.stopRun c none
      else s1
  | _, _ => s

/-- The log of a primary's part enters its segment's record (16 R345). -/
def State.keepLog (s : State) (c : Ctx) : State :=
  match c.check, s.groups.get c.uid with
  | some key, some g =>
    { s with
      checks := s.checks.upd key fun ch => { ch with logs := ch.logs.put c.slot g.log },
      groups := s.groups.put c.uid { g with log := [] } }
  | _, _ => s

/-- A keeping run's end state, from which 16 R352 restarts the block. -/
def State.noteEnd (s : State) (c : Ctx) (e : RestartPt) : State :=
  match c.check with
  | some key => if c.b.run = 3 then { s with checks := s.checks.upd key fun ch => { ch with endK := ch.endK.put c.slot e } } else s
  | none => s

/-- A restart point inside a part that it does not divide (16 R337): with what a restart there keeps of the part (07 R200). -/
def State.pointWithin (s : State) (c : Ctx) (e : RestartPt) : RestartPt :=
  let g := s.groups.getD c.uid c.g
  { e with
    cut := g.log.length, ords := g.issued.zipWith (· - ·) g.base, count := c.f.count + 1, order := s.handOrder,
    sums := (c.check.bind s.checks.get).bind fun ch => (ch.runs.get c.b.run).map fun r => r.sums.getD c.slot Sums.zero }

/-- The snap that a group restarted inside a part took, from the log of a repeat run (07 R200, 16 R345). -/
def Group.takeRestartSnap (g : Group) : Option Nat × Group :=
  match g.replay with
  | e :: rest => if e.kind = .snap ∧ e.op = 1 then (some (e.data.getD 0 0), { g with replay := rest, log := g.log ++ [e] }) else (none, g)
  | [] => (none, g)

/-- A repeat run snaps at an rmark where its primary, restarted there, did. -/
def State.takeRestartSnap (s : State) (uid : Nat) : State :=
  match (s.groups.get uid).map Group.takeRestartSnap with
  | some (some n, g) => (s.putGroup uid g).snapTo uid n
  | _ => s

/-- A saving rmark of a checked block ends a part and begins the next (16 R337); in a tile set it divides nothing. -/
def State.nextPart (s : State) (c : Ctx) (e : RestartPt) : State :=
  match c.b.check with
  | none =>
    (s.updGroup c.uid fun g => { g with log := [], replay := [], keyed := [], base := g.issued, restart := some e, marks := g.marks + 1 }).updFrag c.uid c.fid
      fun f => { f with count := 0 }
  | some k =>
    let e := { e with own := s.ownAbove c e.snap }
    if c.b.set.isSome then
      let s1 := s.updGroup c.uid fun g => { g with restart := some (s.pointWithin c e) }
      if c.repeats then s1.takeRestartSnap c.uid else s1
    else if c.repeats then (s.noteEnd c e).endRepeat c
    else
      let seg := c.seg
      let s1 := s.keepLog c
      let next := checkKey k (seg + 1)
      let s2 : State := { s1 with
        checks :=
          if (s1.checks.get next).isSome then s1.checks.upd next fun ch => ch.enter c.slot [c.g.core] e
          else s1.checks.put next ((Check.start c.b.launch c.b.index (seg + 1) c.g.block []).enter c.slot [c.g.core] e) }
      let s3 := (s2.updGroup c.uid fun g => { g with keyed := [], base := g.issued, restart := some e, marks := g.marks + 1 }).updFrag c.uid c.fid
        fun f => { f with count := 0 }
      (s3.closePrimary c.g.block k seg).noteHeld c.b.cores (segName c.l c.b (seg + 1))

end Sys2Proof.Machine
end

