-- ==== Sys2Proof/Machine/Windows.lean ====
section
/-! DEFINITION. Lane addresses checked and translated (10 R252), and the window store: checks (10 R257), fills and write-backs of mapped windows (10 R256, R258), and reads and writes of core-store words with their full/empty bits (09 R234). -/

namespace Sys2Proof.Machine
open Sys2Proof

/-! ### Global accesses -/

/-- One lane's access: lane, virtual address, physical address, region. -/
structure LaneAcc where
  lane : Nat
  va : Nat
  pa : Nat
  region : Region
  deriving DecidableEq, Repr

/-- What stops an access before it is made: a precise fault with its lane and address, a page that is not resident, a line that finds no place in its slice (13 R295) or a log entry that finds none in the check area (16 R344), or a divergence that has stopped the run (16 R346). -/
inductive Stop where
  | fault (code : Code) (info : Nat)
  | absent (page access : Nat)
  | room
  | gone
  deriving DecidableEq, Repr

/-- The access kind a page request reports (13 R309). -/
def requestKind : Access → Nat
  | .load => 0
  | .store => 1
  | .atomic => 1
  | .fetch => 2

/-- The checks of 10 R252 lane by lane, ascending; `typeOk` says that the target can perform the type (10 R262). Answers the state with the translations cached and the accesses. -/
def State.lanes (s : State) (c : Ctx) (size : Nat) (acc : Access) (typeOk : Nat → Bool) :
    List (Nat × Nat) → State × Except Stop (List LaneAcc)
  | [] => (s, .ok [])
  | (j, va) :: rest =>
    if va % size ≠ 0 then (s, .error (.fault .misaligned (accessInfo j va)))
    else
      let r := s.translate c.l.part c.l.hdr.vdev c.g.core va acc
      let s1 : State := r.1
      match r.2 with
      | .protect _ => (s1, .error (.fault .accessProtection (accessInfo j va)))
      | .declined => (s1, .error (.fault .pageNotResident (accessInfo j va)))
      | .absent page =>
        if c.b.declined.contains page then (s1, .error (.fault .pageNotResident (accessInfo j va)))
        else (s1, .error (.absent page (requestKind acc)))
      | .ok pa rg =>
        if acc ≠ .load ∧ s1.codeProtected pa then (s1, .error (.fault .accessProtection (accessInfo j va)))
        else if !typeOk pa then (s1, .error (.fault .atomicTypeAtTarget (accessInfo j va)))
        else
          let t := s1.lanes c size acc typeOk rest
          (t.1, t.2.map fun l => { lane := j, va := va, pa := pa, region := rg } :: l)

/-- The outcome of an access that cannot be made: its fault in the state that the checks have left, the abort for its page, or a wait in version pressure. -/
def Ctx.stopped (c : Ctx) (s : State) : Stop → Act
  | .fault code info => .placed (c.trapIn s (faultAt code c.f.pc info))
  | .absent page access => .placed (s.pageFault c page access)
  | .room => .wait 10 s
  | .gone => .placed s

/-- The lines of accesses enter the L2 on behalf of the virtual device: a line of device memory its home slice, one of host memory the near slice (09 R238, 13 R294); not a streaming access's (10 R251). None where one of them has to wait (13 R295). -/
def State.touchL2 (s : State) (c : Ctx) (stream : Bool) (as : List LaneAcc) : Option State :=
  ((as.filter fun a => (isDevice a.pa || isHost a.pa) && !stream && !a.region.stream).map fun a => a.pa / 128).eraseDups.foldlM
    (fun s line =>
      let full := s.budgetFull c.l.part
      if isDevice (128 * line) then s.fillHome c.l.part c.l.hdr.vdev line .cached full
      else s.fillNear c.g.core c.l.part c.l.hdr.vdev line .cached full) s

/-! ### Core-store words -/

/-- A word of a block's store allocation (10 R256): zero and empty at admission, undefined after a restart (07 R200, log 4). -/
def Block.word (b : Block) (i : Nat) : StoreWord :=
  match b.store.get i with
  | some w => w
  | none =>
    match b.undef with
    | some d => { val := Config.freeWord d 65536 i, full := (Config.freeWord d 65537 i).getLsbD 0, poison := false }
    | none => { val := 0, full := false, poison := false }

/-- A word written in part or whole: a whole write clears its poison (17 R369). -/
def Block.putWord (b : Block) (i : Nat) (w : StoreWord) : Block := { b with store := b.store.put i w }

/-- A byte of the allocation. -/
def Block.byte (b : Block) (o : Nat) : Byte := BitVec.ofNat 8 ((b.word (o / 4)).val.toNat / 2 ^ (8 * (o % 4)))

/-- Bytes of the allocation, lowest first. -/
def Block.bytes (b : Block) (o n : Nat) : List Byte := (List.range n).map fun i => b.byte (o + i)

/-- The first poisoned word among bytes, by its byte offset. -/
def Block.poisonIn (b : Block) (o n : Nat) : Option Nat :=
  ((List.range ((o + n + 3) / 4 - o / 4)).map fun i => o / 4 + i).find? (fun i => (b.word i).poison) |>.map (4 * ·)

/-- Bytes written to the allocation; `full` sets the full bit of every word touched (10 R257). -/
def Block.writeBytes (b : Block) (full : Bool) (o : Nat) (bs : List Byte) : Block :=
  ((List.range ((o + bs.length + 3) / 4 - o / 4)).map fun i => o / 4 + i).foldl (fun b i =>
    let old := b.word i
    let at_ := fun (k : Nat) => if o ≤ 4 * i + k then bs[4 * i + k - o]? else none
    let whole := (List.range 4).all fun k => (at_ k).isSome
    let v := fromBytes ((List.range 4).map fun k => (at_ k).getD (b.byte (4 * i + k)))
    b.putWord i { val := toWord v, full := old.full || full, poison := old.poison && !whole }) b

/-- The share of a cluster block that a byte offset lies in, as its core (01 R14). -/
def Ctx.shareCore (c : Ctx) (o : Nat) : Nat :=
  let n := max c.b.cores.length 1
  let share := ((c.l.hdr.store + n - 1) / n + 127) / 128 * 128
  c.b.cores.getD (o / max share 1) c.g.core

/-- `$trapinfo` of a poisoned window word (17 R369). -/
def windowPoison (o : Nat) : Nat := 0xFFFE * 2 ^ 48 + o % 2 ^ 32

/-! ### Window checks -/

/-- `$trapinfo` of a window access (10 R257). -/
def windowInfo (lane : Nat) (off : Int) : Nat := lane % 128 + wrap 32 off * 2 ^ 32

/-- The record of a window, or BAD_HANDLE (10 R257). -/
def Ctx.window (c : Ctx) (n : Nat) : Except Stop Window :=
  match c.b.windows.get n with
  | some w => .ok w
  | none => .error (.fault .badHandle n)

/-- The checks of a window access lane by lane (10 R257); answers lanes and byte offsets within the window. -/
def windowLanes (w : Window) (size : Nat) : List (Nat × Int) → Except Stop (List (Nat × Nat))
  | [] => .ok []
  | (j, o) :: rest =>
    if o % (size : Int) ≠ 0 then .error (.fault .misaligned (windowInfo j o))
    else if o < 0 ∨ (w.len : Int) < o + size then .error (.fault .accessBounds (windowInfo j o))
    else (windowLanes w size rest).map fun l => (j, o.toNat) :: l

/-! ### Mapped windows -/

/-- Whether two records describe one window: a job keeps the record of its issue, whatever setw does meanwhile (10 R256). -/
def sameWindow (a b : Window) : Bool :=
  decide (a.off = b.off ∧ a.len = b.len ∧ a.mode = b.mode ∧ a.base = b.base) && a.mapped == b.mapped

/-- What a fill reads of a line at a physical address (09 R234, R238, 10 R258): the block's pending write-back of the line, the whole of it, over what the touching group has in its store buffer for the line (DESIGN CHOICE, log 74: R234 does not rank the two); else the line as a load of the touching group reads it, over what its block has written back. -/
def State.fillData (s : State) (c : Ctx) (snap va pa : Nat) : Line × Bool :=
  match (c.b.pending.filter fun p => p.va == va).getLast? with
  | some p => (p.data, p.poison)
  | none =>
    match peerOf pa with
    | some _ => s.peerView c.l.part c.uid (pa / 128) (some c.g.block)
    | none => s.view { c.reader with snap := snap, also := [(.block c.g.block, none)] } (pa / 128)

/-- One line of window n is filled, for a lane that touches it (10 R258). The number it is filled at is logged with the window's, and of a peer's line the data too (09 R238); a repeat run fills it as whichever group of its primary did, and diverges where none had. -/
def State.fillLine (s : State) (c : Ctx) (n : Nat) (w : Window) (line lane : Nat) : State × Except Stop (Option Nat) :=
  let va := (w.base + 128 * line) % 2 ^ 80
  let r := s.translate c.l.part c.l.hdr.vdev c.g.core va .load
  let s1 : State := r.1
  match r.2 with
  | .protect _ => (s1, .error (.fault .accessProtection (accessInfo lane va)))
  | .declined => (s1, .error (.fault .pageNotResident (accessInfo lane va)))
  | .absent page =>
    if c.b.declined.contains page then (s1, .error (.fault .pageNotResident (accessInfo lane va)))
    else (s1, .error (.absent page 0))
  | .ok pa rg =>
    match (if c.holdsUp s1 then none else s1.touchL2 c false [{ lane := lane, va := va, pa := pa, region := rg }]) with
    | none => (s1, .error .room)
    | some s2 =>
      let taken := if !c.repeats then none
        else s2.takeKeyed c.g.block fun e =>
          decide (e.kind = .fill ∧ e.data.getD 1 0 = va ∧ e.data.getD 2 0 = c.slot / 32 ∧ e.data.getD 4 0 = n)
      if c.repeats && taken.isNone then (s2.stopRun c none, .error .gone)
      else
      let s3 := taken.elim s2 (·.2)
      let at_ := taken.elim c.g.snap (·.1.data.getD 0 0)
      let peer := (peerOf pa).isSome
      let (data, bad) := match taken with
        | some x => if peer then (lineWith 0 ((x.1.data.drop 5).map (BitVec.ofNat 8)), false) else s3.fillData c at_ va pa
        | none => s3.fillData c at_ va pa
      if bad then (s3, .ok (some (va % 2 ^ 64)))
      else
        let s4 := s3.updBlock c.g.block fun b =>
          let b1 := b.writeBytes false (w.off + 128 * line) data.toList
          { b1 with windows := b1.windows.upd n fun x => if sameWindow x w then { x with filled := line :: x.filled } else x }
        (if c.repeats then s4
         else s4.record c.uid .fill 0 ([at_, va, c.slot / 32, s.tick, n] ++ if peer then data.toList.map (·.toNat) else []) 0, .ok none)

/-- Whether a line of a mapped window has been filled, by its record in the block as it is now, or, where setw has replaced that record, by the one kept. -/
def State.lineFilled (s : State) (bid n : Nat) (w : Window) (l : Nat) : Bool :=
  match (s.blocks.get bid).bind fun (b : Block) => b.windows.get n with
  | some x => if sameWindow x w then x.filled.contains l else w.filled.contains l
  | none => w.filled.contains l

/-- The lines of a mapped window that lanes touch and that are not filled yet, each with its lane, filled in order; a poisoned line answers its address. -/
def State.fillLines (s : State) (c : Ctx) (n : Nat) (w : Window) : List (Nat × Nat) → State × Except Stop (Option Nat)
  | [] => (s, .ok none)
  | (l, lane) :: ls =>
    if !w.mapped || s.lineFilled c.g.block n w l then s.fillLines c n w ls
    else
      let r := s.fillLine c n w l lane
      match r.2 with
      | .ok none => r.1.fillLines c n w ls
      | x => (r.1, x)

/-- The lines of a window that accesses of a size at offsets touch. -/
def linesOf (size : Nat) (offs : List Nat) : List Nat :=
  (offs.flatMap fun o => (List.range ((o + size - 1) / 128 + 1 - o / 128)).map fun i => o / 128 + i).eraseDups

/-- The same with the first lane that touches each line, of lanes with their offsets. -/
def lanesOn (size : Nat) (ls : List (Nat × Nat)) : List (Nat × Nat) :=
  (linesOf size (ls.map (·.2))).map fun l =>
    (l, ((ls.find? fun x => decide (x.2 / 128 ≤ l ∧ l ≤ (x.2 + size - 1) / 128)).map (·.1)).getD 0)

/-- Lines touched by no lane in particular. -/
def onLane0 (ls : List Nat) : List (Nat × Nat) := ls.map fun l => (l, 0)

/-- The address of the first line beyond a peer aperture that a window access has to fill (17 R373). -/
def State.peerFill (s : State) (c : Ctx) (n : Nat) (w : Window) (ls : List Nat) : Option Nat :=
  (ls.filter fun l => w.mapped && !s.lineFilled c.g.block n w l).findSome? fun l =>
    let va := (w.base + 128 * l) % 2 ^ 80
    match (s.lookup c.l.part c.l.hdr.vdev c.g.core va .load).1 with
    | .ok pa _ => (peerOf pa).map fun _ => va
    | .protect _ | .declined | .absent _ => none

/-- Lines of a mapped window become dirty. -/
def Block.dirty (b : Block) (n : Nat) (ls : List Nat) : Block :=
  { b with windows := b.windows.upd n fun w =>
      if w.mapped then { w with dirty := ls.foldl (fun d l => if d.contains l then d else d ++ [l]) w.dirty } else w }

/-- Dirty lines of a window become pending write-back lines of the block (09 R234, 10 R258). The line's data stays in the window. -/
def Block.flush (b : Block) (n uid : Nat) (pc : Addr) (blk : BlockInfo) (seq ord : Nat) (take : Nat → Bool) : Block :=
  match b.windows.get n with
  | none => b
  | some w =>
    let ls := w.dirty.filter take
    { b with
      windows := b.windows.put n { w with dirty := w.dirty.filter fun l => !take l },
      pending := b.pending ++ ls.map fun l =>
        { group := uid, pc := pc, blk := blk, seq := seq, ord := ord, va := (w.base + 128 * l) % 2 ^ 80,
          data := lineWith 0 (b.bytes (w.off + 128 * l) 128), poison := (b.poisonIn (w.off + 128 * l) 128).isSome } }

/-- A POISON that is taken at the next boundary (10 R252). -/
def State.latePoison (s : State) (c : Ctx) (m : Mask) (info : Nat) : State :=
  s.updGroup c.uid fun g => { g with late := g.late ++ [{ mask := m, code := .poison, pc := c.f.pc, blk := c.f.blk, info := BitVec.ofNat 64 info }] }

/-- A window access up to its performance: the record, the checks of the lanes, the fills of a mapped window. `k` receives the state, the record, and lanes with offsets; a poisoned line is taken at the next boundary with nothing accessed. -/
def Ctx.windowAccess (c : Ctx) (s : State) (m : Mask) (n size : Nat) (offs : List (Nat × Int))
    (k : State → Window → List (Nat × Nat) → Act) : Act :=
  match c.window n with
  | .error x => c.stopped s x
  | .ok w =>
    match windowLanes w size offs with
    | .error x => c.stopped s x
    | .ok ls =>
      let r := s.fillLines c n w (lanesOn size ls)
      match r.2 with
      | .error x => c.stopped r.1 x
      | .ok (some va) => .done (r.1.latePoison c m va)
      | .ok none => k r.1 w ls

/-- The block of a context as a state holds it now. -/
def Ctx.blockIn (c : Ctx) (s : State) : Block := s.blocks.getD c.g.block c.b

/-- The signed offset of a lane in a window instruction (10 R257). -/
def Group.winOff (g : Group) (f : FormG) (disp : Int) (size j : Nat) : Int := g.offset f.y j + disp * (size : Int)

end Sys2Proof.Machine
end

