-- ==== Sys2Proof/Machine/MemOps.lean ====
section
/-! DEFINITION. Loads, stores, windows, full/empty words, publishing, fences and waits, opcodes 0x80 to 0x93 (10 R246 to R260). -/

namespace Sys2Proof.Machine
open Sys2Proof

/-! ### Shared operations -/

/-- The bytes a load reads at a physical address: of a peer aperture, the peer's memory as it stands, under the group's own stores (09 R228, R238). -/
def State.loadBytes (s : State) (c : Ctx) (pa n : Nat) : List Byte × Bool :=
  match peerOf pa with
  | none => s.readBytes c.reader pa n
  | some _ =>
    let v := s.peerView c.l.part c.uid (pa / 128) none
    ((List.range n).map fun i => byteOf v.1 (pa % 128 + i), v.2)

/-- A counted operation leaves, its completion to come (10 R249). -/
def State.fly (s : State) (c : Ctx) (f : Flight) : State :=
  { s.updGroup c.uid (fun g => g.raise { f with blk := c.f.blk }) with uid := s.uid + 1 }

/-- A counted operation that completes as it is performed. -/
def State.pass (s : State) (c : Ctx) (cls : Nat) : State :=
  { s.updGroup c.uid (fun g => g.pass s.uid cls c.f.pc) with uid := s.uid + 1 }

/-- A load (10 R251, R252): its value is fixed now; its destination is written at LOAD_COMPLETE, and a poisoned line writes none of it. It waits while a line it reads finds no place in its slice (13 R295). -/
def load (s : State) (f : FormE) (stream : Bool) : Out :=
  let op := if stream then 0x81 else 0x80
  let n := sizeRegs f.size
  let size := sizeBytes f.size
  sysInstr s f.g [(n, f.data)] (baseUsed f ++ offUsed f.off) fun c m =>
    if c.g.full 0 then .wait 5 s
    else
      let r := s.lanes c size .load (fun _ => true) (c.addrs f (dispE f) m)
      match r.2 with
      | .error x => c.stopped r.1 x
      | .ok as =>
        let vals := as.map fun a => (a, r.1.loadBytes c a.pa size)
        let peer := (as.find? fun a => (peerOf a.pa).isSome).map fun a => a.va
        let bad := vals.find? fun v => v.2.2
        let put := fun (t : State) (val : Nat → Nat) =>
          .done (t.fly c { Flight.plain t.uid 0 c.f.pc m with
            writes := destWrites m n f.data val, peer := peer, vas := as.map fun a => a.va,
            bad := bad.map fun v => (.poison, BitVec.ofNat 64 (v.1.va / 128 * 128)) })
        let now := fun (j : Nat) => ((vals.find? fun v => v.1.lane == j).map fun v => fromBytes v.2.1).getD 0
        match r.1.touchL2 c stream as with
        | none => .wait 10 s
        | some t =>
          if peer.isSome then
            let digest := opDigest op (as.map fun a => (a.lane, a.va, []))
            match t.consult c .peer op digest with
            | .perform => put (t.record c.uid .peer op ((List.range 128).map now) digest) now
            | .replay d u => put u fun j => d.getD j 0
            | .diverged u => .placed u
          else put t now

/-- A store's lines that lie beyond a peer aperture are noted until they have reached the peer (17 R373). -/
def State.notePeers (s : State) (c : Ctx) (m : Mask) (as : List LaneAcc) : State :=
  let mine := as.filter fun a => (peerOf a.pa).isSome
  if mine.isEmpty then s
  else
    let stands := fun (x : Nat × Nat × Flight) =>
      s.buffer.any (fun b => decide (b.group = x.1 ∧ b.line = x.2.1)) || s.handed.any fun h => decide (h.group = x.1 ∧ h.line = x.2.1)
    { s with
      uid := s.uid + 1,
      peerStores := s.peerStores.filter stands ++ ((mine.map fun a => a.pa / 128).eraseDups.map fun line =>
        (c.uid, line, { Flight.plain s.uid 1 c.f.pc m with
          ord := c.g.ordOf 1 + 1, blk := c.f.blk, peer := (mine.find? fun a => a.pa / 128 == line).map fun a => a.va })) }

/-- A store (10 R251, 09 R227): every lane's bytes enter the store buffer in ascending lane order, or none do while the version budget or a slice has no room (16 R344, 13 R295). -/
def store (s : State) (f : FormE) (stream : Bool) : Out :=
  let n := sizeRegs f.size
  let size := sizeBytes f.size
  sysInstr s f.g [] ((n, f.data) :: baseUsed f ++ offUsed f.off) fun c m =>
    if c.g.full 1 then .wait 5 s
    else
      let r := s.lanes c size .store (fun _ => true) (c.addrs f (dispE f) m)
      match r.2 with
      | .error x => c.stopped r.1 x
      | .ok as =>
        let bytes := fun (a : LaneAcc) => toBytes size (c.g.wide n f.data a.lane)
        match (as.foldlM (fun (t : State) a => t.bufferStore c a.pa (bytes a) (t.shareOf c.l.part a.pa a.region)) r.1).bind fun t => t.touchL2 c stream as with
        | none => .wait 10 s
        | some t =>
          let t1 := t.addTerms c false (as.flatMap fun a => storeTerms a.va (bytes a) fun _ => true)
          .done ((t1.notePeers c m as).pass c 1)

/-! ### Window instructions -/

/-- The size of a window instruction (10 R257). -/
def winSize (f : FormG) : Size := (sizeOf' (f.func.toNat % 8)).getD .b32

/-- The displacement of a window instruction (10 R257). -/
def winDisp (f : FormG) : Int := signed 12 (f.func.toNat / 16)

/-- The lanes of a window instruction with their offsets. -/
def Ctx.winOffs (c : Ctx) (f : FormG) (m : Mask) (size : Nat) : List (Nat × Int) :=
  (accessLanes f.x m).map fun j => (j, c.g.winOff f (winDisp f) size j)

/-- A range of a window in fefill, fillw and flushw: checks of 10 R257 with offset and length multiples of a unit. -/
def windowRange (w : Window) (unit off len : Nat) : Except Stop Unit :=
  if off % unit ≠ 0 ∨ len % unit ≠ 0 then .error (.fault .misaligned (off % 2 ^ 32 * 2 ^ 32))
  else if w.len < off + len then .error (.fault .accessBounds (off % 2 ^ 32 * 2 ^ 32))
  else .ok ()

/-- The lines of a range. -/
def rangeLines (off len : Nat) : List Nat := (List.range (len / 128)).map fun i => off / 128 + i

/-! ### Meanings -/

/-- LD (10 R251). -/
def execLd (f : FormE) (s : State) : Out := load s f false

/-- LDU: as ld, placed for one use (10 R251). -/
def execLdu (f : FormE) (s : State) : Out := load s f true

/-- ST (10 R251). -/
def execSt (f : FormE) (s : State) : Out := store s f false

/-- STU: as st, placed for one use (10 R251). -/
def execStu (f : FormE) (s : State) : Out := store s f true

/-- LDW (10 R257): the words' values now, the destination at LOAD_COMPLETE; a poisoned word raises POISON precisely (17 R369). -/
def execLdw (f : FormG) (s : State) : Out :=
  let n := sizeRegs (winSize f)
  let size := sizeBytes (winSize f)
  sysInstr s f.g [(n, f.x)] (offUsed f.y) fun c m =>
    if c.g.full 0 then .wait 5 s
    else c.windowAccess s m f.handle.toNat size (c.winOffs f m size) fun t w ls =>
      let b := c.blockIn t
      match ls.findSome? fun l => b.poisonIn (w.off + l.2) size with
      | some o => .trap (faultAt .poison c.f.pc (windowPoison o))
      | none =>
        let val := fun (j : Nat) => ((ls.find? fun l => l.1 == j).map fun l => fromBytes (b.bytes (w.off + l.2) size)).getD 0
        .done (t.fly c { Flight.plain t.uid 0 c.f.pc m with
          writes := destWrites m n f.x val, peer := s.peerFill c f.handle.toNat w (linesOf size (ls.map (·.2))) })

/-- STW (10 R257): performed now in ascending lane order; in mode 01 the words touched become full. -/
def execStw (f : FormG) (s : State) : Out :=
  let n := sizeRegs (winSize f)
  let size := sizeBytes (winSize f)
  sysInstr s f.g [] ((n, f.x) :: offUsed f.y) fun c m =>
    if c.g.full 1 then .wait 5 s
    else c.windowAccess s m f.handle.toNat size (c.winOffs f m size) fun t w ls =>
      let put := fun (b : Block) =>
        (ls.foldl (fun b l => b.writeBytes (w.mode == 1) (w.off + l.2) (toBytes size (c.g.wide n f.x l.1))) b).dirty
          f.handle.toNat (linesOf size (ls.map (·.2)))
      .done ((t.updBlock c.g.block put).pass c 1)

/-- LDF (10 R259): every lane's word full, read in one step, and with `.take` made empty. -/
def execLdf (f : FormG) (s : State) : Out :=
  let disp : Int := signed 12 (f.func.toNat / 16)
  sysInstr s f.g [(1, f.x)] (offUsed f.y) fun c m =>
    let offs := (accessLanes f.x m).map fun j => (j, c.g.winOff f disp 4 j)
    c.windowAccess s m f.handle.toNat 4 offs fun t w ls =>
      let b := c.blockIn t
      let at_ := fun (l : Nat × Nat) => b.word ((w.off + l.2) / 4)
      if ls.any fun l => !((at_ l).full || (at_ l).poison) then .wait 7 s
      else
        match ls.find? fun l => (at_ l).poison with
        | some l => .trap (faultAt .poison c.f.pc (windowPoison (w.off + l.2)))
        | none =>
          let val := fun (j : Nat) => ((ls.find? fun l => l.1 == j).map fun l => (at_ l).val.toNat).getD 0
          let take := fun (b : Block) =>
            if bitAt f.func.toNat 3 then
              ls.foldl (fun b l => b.putWord ((w.off + l.2) / 4) { b.word ((w.off + l.2) / 4) with full := false }) b
            else b
          .done ((t.updBlock c.g.block take).writeRegs c.uid (destWrites m 1 f.x val))

/-- STE (10 R259): every lane's word empty, written in one step in ascending lane order, and made full. -/
def execSte (f : FormG) (s : State) : Out :=
  let disp : Int := signed 12 (f.func.toNat / 16)
  sysInstr s f.g [] ((1, f.x) :: offUsed f.y) fun c m =>
    let offs := (accessLanes f.x m).map fun j => (j, c.g.winOff f disp 4 j)
    c.windowAccess s m f.handle.toNat 4 offs fun t w ls =>
      let b := c.blockIn t
      let at_ := fun (l : Nat × Nat) => b.word ((w.off + l.2) / 4)
      if ls.any fun l => (at_ l).full && !(at_ l).poison then .wait 7 s
      else
        let put := fun (b : Block) =>
          (ls.foldl (fun b l => b.putWord ((w.off + l.2) / 4)
            { val := toWord (c.g.lane f.x l.1), full := true, poison := false }) b).dirty f.handle.toNat (linesOf 4 (ls.map (·.2)))
        .done (t.updBlock c.g.block put)

/-- FEFILL (10 R260): the full bits of a range set or cleared, ascending. -/
def execFefill (f : FormG) (s : State) : Out :=
  sysInstr s f.g [] [(1, f.x), (1, f.y)] fun c m =>
    let off := (c.g.sreg (opndIdx f.x)).toNat
    let len := (c.g.sreg (opndIdx f.y)).toNat
    match c.window f.handle.toNat with
    | .error x => c.stopped s x
    | .ok w =>
      match windowRange w 4 off len with
      | .error x => c.stopped s x
      | .ok _ =>
        let r := s.fillLines c f.handle.toNat w (onLane0 (if len = 0 then [] else linesOf len [off]))
        match r.2 with
        | .error x => c.stopped r.1 x
        | .ok (some va) => .done (r.1.latePoison c m va)
        | .ok none =>
          .done (r.1.updBlock c.g.block fun b =>
            (List.range (len / 4)).foldl (fun b i =>
              b.putWord ((w.off + off) / 4 + i) { b.word ((w.off + off) / 4 + i) with full := f.func.getLsbD 0 }) b)

/-- FEGET (10 R260): the full bits of 32 words. -/
def execFeget (f : FormG) (s : State) : Out :=
  sysInstr s f.g [(1, f.x)] [(1, f.y)] fun c m =>
    let off := (c.g.sreg (opndIdx f.y)).toNat
    match c.window f.handle.toNat with
    | .error x => c.stopped s x
    | .ok w =>
      if off % 128 ≠ 0 then .trap (faultAt .misaligned c.f.pc (off % 2 ^ 32 * 2 ^ 32))
      else if w.len < off + 128 then .trap (faultAt .accessBounds c.f.pc (off % 2 ^ 32 * 2 ^ 32))
      else
        let r := s.fillLines c f.handle.toNat w (onLane0 [off / 128])
        match r.2 with
        | .error x => c.stopped r.1 x
        | .ok (some va) => .done (r.1.latePoison c m va)
        | .ok none =>
          let b := c.blockIn r.1
          let v := ((List.range 32).map fun i => if (b.word ((w.off + off) / 4 + i)).full then 2 ^ i else 0).sum
          .done (r.1.updGroup c.uid fun g => g.write (.sca (opndIdx f.x) (toWord v)))

/-- The descriptor of setw (10 R256): its fault, or the record it writes, none where it unsets the window. -/
def setwCheck (pc : Addr) (store : Nat) (ws : List Word) : Except Trap (Option Window) :=
  let w := fun (i : Nat) => (ws.getD i 0).toNat
  let off := w 0
  let len := w 1
  let mapped := bitAt (w 2) 2
  let base := fromWords [ws.getD 4 0, ws.getD 5 0, ws.getD 6 0] % 2 ^ 80
  if off % 128 ≠ 0 ∨ len % 128 ≠ 0 ∨ (mapped ∧ base % 128 ≠ 0) then .error (faultAt .misaligned pc 0)
  else if 2 ≤ w 2 % 4 ∨ 8 ≤ w 2 then .error (faultAt .illegalEncoding pc 0)
  else if store < off + len then .error (faultAt .windowBounds pc (off + len * 2 ^ 32))
  else if len = 0 then .ok none
  else .ok (some { off := off, len := len, mode := w 2 % 4, mapped := mapped, base := if mapped then base else 0,
                   filled := [], dirty := [] })

/-- SETW (10 R256): the descriptor is checked whatever the effective mask; the old record's dirty lines become pending write-back lines. A fault of one of them (10 R280) counts as of class store and of the group's last store operation, as setw raises no class itself (DESIGN CHOICE, log 75). -/
def execSetw (f : FormG) (s : State) : Out :=
  match s.ctx with
  | none => .fault .noIssuer
  | some c =>
    match s.precheck c [(8, f.x)] with
    | some x => .next (c.barred s x)
    | none =>
      match c.g.poisoned (c.eff f.g) (usedRegs [(8, f.x)]) with
      | some r => c.trapped s { kind := 0, code := .poison, pc := c.f.pc, info := poisonInfo r }
      | none =>
        match setwCheck c.f.pc c.l.hdr.store (c.g.scalars (opndIdx f.x) 8) with
        | .error t => c.trapped s t
        | .ok rec =>
          if c.eff f.g = 0 then .next (s.putGroup c.uid (c.g.advance c.fid c.f))
          else
            let n := f.handle.toNat
            let s1 := s.updBlock c.g.block fun b =>
              let b1 := b.flush n c.uid c.f.pc c.f.blk s.uid (c.g.ordOf 1) fun _ => true
              { b1 with windows := match rec with | none => b1.windows.del n | some w => b1.windows.put n w }
            .next (({ s1 with uid := s.uid + 1 } : State).advance c.uid c.fid)

/-- FILLW (10 R258). -/
def execFillw (f : FormG) (s : State) : Out :=
  sysInstr s f.g [] [(1, f.x), (1, f.y)] fun c m =>
    let off := (c.g.sreg (opndIdx f.x)).toNat
    let len := (c.g.sreg (opndIdx f.y)).toNat
    match c.window f.handle.toNat with
    | .error x => c.stopped s x
    | .ok w =>
      match windowRange w 128 off len with
      | .error x => c.stopped s x
      | .ok _ =>
        if c.g.full 0 then .wait 5 s
        else if !w.mapped then .done (s.pass c 0)
        else
          let r := s.fillLines c f.handle.toNat w (onLane0 (rangeLines off len))
          match r.2 with
          | .error x => c.stopped r.1 x
          | .ok bad =>
            .done (r.1.fly c { Flight.plain r.1.uid 0 c.f.pc m with
              bad := bad.map fun va => (.poison, BitVec.ofNat 64 va), peer := s.peerFill c f.handle.toNat w (rangeLines off len) })

/-- FLUSHW (10 R258): a length of 0 names the whole window. -/
def execFlushw (f : FormG) (s : State) : Out :=
  sysInstr s f.g [] [(1, f.x), (1, f.y)] fun c _ =>
    let off := (c.g.sreg (opndIdx f.x)).toNat
    let len := (c.g.sreg (opndIdx f.y)).toNat
    match c.window f.handle.toNat with
    | .error x => c.stopped s x
    | .ok w =>
      match windowRange w 128 off len with
      | .error x => c.stopped s x
      | .ok _ =>
        if c.g.full 1 then .wait 5 s
        else
          let take := fun (l : Nat) => len == 0 || (decide (off / 128 ≤ l) && decide (l < (off + len) / 128))
          .done ((s.updBlock c.g.block fun b => b.flush f.handle.toNat c.uid c.f.pc c.f.blk s.uid (c.g.ordOf 1 + 1) take).pass c 1)

/-- PREFETCH (10 R253): no effect that a program can observe but in time. -/
def execPrefetch (f : FormE) (s : State) : Out := sysInstr s f.g [] (baseUsed f ++ offUsed f.off) fun _ _ => .done s

/-- PUB (10 R254), with the fold of 16 R348. -/
def execPub (f : FormG) (s : State) : Out :=
  sysInstr s f.g [] [] fun c _ => c.afterPublish s fun t => .done (t.foldRegs c c.f.mask)

/-- The snap step with the group's record as it stands in a state. -/
def State.snapNow (s : State) (c : Ctx) : State := s.snap { c with g := s.groups.getD c.uid c.g }

/-- SNAP (10 R254, 09 R231). -/
def execSnap (f : FormG) (s : State) : Out := sysInstr s f.g [] [] fun c _ => .done (s.snapNow c)

/-- PHASE: pub, then snap (10 R254). -/
def execPhase (f : FormG) (s : State) : Out :=
  sysInstr s f.g [] [] fun c _ => c.afterPublish s fun t => .done ((t.foldRegs c c.f.mask).snapNow c)

/-- A scope as a guest's context executes it (02 R48): `.sys` is clamped to `.prt` and counted. -/
def State.clamp (s : State) (c : Ctx) (scope : Nat) : State :=
  if scope = 4 ∧ !c.l.host then
    s.updPart c.l.part fun p =>
      let v := p.vd c.l.hdr.vdev
      { p with vdev := p.vdev.put c.l.hdr.vdev { v with clamp := min (v.clamp + 1) (2 ^ 32 - 1) } }
  else s

/-- Whether reductions of a group on host memory or a peer aperture stand in a round that is open (09 R239). -/
def State.reducing (s : State) (uid : Nat) : Bool :=
  s.handedUpd.any fun h => h.upd.group == uid && (isHost h.upd.addr || (peerOf h.upd.addr).isSome)

/-- The reductions on host memory that a group's core still holds are performed and written through (09 R239). -/
def State.writeThrough (s : State) (c : Ctx) : State :=
  let mine := fun (u : Update) => decide (u.group = c.uid) && isHost u.addr
  (s.updates.filter mine).foldl
    (fun s u => s.performAt c.l.part u.vdev u.addr u.share
      (toBytes u.bytes (combine u.float u.aop u.bytes (fromBytes (s.homeBytes u.addr u.bytes)) u.vals)))
    { s with updates := s.updates.filter fun u => !mine u }

/-- FENCE (10 R255): the accesses of this model are performed as they issue, but for reductions, so a fence completes at issue; one of scope `.sys` performs those on host memory that the core holds, and waits for those that a publish has handed to the open round (log 11). -/
def execFence (f : FormG) (s : State) : Out :=
  sysInstr s f.g [] [] fun c _ =>
    let scope := f.func.toNat % 8
    let full := decide (scope = 4) && c.l.host
    if full && s.reducing c.uid then .wait 6 s
    else
      let t := s.clamp c scope
      .done (if full then t.writeThrough c else t)

/-- A wait for counted classes (10 R250): then the oldest delivered fault that it covers is taken (10 R280). -/
def waitFor (s : State) (g : Guard) (srcs : List (Nat × Opnd)) (limit : Ctx → Nat → Option Nat) : Out :=
  sysInstr s g [] srcs fun c _ =>
    let lim := limit c
    if (List.range 5).any fun k => match lim k with | none => false | some n => decide (n < c.g.counter k) then .wait 5 s
    else
      match takeDelivered (c.g.covered lim) c.g with
      | none => .done s
      | some (t, g) => .placed (({ s with groups := s.groups.put c.uid g } : State).takeTrap { c with g := g } t)

/-- WAITC (10 R250). -/
def execWaitc (f : FormD) (s : State) : Out :=
  waitFor s f.g [] fun _ k => some (f.imm.toNat / 2 ^ (6 * k) % 64)

/-- WAITR (10 R250). -/
def execWaitr (f : FormG) (s : State) : Out :=
  waitFor s f.g [(1, f.x)] fun c k =>
    if k = f.func.toNat % 8 then some (c.g.sreg (opndIdx f.x)).toNat else none

end Sys2Proof.Machine
end

