-- ==== Sys2Proof/Machine/Atomics.lean ====
section
/-! DEFINITION. Atomics and reductions, opcodes 0xA0 to 0xA5 (10 R261 to R263). -/

namespace Sys2Proof.Machine
open Sys2Proof

/-! ### Shared operations -/

/-- The operation code of format E's atomics (10 R261). -/
def aopE (f : FormE) : Nat := f.imm.toNat / 64

/-- The registers of an atomic's data operand and of its old value (10 R261): class 0 atom and red, 1 cas, 3 atomf and redf, 4 atomw. -/
def atomRegs (cls aop : Nat) (size : Size) : Nat × Nat :=
  match cls with
  | 1 => (2 * sizeRegs size, sizeRegs size)
  | 4 => (if aop / 8 = 1 then 8 else 4, 4)
  | _ => (sizeRegs size, sizeRegs size)

/-- Whether a target can perform a type (10 R262): host memory and peers refuse atomf, redf and atomw. -/
def atomTypeOk (cls pa : Nat) : Bool := !(isHost pa || (peerOf pa).isSome) || cls == 0 || cls == 1

/-- One atomic of a lane at its home (09 R236): the current value is read, the new one written, the old one answered. Device and host lines are touched in the round; a peer's memory is changed where it stands. -/
def State.atomAt (s : State) (c : Ctx) (cls aop size arg : Nat) (a : LaneAcc) : State × Nat :=
  let old := fromBytes (s.homeBytes a.pa size)
  let bs := toBytes size (atomNew cls aop size old arg)
  match peerOf a.pa with
  | some _ => ({ s with mem := Memory.writeN s.mem a.pa bs, sent := s.sent ++ [.peerWrite a.pa bs] }, old)
  | none => (s.performAt c.l.part c.l.hdr.vdev a.pa (s.shareOf c.l.part a.pa a.region) bs, old)

/-- The atomics of the lanes in ascending order, each after the one before (10 R261); answers the old values by lane. -/
def State.atoms (s : State) (c : Ctx) (cls aop size : Nat) (arg : Nat → Nat) : List LaneAcc → State × List (Nat × Nat)
  | [] => (s, [])
  | a :: rest =>
    let r := s.atomAt c cls aop size (arg a.lane) a
    let t := r.1.atoms c cls aop size arg rest
    (t.1, (a.lane, r.2) :: t.2)

/-- The operand digest of an access (16 R349): opcode, lanes, addresses and operand words. -/
def accessDigest (op n : Nat) (arg : Nat → Nat) (as : List LaneAcc) : Nat :=
  opDigest op (as.map fun a => (a.lane, a.va, (toWords n (arg a.lane)).map (·.toNat)))

/-- A value-returning atomic on memory (10 R261, R263): irrevocable, its returned values logged. A poisoned target is read by no lane, POISON follows at completion (10 R252), and the log names the line. -/
def atomMem (s : State) (f : FormE) (op cls : Nat) : Out :=
  let aop := aopE f
  let size := sizeBytes f.size
  let (nin, nout) := atomRegs cls aop f.size
  sysInstr s f.g [] ((nin, f.data) :: baseUsed f ++ offUsed f.off) fun c m =>
    if c.g.full 4 then .wait 5 s
    else
      let r := s.lanes c size .atomic (atomTypeOk cls) (c.addrs f (dispA f) m)
      match r.2 with
      | .error x => c.stopped r.1 x
      | .ok as =>
        match (r.1.clamp c (scopeCode f.scope)).touchL2 c false as with
        | none => .wait 10 s
        | some u =>
          let arg := fun (j : Nat) => c.g.wide nin f.data j
          let fly := fun (t : State) (val : Nat → Nat) (bad : Option Nat) =>
            t.fly c { Flight.plain t.uid 4 c.f.pc m with
              writes := destWrites m nout f.data val, bad := bad.map fun va => (.poison, BitVec.ofNat 64 va),
              peer := (as.find? fun a => (peerOf a.pa).isSome).map (fun a => a.va), vas := as.map fun a => a.va }
          let digest := accessDigest op nin arg as
          match u.consult c .result op digest with
          | .replay d t => .done (if d.length = 1 then fly t (fun _ => 0) d.head? else fly t (fun j => d.getD j 0) none)
          | .diverged t => .placed t
          | .perform =>
            match as.find? fun a => u.poison.contains (a.pa / 128) with
            | some a =>
              let va := a.va / 128 * 128
              .done (fly (u.record c.uid .result op [va] digest) (fun _ => 0) (some va))
            | none =>
              let t := u.atoms c cls aop size arg as
              let old := fun (j : Nat) => ((t.2.find? fun x => x.1 == j).map (·.2)).getD 0
              .done (fly (t.1.record c.uid .result op ((List.range 128).map old) digest) old none)

/-- One lane's contribution of a reduction: to a peer's memory and, in scope `.sys`, to host memory made at once, else gathered in the group's update-only copy (09 R237, R239). None where a new copy finds no room at the near slice. -/
def State.contribute (s : State) (c : Ctx) (now : Bool) (cls aop size arg : Nat) (a : LaneAcc) : Option State :=
  if (peerOf a.pa).isSome || (now && isHost a.pa) then some (s.atomAt c cls aop size arg a).1
  else
    s.addUpdate c { group := c.uid, addr := a.pa, float := cls == 3, aop := aop, bytes := size, vals := [],
                    share := s.shareOf c.l.part a.pa a.region, vdev := c.l.hdr.vdev, poison := false } arg

/-- A reduction on memory (10 R261, 09 R237): each lane contributes in ascending order, and one that goes to a peer is in flight until its answer (17 R373); a repeat run compares its operands and performs none (10 R263). -/
def redMem (s : State) (f : FormE) (op cls : Nat) : Out :=
  let aop := aopE f
  let size := sizeBytes f.size
  let n := sizeRegs f.size
  sysInstr s f.g [] ((n, f.data) :: baseUsed f ++ offUsed f.off) fun c m =>
    if c.g.full 4 then .wait 5 s
    else
      let r := s.lanes c size .atomic (atomTypeOk cls) (c.addrs f (dispA f) m)
      match r.2 with
      | .error x => c.stopped r.1 x
      | .ok as =>
        let arg := fun (j : Nat) => c.g.wide n f.data j
        let digest := accessDigest op n arg as
        let s1 := r.1.clamp c (scopeCode f.scope)
        match (if c.b.check.isSome then s1.consult c .digest op digest else .perform) with
        | .diverged t => .placed t
        | .replay _ t => .done (t.pass c 4)
        | .perform =>
          let now := decide (scopeCode f.scope = 4) && c.l.host
          match as.foldlM (fun (t : State) a => t.contribute c now cls aop size (arg a.lane) a) s1 with
          | none => .wait 10 s
          | some t =>
            let u := if c.b.check.isSome then t.record c.uid .digest op [] digest else t
            match as.find? fun a => (peerOf a.pa).isSome with
            | none => .done (u.pass c 4)
            | some a => .done (u.fly c { Flight.plain u.uid 4 c.f.pc m with peer := some a.va, vas := as.map fun a => a.va })

/-! ### On a core store -/

/-- The operation code of format G's atomics (10 R261). -/
def aopG (f : FormG) : Nat := bitsAt f.func.toNat 3 6

/-- The displacement of format G's atomics (10 R261). -/
def dispG (f : FormG) : Int := signed 7 (f.func.toNat / 512)

/-- The 32-bit words of a store that an access of a size touches. -/
def wordsAt (size o : Nat) : List Nat := (List.range (max 1 (size / 4))).map fun i => o / 4 + i

/-- The place of the next atomic on each word, counted up (10 R263). -/
def Block.countAtoms (b : Block) (words : List Nat) : Block × List Nat :=
  words.foldl (fun p w =>
    let n := p.1.atoms.getD w 0
    ({ p.1 with atoms := p.1.atoms.put w (n + 1) }, p.2 ++ [w, n])) (b, [])

/-- The pairs of a flat list. -/
def pairsOf : List Nat → List (Nat × Nat)
  | a :: b :: r => (a, b) :: pairsOf r
  | _ => []

/-- Whether another group of a repeat run still has to perform an earlier atomic on one of the words (10 R263). -/
def State.atomBefore (s : State) (c : Ctx) (places : List (Nat × Nat)) : Bool :=
  (s.groups.filter fun k (g : Group) => decide (g.block = c.g.block) && k != c.uid).rows.any fun r =>
    r.2.replay.any fun e =>
      decide (e.kind = .storeOrder) && (pairsOf e.data).any fun p => places.any fun q => q.1 == p.1 && decide (p.2 < q.2)

/-- An atomic or reduction through a window (10 R261, R262): performed at the store ALUs now, in ascending lane order. A repeat run performs it again, in the logged order of its words. -/
def atomWin (s : State) (f : FormG) (op cls : Nat) (returns : Bool) : Out :=
  let aop := aopG f
  let z := winSize f
  let size := sizeBytes z
  let (nin, nout) := atomRegs cls aop z
  sysInstr s f.g [] ((nin, f.x) :: offUsed f.y) fun c m =>
    if c.g.full 4 then .wait 5 s
    else
      let offs := (accessLanes f.x m).map fun j => (j, c.g.winOff f (dispG f) size j)
      c.windowAccess s m f.handle.toNat size offs fun t w ls =>
        match ls.find? fun l => cls == 3 && c.shareCore (w.off + l.2) != c.g.core with
        | some l => .trap (faultAt .atomicTypeAtTarget c.f.pc (windowInfo l.1 l.2))
        | none =>
          match ls.findSome? fun l => (c.blockIn t).poisonIn (w.off + l.2) size with
          | some o => .trap (faultAt .poison c.f.pc (windowPoison o))
          | none =>
            let go := fun (u : State) (log : List Nat → State → State) =>
              let step := fun (p : Block × List (Nat × Nat)) (l : Nat × Nat) =>
                let old := fromBytes (p.1.bytes (w.off + l.2) size)
                (p.1.writeBytes false (w.off + l.2) (toBytes size (atomNew cls aop size old (c.g.wide nin f.x l.1))),
                 p.2 ++ [(l.1, old)])
              let r := ls.foldl step (c.blockIn u, [])
              let counted := r.1.countAtoms (ls.flatMap fun l => wordsAt size (w.off + l.2))
              let b1 := counted.1.dirty f.handle.toNat (linesOf size (ls.map (·.2)))
              let u1 := log counted.2 (u.updBlock c.g.block fun _ => b1)
              if returns then
                let old := fun (j : Nat) => ((r.2.find? fun x => x.1 == j).map (·.2)).getD 0
                .done (u1.fly c { Flight.plain u1.uid 4 c.f.pc m with writes := destWrites m nout f.x old })
              else .done (u1.pass c 4)
            if c.b.check.isNone then go t fun _ u => u
            else
              match t.consult c .storeOrder op 0 with
              | .diverged u => .placed u
              | .replay d u => if u.atomBefore c (pairsOf d) then .wait 6 s else go u fun _ u => u
              | .perform => go t fun ws u => u.record c.uid .storeOrder op ws 0

/-! ### Meanings -/

/-- ATOM (10 R261). -/
def execAtom (f : FormE) (s : State) : Out := atomMem s f 0xA0 0

/-- ATOM_WINDOW (10 R261). -/
def execAtomWindow (f : FormG) (s : State) : Out := atomWin s f 0xA0 0 true

/-- CAS (10 R261). -/
def execCas (f : FormE) (s : State) : Out := atomMem s f 0xA1 1

/-- CAS_WINDOW (10 R261). -/
def execCasWindow (f : FormG) (s : State) : Out := atomWin s f 0xA1 1 true

/-- RED (10 R261). -/
def execRed (f : FormE) (s : State) : Out := redMem s f 0xA2 0

/-- RED_WINDOW (10 R261). -/
def execRedWindow (f : FormG) (s : State) : Out := atomWin s f 0xA2 0 false

/-- ATOMF (10 R261). -/
def execAtomf (f : FormE) (s : State) : Out := atomMem s f 0xA3 3

/-- ATOMF_WINDOW (10 R261). -/
def execAtomfWindow (f : FormG) (s : State) : Out := atomWin s f 0xA3 3 true

/-- REDF (10 R261). -/
def execRedf (f : FormE) (s : State) : Out := redMem s f 0xA4 3

/-- REDF_WINDOW (10 R261). -/
def execRedfWindow (f : FormG) (s : State) : Out := atomWin s f 0xA4 3 false

/-- ATOMW (10 R261). -/
def execAtomw (f : FormE) (s : State) : Out := atomMem s f 0xA5 4

end Sys2Proof.Machine
end

