-- ==== Sys2Proof/Machine/Debug.lean ====
section
/-! DEFINITION. Observing the machine (chapter 21): holds, stop records and the debugger's commands (R411 to R417), tagged sampling (R418, R419), rings and trace (R420, R421), and dumps (R422 to R425). -/

namespace Sys2Proof.Machine
open Sys2Proof

/-! ### Pipes -/

/-- The opcodes of formats E and G whose operand at bit 47 is a destination. -/
def bigDests : List Nat :=
  [0x22, 0x7E, 0x80, 0x82, 0x84, 0x86, 0x89, 0xA0, 0xA1, 0xA3, 0xA5, 0xB3, 0xB5, 0xB6, 0xD9, 0xE1, 0xE4, 0xE8, 0xE9, 0xEA, 0xEB, 0xEC, 0xF0, 0xF2]

/-- Whether a word's destination names the scalar file (01 R10, R11): the operand at bit 47 of formats A to C, of movi, and of lea, the loads and other results of formats E and G. -/
def scalarDest (w : Nat) : Bool :=
  let op := bitsAt w 56 8
  bitAt w 47 && (decide (bitsAt w 48 3 ≤ 2) || op == 0x25 || bigDests.contains op)

/-- The pipe an instruction issues to (01 R10), in the numbers of 21 R418: 0 FMA, 1 integer/permute, 2 memory/queue, 3 scalar/branch. -/
def pipeOf (w : Nat) : Nat :=
  let op := bitsAt w 56 8
  if op ≤ 0x2F then (if scalarDest w then 3 else 1)
  else if op ≤ 0x5F then (if scalarDest w then 3 else 0)
  else if op ≤ 0x6F then 1
  else if op ≤ 0x7F then 3
  else if op ≤ 0xEF then 2
  else 3

/-- The passes of an instruction over its pipe (01 R11): one where its destination names the scalar file, and one of a control instruction (08 R204); else one for each mask word that holds an effective lane. -/
def passesOf (w : Nat) (eff : Mask) : Nat :=
  if scalarDest w || bitsAt w 60 4 == 7 then 1
  else ((List.range 4).filter fun i => bitsAt eff.toNat (32 * i) 32 != 0).length

/-- Whether a word names a register that its instruction writes: results of opcodes up to 0x6F, the link of call, the status of enq.try, and those of formats E and G. -/
def namesDest (w : Nat) : Bool :=
  let op := bitsAt w 56 8
  decide (op ≤ 0x6F) || op == 0x73 || (op == 0x7F && bitsAt w 16 16 == 1) || bigDests.contains op

/-! ### Selection (07 R191, 08 R211) -/

/-- The slot of its quarter that a group occupies: the groups on a quarter fill its 24 slots in the order of their start (DESIGN CHOICE, log 3: the spec numbers no slot). -/
def State.slotOf (s : State) (uid : Nat) (g : Group) : Nat :=
  (s.groups.filter fun k x =>
    decide (k < uid) && !x.seq && decide (x.core = g.core ∧ x.quarter = g.quarter ∧ x.life ≠ .ended)
      && (match s.blocks.get x.block with | some b => b.onCores | none => false)).rows.length

/-- The place of the rotating pointer of a pipe of a group's quarter. -/
def Group.pipeKey (g : Group) (pipe : Nat) : Nat := 16 * g.core + 4 * g.quarter + pipe

/-- The rotating pointers of some pipes of a group's quarter move to the slot after its own. -/
def State.passSlot (s : State) (uid : Nat) (g : Group) (pipes : List Nat) : State :=
  { s with pointers := pipes.foldl (fun t p => t.put (g.pipeKey p) ((s.slotOf uid g + 1) % 24)) s.pointers }

/-- What a fragment offers to a pipe: who, its key of quarter and pipe, its slot, since when it is ready, and its lowest lane. -/
structure Offer where
  who : Issuer
  key : Nat
  slot : Nat
  ready : Nat
  lane : Nat
  deriving DecidableEq, Repr

/-- The offer of a fragment of a group that stands at an instruction and waits on nothing. A fragment at a header, one whose wait is tested again, and a sequencer, which has its issue port to itself, offer nothing: selection does not hold them back. -/
def State.offer (s : State) (c : Ctx) : Option Offer :=
  if c.g.seq || decide (c.f.phase ≠ .run) || decide (c.f.stall ≠ 0) then none
  else
    match s.peek c c.f.pc with
    | .word w => some { who := { group := c.uid, frag := c.fid }, key := c.g.pipeKey (pipeOf w.toNat), slot := s.slotOf c.uid c.g,
                        ready := c.f.ready, lane := lowestLane c.f.mask }
    | .trap _ _ _ | .absent _ => none

/-- Whether one offer of a pipe is taken before another (07 R191): of one group the longest ready, then the lowest lane; else the aged, those longest ready first; else the first at or after the pointer. Cycles are counted in instructions issued (log 5). -/
def State.before_ (s : State) (a b : Offer) : Bool :=
  let aged := fun (o : Offer) => decide (o.ready + 64 ≤ s.tick)
  let far := fun (o : Offer) => (o.slot + 24 - s.pointers.getD a.key 0) % 24
  if a.who.group = b.who.group then decide (a.ready < b.ready) || (a.ready == b.ready && decide (a.lane < b.lane))
  else if aged a || aged b then aged a && (!aged b || decide (a.ready < b.ready) || (a.ready == b.ready && decide (far a < far b)))
  else decide (far a < far b)

/-- The offers that the pipes of every quarter take: no other offer of the pipe comes first. -/
def State.chosen (s : State) (os : List Offer) : List Offer :=
  let own := os.filter fun a => !os.any fun b => b.key == a.key && b.who.group == a.who.group && s.before_ b a
  own.filter fun a => !own.any fun b => b.key == a.key && s.before_ b a

/-! ### What may issue -/

/-- Whether a hold lets a fragment issue: only that of a single step, the one with its group's lowest lane (21 R415). -/
def Ctx.unheld (c : Ctx) : Bool :=
  match c.b.hold with
  | none => true
  | some h => decide (h.step = some c.uid) && decide (c.g.fragOfLowest c.g.liveLanes = some c.fid)

/-- Whether a block's fragments issue: resident, or in the handler of a pre-emption, which a sequencer has not (07 R191, R197, 08 R217). A sequencer's go on while the anchor block's window write-back is awaited, and while it is aborted for a page (06 R145). -/
def Block.issues (b : Block) (seq : Bool) : Bool :=
  match b.life with
  | .resident => true
  | .quiesced => !seq
  | .closing _ | .waitPage | .queued => seq
  | .saved | .ended => false

/-- The trap from outside that this fragment takes at its boundary: it holds the lowest live lane of those the trap concerns. In a pre-emption or resume handler it waits (17 R364). -/
def Ctx.lateTrap (c : Ctx) : Option LatePoison :=
  if c.f.handler = .preempt ∨ c.f.handler = .resume then none
  else c.g.late.find? fun p =>
    decide (p.mask &&& c.g.liveLanes ≠ 0) && c.f.mask.getLsbD (lowestLane (p.mask &&& c.g.liveLanes))

/-- Whether a trap from outside, or one of the log, is due at the fragment's boundary. -/
def Ctx.outsideTrap (c : Ctx) : Bool := if c.repeats then c.loggedTrap.isSome else c.lateTrap.isSome

/-- Whether a fragment may issue (07 R191). A fragment that is spilled, or whose group has executed pdone, does not, nor one that waits at its reconvergence header, but to take a trap at that boundary (10 R252, 19 R402). -/
def Ctx.issues (c : Ctx) (s : State) : Bool :=
  s.running && c.b.issues c.g.seq && c.unheld && (c.b.quiesce.isNone || c.b.hold.isSome) && decide (c.g.life = .live) && (decide (c.f.phase ≠ .reconv) || c.outsideTrap) && c.f.onChip
    && !c.g.doneMark && !(s.part c.l.part).frozen && c.l.ended.isNone

/-- The fragments of the machine, by group and fragment. -/
def State.fragments (s : State) : List Issuer :=
  s.groups.rows.flatMap fun r => r.2.frags.rows.map fun x => { group := r.1, frag := x.1 }

/-- The offers of the fragments that may issue now. -/
def State.offers (s : State) : List Offer :=
  s.fragments.filterMap fun p => ((s.ctxOf p.group p.frag).filter fun c => c.issues s).bind s.offer

/-- The issue state of a fragment: of the reasons that hold, the one with the lowest code (07 R193). A pre-emption is in progress from its order to its capture, and again once the group has executed pdone. -/
def State.issueState (s : State) (c : Ctx) : Nat :=
  if !c.unheld then 1
  else if c.b.quiesce.isSome || c.g.doneMark then 2
  else if c.f.phase = .arrive ∨ c.f.stall = 3 then 3
  else if !c.f.onChip then 4
  else if c.f.stall = 0 then
    match (if c.issues s then s.offer c else none) with
    | some o => if (s.chosen s.offers).contains o then 0 else 13
    | none => 0
  else c.f.stall

/-! ### Stop records -/

/-- The segment a block stands in: that of its group that is furthest behind (16 R337). -/
def State.segOf (s : State) (bid : Nat) (b : Block) : Nat :=
  match ((s.groups.filter fun _ g => decide (g.block = bid) && !g.seq && decide (g.life ≠ .ended)).rows.map fun r => r.2.marks) with
  | [] => b.seg
  | m :: ms => ms.foldl min m

/-- A record written to a partition's debug ring, padded to whole slots (21 R414, R420). -/
def State.debugRecord (s : State) (part : Nat) (rec_ : List Byte) : State :=
  match (s.part part).debugRing with
  | none => s
  | some r =>
    let x := ringPut s.mem r 64 (rec_ ++ List.replicate ((64 - rec_.length % 64) % 64) 0)
    (s.updPart part fun p => { p with debugRing := some x.2 }).pokes x.1

/-- A fragment's entry of a stop record (21 R414), with its issue state as it was before the hold. -/
def State.fragEntry (s : State) (uid fid : Nat) (g : Group) (f : Frag) (b : Block) (l : Launch) (ended : Bool) : List Byte :=
  let c : Ctx := { uid := uid, fid := fid, g := g, f := f, b := { b with hold := none }, l := l }
  toBytes 1 g.idx ++ toBytes 1 (s.issueState c) ++ toBytes 1 ((if f.handler = .none then 0 else 1) + (if ended then 2 else 0))
    ++ toBytes 1 0 ++ toBytes 10 f.pc.toNat ++ toBytes 2 0 ++ toBytes 16 f.mask.toNat ++ toBytes 4 f.cause.toNat
    ++ toBytes 4 0 ++ toBytes 8 f.tinfo.toNat

/-- A barrier's entry of a stop record (21 R414). -/
def barEntry (n : Nat) (b : Barrier) : List Byte :=
  toBytes 1 n ++ toBytes 1 ((if b.init then 1 else 0) + (if b.poisoned then 2 else 0)) ++ toBytes 2 0
    ++ toBytes 4 b.p.toNat ++ toBytes 4 b.eb ++ toBytes 4 b.ea ++ toBytes 4 b.cb ++ toBytes 4 b.ca

/-- A barrier of a block, clear before its first use (10 R264). -/
def Block.barAt (b : Block) (n : Nat) : Barrier :=
  (b.bars.get n).getD { p := 0, eb := 0, ea := 0, cb := 0, ca := 0, init := false, poisoned := false }

/-- The stop record of a block (21 R414). -/
def State.stopRecord (s : State) (bid : Nat) (b : Block) (l : Launch) (cause bp code : Nat) : List Byte :=
  let gs := (s.groups.filter fun _ g => decide (g.block = bid) && !g.seq).rows
  let byIdx := (List.range 24).flatMap fun i => gs.filter fun r => r.2.idx == i
  let frags := byIdx.flatMap fun r => r.2.frags.rows.map fun x =>
    s.fragEntry r.1 x.1 r.2 x.2 b l (s.waitEnds x.2)
  blockName b l (s.segOf bid b) ++ toBytes 1 cause ++ toBytes 1 bp ++ toBytes 2 frags.length ++ toBytes 1 l.hdr.barriers
    ++ toBytes 3 0 ++ toBytes 8 s.now ++ toBytes 4 code ++ toBytes 12 0 ++ frags.flatten
    ++ (List.range l.hdr.barriers).flatMap fun i => barEntry i (b.barAt i)

/-! ### Holding -/

/-- The group index that records name an issue stream by: a sequencer's is 0. -/
def Group.name (g : Group) : Nat := if g.seq then 0 else g.idx

/-- Whether a block can be held: a primary or unchecked one that is neither held nor quiescing, and is on its cores, or belongs to a tile set whose sequencer goes on without it (21 R413, R417, 06 R145). -/
def State.holdable (s : State) (b : Block) : Bool :=
  decide (b.run ≤ 1) && b.hold.isNone && b.quiesce.isNone
    && (match b.life with
        | .resident => true
        | .closing _ | .waitPage | .queued => (b.set.bind s.sets.get).any fun t => !t.seqEnded && !t.ended
        | .quiesced | .saved | .ended => false)

/-- A block is held with every block of its set (21 R413): waits end without effect, and a record is written for each; one that is quiescing is held when it resumes (R417). `gidx` names the group that met the stop, where one did. -/
def State.holdBlock (s : State) (bid cause bp code : Nat) (pc : Addr) (gidx : Nat := 0) : State :=
  let h : Hold := { cause := cause, bp := bp, code := code, step := none }
  match s.blocks.get bid with
  | none => s
  | some b =>
    if b.run ≤ 1 ∧ b.hold.isNone ∧ (b.life = .quiesced ∨ b.quiesce.isSome) then
      s.updBlock bid fun b => { b with holdAtResume := b.holdAtResume.or (some h) }
    else if !s.holdable b then s
    else
      (s.unit bid).foldl (fun t i =>
        match s.blocks.get i with
        | none => t
        | some x =>
          match s.launches.get x.launch with
          | none => t
          | some l =>
            let rec_ := s.stopRecord i x l cause bp code
            let t1 := if cause ≠ 4 ∨ (s.part l.part).debugger.isSome then t.debugRecord l.part rec_ else t
            (t1.trace x l (s.segOf i x) gidx 2 0 pc 0 none).updBlock i fun y => { y with hold := some h }) (s.endWaits bid)

/-- A block is released with every block of its set (21 R415): its fragments are ready from then on, and what each issues first matches no breakpoint. -/
def State.releaseBlock (s : State) (bid : Nat) : State :=
  let us := s.unit bid
  let mark := fun (_ : Nat) (g : Group) =>
    if us.contains g.block then { g with frags := g.frags.map fun _ (f : Frag) => { f with free := true, ready := s.tick } } else g
  let s1 : State := { s with groups := s.groups.map mark }
  us.foldl (fun s i => s.updBlock i fun b => { b with hold := none }) s1

/-- After a move of a fragment whose block makes a single step: once its instruction has retired, by which its freedom from breakpoints ends, the block is held again (21 R415). -/
def State.afterStep (s : State) (c : Ctx) : State :=
  match c.b.hold with
  | none => s
  | some h =>
    if h.step ≠ some c.uid then s
    else
      let going := match (s.groups.get c.uid).bind fun (g : Group) => g.frags.get c.fid with
        | some f => f.free
        | none => false
      if going then s
      else
        let us := s.unit c.g.block
        let s1 := us.foldl (fun s i => s.updBlock i fun b => { b with hold := none }) s
        s1.holdBlock c.g.block 3 0 0 c.f.pc c.g.name

/-- The breakpoint that the word a fragment is about to issue matches (21 R412, R413). -/
def State.breakAt (s : State) (c : Ctx) : Option Nat :=
  if c.f.free || c.repeats || c.f.phase ≠ .run || c.f.pend ≠ .none || (c.f.stall ≠ 0 && c.f.stall ≠ 3) || c.b.hold.isSome || !(match (s.part c.l.part).debugger with | some b => b | none => false) then none
  else
    ((s.part c.l.part).bps.rows.find? fun r =>
      decide (r.2.addr = c.f.pc) && (decide (r.2.launch = 0xFFFFFFFF) || decide (r.2.launch = c.l.ident))).map (·.1)

/-! ### The debugger's commands (21 R412) -/

/-- A command refused. -/
def State.denied (s : State) : State := { s with sent := s.sent ++ [Sent.refused] }

/-- An access through the virtual function of a partition: that of a disabled one answers Unsupported Request (22 R427). -/
def State.throughVf (s : State) (part : Nat) (t : State) : Out :=
  .next (if (s.part part).enable then t else { s with sent := s.sent ++ [Sent.unsupported] })

/-- The blocks of a launch of a partition, by identifier, that a block index names; all of them for 0xFFFF_FFFF. -/
def State.named (s : State) (part ident index : Nat) : List (Nat × Block) :=
  s.blocks.rows.filter fun r =>
    match s.launches.get r.2.launch with
    | some l => decide (l.part = part ∧ l.ident = ident) && (decide (index = 0xFFFFFFFF) || decide (r.2.index = index))
    | none => false

/-- The held block that a command names: of these only STOP names every block by 0xFFFF_FFFF. -/
def State.heldBlock (s : State) (part ident index : Nat) : Option (Nat × Block) :=
  (s.named part ident index).find? fun r => r.2.hold.isSome && decide (r.2.index = index)

/-- Whether a partition's debugger may stop. -/
def State.stops (s : State) (part : Nat) : Bool := decide ((s.part part).debugger = some true)

/-- ATTACH (21 R412). -/
def execDebugAttach (part : Nat) (stops : Bool) (s : State) : Out :=
  .next (if (s.part part).debugger.isSome then s.denied else s.updPart part fun p => { p with debugger := some stops })

/-- DETACH (21 R412, R417): every held block is released, and no stop is kept for a resume. -/
def execDebugDetach (part : Nat) (s : State) : Out :=
  .next (if (s.part part).debugger.isNone then s.denied
    else
      let held := s.blocks.rows.filter fun r => r.2.hold.isSome && (match s.launches.get r.2.launch with
        | some l => decide (l.part = part)
        | none => false)
      let s1 := held.foldl (fun s r => s.releaseBlock r.1) s
      let s2 : State := { s1 with blocks := s1.blocks.map fun _ b =>
        if (match s.launches.get b.launch with | some l => decide (l.part = part) | none => false) then { b with holdAtResume := none } else b }
      s2.updPart part fun p => { p with debugger := none, bps := Table.empty })

/-- STOP (21 R412, R413). -/
def execDebugHold (part launch block : Nat) (s : State) : Out :=
  .next (if !s.stops part || (s.named part launch block).isEmpty then s.denied
    else (s.named part launch block).foldl (fun s r => s.holdBlock r.1 2 0 0 0) s)

/-- RELEASE (21 R415). -/
def execDebugRelease (part launch block : Nat) (s : State) : Out :=
  .next (match s.heldBlock part launch block with
    | none => s.denied
    | some r => s.releaseBlock r.1)

/-- STEP (21 R415): the fragment with the lowest lane of the named group issues one instruction that matches no breakpoint. -/
def execDebugOne (part launch block group : Nat) (s : State) : Out :=
  .next (match s.heldBlock part launch block with
    | none => s.denied
    | some r =>
      match s.groups.rows.find? fun x => decide (x.2.block = r.1 ∧ x.2.idx = group) && !x.2.seq with
      | none => s.denied
      | some (u, g) =>
        match g.fragOfLowest g.liveLanes with
        | none => s.denied
        | some fid =>
          (s.updBlock r.1 fun b => { b with hold := b.hold.map fun h => { h with step := some u } }).updFrag u fid
            fun f => { f with free := true })

/-- SETBP (21 R412). -/
def execDebugSetBp (part n : Nat) (address : Addr) (launch : Nat) (s : State) : Out :=
  .next (if !s.stops part || 7 < n || address.toNat % 8 ≠ 0 then s.denied
    else s.updPart part fun p => { p with bps := p.bps.put n { addr := address, launch := launch } })

/-- CLRBP (21 R412). -/
def execDebugClrBp (part n : Nat) (s : State) : Out :=
  .next (s.updPart part fun p => { p with bps := p.bps.del n })

/-- The group of a block by its index. -/
def State.groupAt (s : State) (bid idx : Nat) : Option (Nat × Group) :=
  s.groups.rows.find? fun x => decide (x.2.block = bid ∧ x.2.idx = idx) && !x.2.seq

/-- A window record as words: set, offset, length, mode, mapped, base (21 R412; log 13). -/
def windowWords (w : Option Window) : List Nat :=
  match w with
  | none => [0]
  | some w => [1, w.off, w.len, w.mode, if w.mapped then 1 else 0, w.base]

/-- READ (21 R412). -/
def execDebugRead (part launch block : Nat) (what : DebugItem) (s : State) : Out :=
  .next (match (match what with | .sampling _ => none | _ => s.heldBlock part launch block) with
    | none => s.denied
    | some (bid, b) =>
      let say := fun (t : State) (d : List Nat) => ({ t with sent := t.sent ++ [Sent.reply d] } : State)
      match what with
      | .vreg g r => match s.groupAt bid g with
        | some x => say s ((x.2.vreg r).toList.map (·.toNat))
        | none => s.denied
      | .sreg g r => match s.groupAt bid g with
        | some x => say s [(x.2.sreg r).toNat]
        | none => s.denied
      | .mask g r => match s.groupAt bid g with
        | some x => say s [(x.2.mreg x.2.liveLanes r).toNat]
        | none => s.denied
      | .window w => say s (windowWords (b.windows.get w))
      | .sampling _ => s.denied
      | .storeWord i => say s [(match b.store.get i with
          | some w => w.val
          | none => match b.undef with | some d => Config.freeWord d 65536 i | none => 0).toNat])

/-- Sampling set for a virtual device (21 R418): off, or on with a mean interval of 256 to 2^24 cycles, the generators seeded from the timebase. -/
def State.setSampling (s : State) (part vdev : Nat) (mean : Option Nat) : State :=
  let seed := if toWord s.now = 0 then 0x6D2B79F5 else toWord s.now
  s.updPart part fun p => { p with vdev := p.vdev.upd vdev fun (v : Vdev) =>
    match mean with
    | some m => { v with sampling := true, mean := min (max m 256) (2 ^ 24), seed := seed, gens := Table.empty }
    | none => { v with sampling := false } }

/-- WRITE (21 R412). The debugger's setting of sampling (21 R418), for which R412 lists no command, comes as a WRITE that names no block: the mean interval, 0 for off (DESIGN CHOICE, log 13). -/
def execDebugWrite (part launch block : Nat) (what : DebugItem) (data : List Word) (s : State) : Out :=
  .next (match what, s.heldBlock part launch block with
    | .sampling v, _ =>
      if (s.part part).debugger.isNone then s.denied
      else
        let m := (data.headD 0).toNat
        s.setSampling part v (if m = 0 then none else some m)
    | _, none => s.denied
    | _, some (bid, b) =>
      if b.run ≠ 0 then s.denied
      else
        let d := fun (i : Nat) => data.getD i 0
        let grp := fun (g : Nat) (w : RegWrite) => match s.groupAt bid g with
          | some x => s.putGroup x.1 (x.2.write w)
          | none => s.denied
        match what with
        | .vreg g r => grp g (.vec r (BitVec.allOnes 128) (mkLanes d))
        | .sreg g r => grp g (.sca r (d 0))
        | .mask g r => if r = 0 then s.denied else grp g (.msk r (BitVec.allOnes 128) (BitVec.ofNat 128 (fromWords (data.take 4))))
        | .window w =>
          let n := fun (i : Nat) => (d i).toNat
          if n 0 = 0 then s.updBlock bid fun b => { b with windows := b.windows.del w }
          else
            let x : Window := { off := n 1, len := n 2, mode := n 3, mapped := n 4 != 0, base := fromWords (data.drop 5) % 2 ^ 80,
                                filled := [], dirty := [] }
            s.updBlock bid fun b => { b with windows := b.windows.put w x }
        | .sampling _ => s
        | .storeWord i => s.updBlock bid fun b =>
          let full := match b.store.get i with | some w => w.full | none => false
          { b with store := b.store.put i { val := d 0, full := full, poison := false } })

/-! ### Sampling -/

/-- The memory level that serves an access to an address now (01 R23): a peer or the host, whichever die it starts on (01 R24); another die; a slice that holds the line, near or remote; else the die's own DRAM. A line of the host that the near slice holds is served there (09 R238). -/
def State.levelAt (s : State) (c : Ctx) (va : Nat) (acc : Access) : Nat :=
  match (s.lookup c.l.part c.l.hdr.vdev c.g.core va acc).1 with
  | .ok pa _ =>
    let near := s.sliceFor c.g.core
    let holds := fun (slice : Nat) => (s.l2.getD slice []).any fun e => decide (e.line = pa / 128 ∧ e.kind = .cached)
    let home := s.home (pa / 128)
    if (peerOf pa).isSome then 6
    else if isHost pa then (if holds near then 2 else 7)
    else if dieOfCore home ≠ dieOfCore c.g.core then 5
    else if holds home then (if home = near then 2 else 3)
    else 4
  | .protect _ | .declined | .absent _ => 0

/-- The memory level of an instruction's access (21 R419): none; the core store for windows and full/empty words; the place that serves its lowest lane (DESIGN CHOICE, log 5: the spec names one level for a record and lets an access go to several). -/
def State.levelOf (s : State) (c : Ctx) (m : Mask) (i : Instr) : Nat :=
  let at_ := fun (f : FormE) (disp : Int) (acc : Access) => match c.addrs f disp m with | [] => 0 | x :: _ => s.levelAt c x.2 acc
  if m = 0 then 0
  else
    match i with
    | .ld f | .ldu f | .prefetch f => at_ f (dispE f) .load
    | .st f | .stu f => at_ f (dispE f) .store
    | .atom f | .cas f | .red f | .atomf f | .redf f | .atomw f => at_ f (dispA f) .atomic
    | .ldw _ | .stw _ | .ldf _ | .ste _ | .fefill _ | .feget _ | .fillw _ | .flushw _ | .atomWindow _ | .casWindow _ | .redWindow _
    | .atomfWindow _ | .redfWindow _ => 1
    | _ => 0

/-- A free count of cycles of a tagged instruction, saturated (21 R419; log 5). -/
def State.freeCycles (s : State) (i : Nat) : Nat := min (Config.freeNs (8 * s.tick + i)) 65535

/-- SAMPLE_TAG (21 R418, R419): a quarter's interval has passed as a fragment of it is to issue: its generator steps, and that instruction is tagged, its record to be written when it completes or faults. -/
def execSampleTag (core quarter group frag : Nat) (s : State) : Out :=
  .next (match s.ctxOf group frag with
    | none => s
    | some c =>
      let v := (s.part c.l.part).vd c.l.hdr.vdev
      let key := 4 * core + quarter
      if !v.sampling || c.g.seq || c.g.core ≠ core || c.g.quarter ≠ quarter || c.f.phase ≠ .run || !c.issues s || c.outsideTrap then s
      else
        let stepped := fun (v : Vdev) => ({ v with gens := v.gens.put key (srStep (v.gens.getD key v.seed)) } : Vdev)
        let s1 := s.updPart c.l.part fun p => { p with vdev := p.vdev.upd c.l.hdr.vdev stepped }
        match s.peek c c.f.pc with
        | .word w =>
          let eff := c.eff { neg := bitAt w.toNat 55, mask := BitVec.ofNat 4 (bitsAt w.toNat 51 4) }
          let level := match decodeWord c.g.seq c.f.atLast w with
            | .ok i => s.levelOf c eff i
            | .error _ => 0
          let head := blockName c.b c.l c.seg ++ toBytes 10 c.f.pc.toNat ++ toBytes 1 c.g.idx
            ++ toBytes 1 (pipeOf w.toNat + 4 * level) ++ toBytes 1 (s.issueState c)
            ++ toBytes 1 (countOnes 128 eff.toNat) ++ toBytes 1 (bitsAt w.toNat 56 8) ++ toBytes 1 (passesOf w.toNat eff)
          let x : Sample :=
            { group := c.uid, frag := c.fid, part := c.l.part, vdev := c.l.hdr.vdev, launch := c.b.launch, pc := c.f.pc, count := c.f.count,
              handler := c.f.handler, from_ := s.uid, mask := eff, bytes := head, hasDest := namesDest w.toNat, retired := none }
          { s1 with samples := s1.samples ++ [x] }
        | _ => s1)

/-- What has become of a tagged instruction (21 R419): nothing yet; or, once its fragment has left the word, whether it faulted there, and its operations in flight. The kernel's end by another party leaves it without a record. -/
def State.sampleNow (s : State) (x : Sample) : Option Sample :=
  match x.retired with
  | some (bad, ids) =>
    let left := ids.filter fun i => ((s.groups.get x.group).map fun (g : Group) => g.flights.any fun f => f.id == i && !f.done).getD false
    let late := ((s.groups.get x.group).map fun (g : Group) => g.late.any fun p => decide (p.pc = x.pc)).getD false
    some { x with retired := some (bad || late, left) }
  | none =>
    match (s.groups.get x.group).bind fun (g : Group) => (g.frags.get x.frag).map fun f => (g, f) with
    | none =>
      if ((s.launches.get x.launch).map fun (l : Launch) => l.ended.isSome).getD true && decide (s.cur ≠ some { group := x.group, frag := x.frag }) then none
      else some { x with retired := some (((s.launches.get x.launch).map fun (l : Launch) => l.ended.isSome).getD true, []) }
    | some (g, f) =>
      if f.pc = x.pc ∧ f.count = x.count ∧ f.phase = .run then some x
      else
        let faulted := decide (f.handler ≠ x.handler ∧ (f.handler = .fault ∨ f.handler = .view) ∧ f.tpc = x.pc)
        let mine := (g.flights.filter fun y => decide (x.from_ ≤ y.id ∧ y.pc = x.pc) && !y.done && decide (y.mask &&& ~~~x.mask = 0)).map (·.id)
        some { x with retired := some (faulted, if faulted then [] else mine) }

/-- The record of a tagged instruction (21 R419): what it says of time is free, its stages after a fault are zero, and its write-back is zero where it has no destination and raised no class. -/
def State.sampleRecord (s : State) (x : Sample) (bad : Bool) (classed : Bool) : List Byte :=
  let stage := fun (i : Nat) =>
    if i = 4 then (if bad || !(x.hasDest || classed) then 0 else s.freeCycles 4)
    else if i = 3 && bad then 0
    else s.freeCycles i
  x.bytes ++ ((List.range 5).flatMap fun i => toBytes 2 (stage i)) ++ toBytes 2 0 ++ toBytes 4 s.now

/-- A sampling record reaches its virtual device's ring, where one stands (21 R420). -/
def State.putSample (s : State) (x : Sample) (rec_ : List Byte) : State :=
  match (s.part x.part).sampleRings.get x.vdev with
  | none => s
  | some r =>
    let y := ringPut s.mem r 64 rec_
    (s.updPart x.part fun p => { p with sampleRings := p.sampleRings.put x.vdev y.2 }).pokes y.1

/-- The records of the tagged instructions that have completed or faulted are written, and the others wait. -/
def State.closeSamples (s : State) : State :=
  if s.samples.isEmpty then s
  else
    s.samples.foldl (fun t x =>
      match s.sampleNow x with
      | none => t
      | some y =>
        match y.retired with
        | some (bad, []) => t.putSample y (t.sampleRecord y bad (x.retired.any fun z => !z.2.isEmpty))
        | _ => { t with samples := t.samples ++ [y] }) { s with samples := [] }

/-! ### Rings and trace -/

/-- Whether a ring's base and entry count are as 21 R420 says, the ring in host or device memory. -/
def ringOk (base entries : Nat) : Bool :=
  [64, 128, 256, 512, 1024, 2048, 4096, 8192, 16384, 32768, 65536].contains entries && decide (base < 2 ^ 80)
    && decide (base % (64 * entries) = 0)
    && ((isHost base && isHost (base + 64 * entries - 1)) || (isDevice base && isDevice (base + 64 * entries - 1)))

/-- The address at which a ring keeps its indices. -/
def RingKind.desc : RingKind → Nat
  | .debug d | .sample _ d | .trace _ d => d

/-- RING_REGISTER (21 R420): the ring starts empty. Its write index, its read index, which the reader advances there, and its dropped counter stand in memory at the address given with it, in the places of a descriptor of 17 R382 (DESIGN CHOICE, log 28). -/
def execRingRegister (part : Nat) (ring : RingKind) (base entries : Nat) (s : State) : Out :=
  let d := RingKind.desc ring
  .next (if !ringOk base entries || d % 64 ≠ 0 || !(isHost d || isDevice d) then s.denied
    else
      let r : Ring := { desc := d, base := base, entries := entries, windex := 0, dropped := 0 }
      (s.updPart part fun p =>
        match ring with
        | .debug _ => { p with debugRing := some r }
        | .sample v _ => { p with sampleRings := p.sampleRings.put v r }
        | .trace v _ => { p with traceRings := p.traceRings.put v r }).poke (d + 0x14) (List.replicate 20 0))

/-- TRACE_ENABLE (21 R421). -/
def execTraceEnable (part vdev : Nat) (on : Bool) (channels : BitVec 16) (kinds : BitVec 8) (s : State) : Out :=
  .next (s.updPart part fun p =>
    let v : Vdev := { p.vd vdev with trace := on, channels := channels, kinds := kinds }
    { p with vdev := p.vdev.put vdev v })

/-! ### Dumps -/

/-- Bytes of a block's store on each of n cores (01 R14). -/
def Launch.share (l : Launch) (n : Nat) : Nat := ((l.hdr.store + n - 1) / n + 127) / 128 * 128

/-- A section of a dump (21 R423): unit, logical cluster and core, group, block name index, 20 bytes of location, data. -/
def section_ (unit cluster core group name loc : Nat) (data : List Byte) : List Byte :=
  toBytes 1 unit ++ toBytes 1 cluster ++ toBytes 1 core ++ toBytes 1 group ++ toBytes 4 name ++ toBytes 4 data.length
    ++ toBytes 20 loc ++ data

/-- Bits packed eight to a byte, lowest first. -/
def packBits (bs : List Bool) : List Byte :=
  toBytes ((bs.length + 7) / 8) (bs.foldr (fun b n => (if b then 1 else 0) + 2 * n) 0)

/-- The blocks a dump walks, by launch identifier and block index (21 R423): those on their cores, in whatever run, and those off them, whose saved state lies in save memory (R425). -/
def State.dumpBlocks (s : State) (part vdev : Nat) : List (Nat × Block × Launch) :=
  let all := s.blocks.rows.filterMap fun r =>
    match s.launches.get r.2.launch with
    | some l =>
      if l.part = part ∧ l.hdr.vdev = vdev ∧ r.2.life ≠ .ended then some (r.1, r.2, l) else none
    | none => none
  all.foldl (fun acc x => ins x acc) []
where
  /-- insertion by launch identifier and block index -/
  ins (x : Nat × Block × Launch) : List (Nat × Block × Launch) → List (Nat × Block × Launch)
    | [] => [x]
    | y :: ys =>
      if x.2.2.ident < y.2.2.ident ∨ (x.2.2.ident = y.2.2.ident ∧ x.2.1.index < y.2.1.index) then x :: y :: ys
      else y :: ins x ys

/-- A split-table entry as a dump shows it: the fields of 07 R187, those of a stop record's entry first (DESIGN CHOICE, log 13). -/
def State.splitEntry (s : State) (uid fid : Nat) (g : Group) (f : Frag) (b : Block) (l : Launch) : List Byte :=
  s.fragEntry uid fid g f b l false ++ toBytes 10 f.tpc.toNat ++ toBytes 4 f.rnd.toNat
    ++ toBytes 1 (if f.reconv.isSome then 1 else 0) ++ toBytes 10 ((f.reconv.map (·.toNat)).getD 0)
    ++ toBytes 1 (if f.sib.isSome then 1 else 0) ++ toBytes 4 (f.sib.getD 0) ++ toBytes 2 0

/-- Sections of some scalar registers and of the vector registers of a group. -/
def regSections (unit : Nat → Nat) (b : Block) (core gidx name scalars vectors : Nat) (g : Group) : List Byte :=
  ((List.range scalars).flatMap fun i => section_ (unit 1) b.lcluster core gidx name i (toBytes 4 (g.sreg i).toNat))
  ++ (List.range vectors).flatMap fun i =>
      section_ (unit 0) b.lcluster core gidx name i ((g.vreg i).toList.flatMap fun w => toBytes 4 w.toNat)

/-- The sections of a group on its core: scalar file, vector registers, split table and spill area (21 R423). A sequencer, which belongs to its cluster, has scalar registers and its split table. -/
def State.groupSections (s : State) (uid : Nat) (b : Block) (l : Launch) (name : Nat) (g : Group) : List Byte :=
  let core := if g.seq then 0xFF else ((b.cores.zip b.lcores).find? fun x => x.1 == g.core).elim 0 (·.2)
  let gidx := if g.seq then 0xFF else g.idx
  let table := fun (unit : Nat) (on : Bool) => match g.frags.rows.filter fun r => r.2.onChip == on with
    | [] => []
    | rs => section_ unit b.lcluster core gidx name 0 (rs.flatMap fun r => s.splitEntry uid r.1 g r.2 b l)
  regSections id b core gidx name (if g.seq then 256 else 1024) (if g.seq then 0 else l.hdr.vregs) g ++ table 5 true ++ table 0 false

/-- The words of a block's store with their full bits. -/
def Block.storeWords (b : Block) (lo n : Nat) : List (Word × Bool) :=
  ((List.range n).map (lo + ·)).map fun i => match b.store.get i with
    | some w => (w.val, w.full)
    | none => match b.undef with
      | some d => (Config.freeWord d 65536 i, (Config.freeWord d 65537 i).getLsbD 0)
      | none => (0, false)

/-- Sections of windows and barriers. -/
def ctlSections (unit : Nat) (b : Block) (name : Nat) (windows : Table Window) (bars : Table Barrier) : List Byte :=
  let core := b.lcores.headD 0
  (windows.rows.flatMap fun r =>
    section_ unit b.lcluster core 0xFF name r.2.off (toBytes 4 r.1 ++ (windowWords (some r.2)).flatMap (toBytes 10)))
  ++ section_ unit b.lcluster core 0xFF name 0 (bars.rows.flatMap fun r => barEntry r.1 r.2)

/-- Sections of a block's store, a share of it on each of its cores (01 R14), with its full and empty bits. -/
def storeSections (unit : Nat) (b : Block) (l : Launch) (name : Nat) : List Byte :=
  let share := l.share (max b.cores.length 1)
  b.lcores.zipIdx.flatMap fun x =>
    let lo := share * x.2
    let ws := b.storeWords (lo / 4) (min share (l.hdr.store - lo) / 4)
    section_ unit b.lcluster x.1 0xFF name lo (ws.flatMap fun w => toBytes 4 w.1.toNat)
      ++ section_ unit b.lcluster x.1 0xFF name lo (packBits (ws.map (·.2)))

/-- The sections of a block on its cores. -/
def blockSections (b : Block) (l : Launch) (name : Nat) : List Byte :=
  storeSections 0 b l name ++ ctlSections 5 b name b.windows b.bars

/-- What save memory holds of a group off its cores, unit 8 (21 R425): as its pre-emption captured it (07 R197), whole where the launch has no handler; of an aborted one its restart point (07 R200). -/
def State.savedSections (s : State) (uid : Nat) (b : Block) (l : Launch) (name : Nat) (g : Group) : List Byte :=
  let gidx := if g.seq then 0xFF else g.idx
  let table := fun (fs : Table Frag) => section_ 8 b.lcluster 0xFF gidx name 0 (fs.rows.flatMap fun r => s.splitEntry uid r.1 g r.2 b l)
  let masks := fun (ms : List Mask) => section_ 8 b.lcluster 0xFF gidx name 0 (ms.flatMap fun m => toBytes 16 m.toNat)
  let scalars := fun (ks : List Word) => ks.zipIdx.flatMap fun x => section_ 8 b.lcluster 0xFF gidx name x.2 (toBytes 4 x.1.toNat)
  if b.life = .saved then
    match g.saved with
    | v :: _ => scalars v.ks ++ masks v.ms ++ table v.frags
    | [] =>
      regSections (fun _ => 8) b 0xFF gidx name (if g.seq then 256 else 1024) (if g.seq then 0 else l.hdr.vregs) g
        ++ masks g.maskRegs ++ table g.frags
  else
    match g.restart with
    | some e => scalars e.ks ++ section_ 8 b.lcluster 0xFF gidx name 0 (toBytes 16 e.mask.toNat ++ toBytes 10 e.pc.toNat ++ toBytes 4 e.rnd.toNat)
    | none => []

/-- What save memory holds of a block off its cores. -/
def savedBlock (b : Block) (l : Launch) (name : Nat) : List Byte :=
  if b.life = .saved then
    match b.captured with
    | some v => ctlSections 8 b name v.windows v.bars
    | none => storeSections 8 b l name ++ ctlSections 8 b name b.windows b.bars
  else []

/-- The sections of a tile set: accumulators, broadcast buffer, result queues (21 R423). -/
def setSections (t : TileSet) (name : Nat) : List Byte :=
  (t.engines.zipIdx.flatMap fun e =>
    (e.1.tiles.rows.flatMap fun a => section_ 4 t.lcluster e.2 0xFF name a.1
      ((List.range 1024).flatMap fun i => toBytes 6 (a.2.acc.getD i 0).toNat))
    ++ section_ 4 t.lcluster e.2 0xFF name 0 (e.1.results.flatMap fun c => c.toList.flatMap fun w => toBytes 4 w.toNat))
  ++ section_ 4 t.lcluster 0xFF 0xFF name 0 ((List.range 65536).map fun i => t.buffer.getD i 0)

/-- A line's byte offset within a partition's ranges, counted over the range table entries in order (21 R423). -/
def Part.offsetOf (p : Part) (pa : Nat) : Nat :=
  (p.ranges.rows.foldl (fun (a : Nat × Bool) r =>
    if a.2 ∨ !r.2.valid then a
    else if r.2.base ≤ pa ∧ pa ≤ r.2.limit then (a.1 + (pa - r.2.base), true)
    else (a.1 + (r.2.limit + 1 - r.2.base), false)) (0, false)).1

/-- The clear stream of a dump (21 R423): of the lines of L2, those cached, the versions and greenware outside the private layers of repeat runs, spilled lines and update-only copies. -/
def State.dumpStream (s : State) (part vdev : Nat) (gates : List (Nat × List Byte)) : List Byte :=
  let bs := s.dumpBlocks part vdev
  let none_ := 0xFFFFFFFF
  section_ 15 0xFF 0xFF 0xFF none_ 0 (bs.flatMap fun x => blockName x.2.1 x.2.2 (s.segOf x.1 x.2.1))
  ++ (bs.zipIdx.flatMap fun y =>
    let (bid, b, l) := y.1
    let gs := (s.groups.filter fun _ g => decide (g.block = bid)).rows
    (if b.onCores then blockSections b l y.2 ++ gs.flatMap fun r => s.groupSections r.1 b l y.2 r.2
      else savedBlock b l y.2 ++ gs.flatMap fun r => s.savedSections r.1 b l y.2 r.2)
    ++ (match b.set.bind s.sets.get with
      | some t => if t.blocks.head? = some bid then setSections t y.2 else []
      | none => []))
  ++ (s.l2.rows.flatMap fun r => (r.2.filter fun e => decide (e.part = part ∧ e.vdev = vdev ∧ e.kind = .cached)).flatMap fun e =>
      section_ 2 0xFF 0xFF 0xFF none_ ((s.part part).offsetOf (128 * e.line))
        ((match s.versions.find? fun v => decide (v.line = e.line) with
          | some v => v.data.toList
          | none => Memory.readN s.mem (128 * e.line) 128)))
  ++ ((s.versions.filter fun v => decide (v.part = some part ∧ v.vdev = vdev)).flatMap fun v =>
      section_ 2 0xFF 0xFF 0xFF none_ ((s.part part).offsetOf (128 * v.line)) v.data.toList)
  ++ ((s.green.filter fun h => decide (h.part = part ∧ h.vdev = vdev) && (match h.layer with | some y => y.run == 1 | none => false)).flatMap fun h =>
      section_ 2 0xFF 0xFF 0xFF none_ ((s.part part).offsetOf (128 * h.line)) h.data.toList)
  ++ ((s.buffer.filter fun e => e.spilled && decide (e.vdev = vdev) && s.partOf e.group == some part).flatMap fun e =>
      section_ 2 0xFF 0xFF 0xFF none_ ((s.part part).offsetOf (128 * e.line)) e.data.toList)
  ++ ((s.updates.filter fun u => decide (u.vdev = vdev) && s.partOf u.group == some part).flatMap fun u =>
      section_ 2 0xFF 0xFF 0xFF none_ ((s.part part).offsetOf u.addr) (u.vals.flatMap (toBytes u.bytes)))
  ++ ((s.part part).experts.rows.flatMap fun r => section_ 5 0xFF 0xFF 0xFF none_ r.1
      (toBytes 1 (if r.2.valid then 1 else 0) ++ toBytes 10 r.2.primary.toNat ++ toBytes 1 r.2.kind ++ toBytes 4 r.2.len
        ++ toBytes 10 r.2.fallback.toNat ++ toBytes 8 r.2.routed ++ toBytes 8 r.2.fetched ++ toBytes 8 r.2.fell))
  ++ (gates.flatMap fun g => section_ 5 0xFF 0xFF 0xFF none_ g.1 g.2)

/-- The chunks of a dump (21 R424): clear header, ciphertext and tag of each. -/
def dumpChunks (key : BitVec 256) (part vdev counter : Nat) : Nat → Nat → List Byte → List Byte
  | 0, _, _ => []
  | fuel + 1, i, bs =>
    let n := min bs.length 65536
    let last := bs.length ≤ 65536
    let head := toBytes 1 1 ++ toBytes 1 part ++ toBytes 1 vdev ++ toBytes 1 (if last then 1 else 0) ++ toBytes 4 i
      ++ toBytes 8 counter ++ toBytes 4 n ++ toBytes 12 0
    head ++ Config.aesGcm key (counter * 2 ^ 32 + i) head (bs.take n)
      ++ (if last then [] else dumpChunks key part vdev counter fuel (i + 1) (bs.drop n))

/-- The gate entries of a partition as a dump shows them: the owner's, with access lists. -/
def State.ownedGates (s : State) (part : Nat) : List (Nat × List Byte) :=
  (s.gates.filter fun _ g => decide (g.owner = part)).rows.map fun r =>
    (r.1, toBytes 1 r.2.owner ++ toBytes 1 (if r.2.frozen then 3 else 1) ++ toBytes 1 r.2.depth ++ toBytes 2 r.2.rate
      ++ toBytes 8 r.2.acl.toNat ++ toBytes 8 r.2.value ++ toBytes 8 r.2.seq ++ toBytes 8 r.2.stamp ++ toBytes 2 r.2.level
      ++ toBytes 4 r.2.deferred ++ toBytes 48 r.2.payload.toNat)

/-- Whether a block belongs to a virtual device. -/
def State.ofDevice (s : State) (part vdev : Nat) (b : Block) : Bool :=
  (s.launches.get b.launch).any fun l => decide (l.part = part ∧ l.hdr.vdev = vdev)

/-- DUMP (21 R422, R425): refused without a key, an enabled virtual device, a free engine and a destination in host memory for the whole length; the device's blocks are held, the engine walks the SRAMs as they then stand (DESIGN CHOICE, log 13: a walk takes one instant), and the length is reported. -/
def execDump (part vdev dest : Nat) (s : State) : Out :=
  let slot := 8 * part + vdev
  let held := (s.dumpBlocks part vdev).foldl (fun s x => s.holdBlock x.1 4 0 0 0) s
  let bs := held.dumpStream part vdev (held.ownedGates part)
  let n := bs.length + (bs.length + 65535) / 65536 * 48
  .next (if (s.keys.get slot).isNone || !(s.part part).vdevs.getLsbD vdev || (s.part part).dumping.isSome
      || decide (2 ^ 64 - 1 ≤ s.dumpCounts.getD slot 0) || !isHost dest || !isHost (dest + n - 1) then s.denied
    else
      let s1 : State := { held with sent := held.sent ++ [Sent.reply [n]],
                                    dumpCounts := held.dumpCounts.put slot (held.dumpCounts.getD slot 0 + 1) }
      s1.updPart part fun p => { p with dumping := some (vdev, dest, bs) })

/-- DUMP_COMPLETE (21 R424, R425): the stream is written, and what the engine held is released. -/
def execDumpComplete (part vdev : Nat) (s : State) : Out :=
  .next (match (s.part part).dumping with
    | none => s
    | some (v, dest, bs) =>
      if v ≠ vdev then s
      else
        let slot := 8 * part + vdev
        let out := dumpChunks ((s.keys.get slot).getD 0) part vdev (s.dumpCounts.getD slot 0) (bs.length / 65536 + 1) 0 bs
        let s1 : State := (s.updPart part fun p => { p with dumping := none }).poke dest out
        let byDump := fun (h : Option Hold) => h.any fun x => x.cause == 4
        let s2 := (s1.blocks.rows.filter fun r => byDump r.2.hold && s1.ofDevice part vdev r.2).foldl (fun s r => s.releaseBlock r.1) s1
        { s2 with blocks := s2.blocks.map fun _ b =>
            if byDump b.holdAtResume && s2.ofDevice part vdev b then { b with holdAtResume := none } else b })

end Sys2Proof.Machine
end

