-- ==== Sys2Proof/Machine/Control.lean ====
section
/-! DEFINITION. Control, trap and work instructions, opcodes 0x70 to 0x7F but for exit and tret (08 R204 to R224). -/

namespace Sys2Proof.Machine
open Sys2Proof

/-! ### Transfers of control -/

/-- The prologue of an instruction that decides where control goes (08 R206): allocations as elsewhere, and its sources read only where its effective mask is nonempty (01 R11), but the fall-through successor is examined only where control reaches it (02 R30). -/
def ctlInstr (s : State) (g : Guard) (srcs : List (Nat × Opnd)) (k : Ctx → Act) : Out :=
  match s.ctx with
  | none => .fault .noIssuer
  | some c =>
    if srcs.any c.beyond then c.trapped s (faultAt .badHandle c.f.pc s.word.toNat)
    else
      match (if c.eff g = 0 then none else c.g.poisoned c.f.mask (usedRegs srcs)) with
      | some r => c.trapped s { kind := 0, code := .poison, pc := c.f.pc, info := poisonInfo r }
      | none => c.finish s (k c)

/-- The fall-through successor (02 R28). -/
def Ctx.succ (c : Ctx) : Addr := nextWord c.f.pc

/-- The target of format F (02 R49). -/
def Ctx.target (c : Ctx) (off : BitVec 32) : Addr := BitVec.ofNat 80 (wrap 80 ((c.f.pc.toNat : Int) + 8 * signed 32 off.toNat))

/-- The whole fragment transferred to an address, checked before the instruction takes any effect (02 R30); `h` is what else it does. -/
def Ctx.transfer (c : Ctx) (s : State) (a : Addr) (h : State → State := id) : Act :=
  match s.reach c a with
  | some x => .placed (c.barred s x)
  | none => .placed ((h s).updFrag c.uid c.fid fun f => f.goto a)

/-- The reconvergence header of a split (02 R34, 07 R188), none where the block names none and the fragment had none. -/
def Ctx.splitHeader (c : Ctx) : Option Addr :=
  if c.f.blk.recOff = 0 then c.f.reconv
  else some (BitVec.ofNat 80 (wrap 80 ((c.f.blk.hdr.toNat : Int) + 8 * c.f.blk.recOff)))

/-- The entries of a group's split table (07 R187). -/
def Ctx.splitEntries (c : Ctx) : Nat := Config.splitEntries + c.l.hdr.spill / 64

/-- The least recently issued fragment leaves the chip (07 R187). -/
def Group.spillOne (g : Group) : Group :=
  match (g.frags.rows.filter fun r => r.2.onChip).foldl (fun (o : Option (Nat × Frag)) r => match o with
      | none => some r
      | some x => if r.2.stamp < x.2.stamp then some r else some x) none with
  | none => g
  | some (k, f) => g.putFrag k { f with onChip := false }

/-- Fragments leave the chip while more than 16 stand on it (07 R187). -/
def Group.spillOld (g : Group) : Nat → Group
  | 0 => g
  | n + 1 =>
    if (g.frags.rows.filter fun r => r.2.onChip).length ≤ Config.splitEntries then g else g.spillOne.spillOld n

/-- A divergent branch's split (07 R188, 04 R94, 08 R213): lanes `t` at one address and the fragment's others at another, each with a copy of the trap registers and the in-handler mark; the one with the lowest lane keeps the rounding state, and the other takes the next. -/
def Ctx.split (c : Ctx) (t : Mask) (at_ other : Addr) : Group :=
  let rest := c.f.mask &&& ~~~t
  let id := c.g.nextFrag
  let low := t.getLsbD (lowestLane c.f.mask)
  let mk := fun (m : Mask) (a : Addr) (keeps : Bool) =>
    ({ c.f.goto a with mask := m, rnd := if keeps then c.f.rnd else srStep c.f.rnd,
                       reconv := c.splitHeader, sib := some id } : Frag)
  let g := { c.g with
    frags := (c.g.frags.put c.fid (if low then mk t at_ true else mk rest other true)).put id
      (if low then mk rest other false else mk t at_ false),
    sibs := c.g.sibs.put id { reconv := c.f.reconv, sib := c.f.sib },
    nextFrag := id + 1 }
  g.spillOld (g.frags.rows.length + 1)

/-- br and brx (08 R206): the lanes of the effective mask at the target, the others at the successor, with the checks in their order. -/
def Ctx.branch (c : Ctx) (s : State) (g : Guard) (a : Addr) : Act :=
  let t := c.eff g
  if t = 0 then c.transfer s c.succ
  else if t = c.f.mask then c.transfer s a
  else
    match s.reach c a, s.reach c c.succ, (if c.f.blk.recOff = 0 then none else c.splitHeader).bind (s.reach c) with
    | some x, _, _ => .placed (c.barred s x)
    | none, some x, _ => .placed (c.barred s x)
    | none, none, some x => .placed (c.barred s x)
    | none, none, none =>
      let n := c.g.frags.rows.length
      if c.splitEntries ≤ n then .trap (faultAt .splitOverflow c.f.pc n)
      else .placed (s.putGroup c.uid (c.split t a c.succ))

/-! ### Queues -/

/-- The binding of a queue register (07 R178). -/
def Ctx.binding (c : Ctx) (q : Nat) : Nat := c.l.hdr.bindings.getD q 0

/-- A handle to an unbound queue register lies beyond its allocation (02 R50, 07 R178). -/
def unboundQ (h : BitVec 10) (c : Ctx) : Bool := decide (c.binding h.toNat / 4096 = 0)

/-- The fault of a queue register used as it may not be (17 R362). -/
def Ctx.queueError (c : Ctx) (q : Nat) : Trap := faultAt .queueError c.f.pc (q + c.binding q * 2 ^ 16)

/-- The work queue a queue register is bound to, where it is one with a capacity (08 R220). -/
def State.workQueue (s : State) (c : Ctx) (q : Nat) : Option (Nat × WorkQueue) :=
  let b := c.binding q
  if b / 4096 = 1 then ((s.part c.l.part).queues.get (b % 4096)).map fun w => (b % 4096, w) else none

/-- A work queue changed. -/
def State.putQueue (s : State) (part n : Nat) (w : WorkQueue) : State :=
  s.updPart part fun p => { p with queues := p.queues.put n w }

/-- Writes of a pair and, under `.try`, a status register (08 R220). -/
def deqWrites (f : FormG) (item : BitVec 64) : List RegWrite :=
  sclWrites (opndIdx f.x) (toWords 2 item.toNat) ++ (if f.func = 1 then [.sca (opndIdx f.y) 0] else [])

/-! ### Leaving a handler -/

/-- What tret finds (08 R215, R216). -/
def Ctx.tretIllegal (c : Ctx) (next : Bool) : Bool :=
  c.g.seq || (match c.f.handler with
    | .none | .preempt => true
    | .resume => next
    | .fault | .view => false)

/-- Whether `tret.next` leaves from the last word of its block (08 R215). -/
def Frag.tretAtLast (f : Frag) : Bool :=
  f.tphase == .run && f.tpc.toNat == (f.tblk.hdr.toNat + 8 * f.tblk.len) % 2 ^ 80

/-- The fragment as tret leaves it (08 R215): `Frag.leave`, but that `tret.next` from the last word of a block arrives at its fall-through successor, and from a header it resumes in the block that the header begins. -/
def State.tretFrag (s : State) (c : Ctx) (next : Bool) : Frag :=
  let f := c.f.leave next
  if !next then f
  else if c.f.tretAtLast then { f with phase := .arrive }
  else if c.f.tphase = .run then f
  else
    match s.peek c c.f.tpc with
    | .word w => { f with blk := headerInfo c.f.tpc w.toNat, phase := .run }
    | .trap _ _ _ | .absent _ => { f with phase := .run }

/-- The other fragments of a handler that ends with its fragment: what they wait on is withdrawn with them (07 R182, R198, 08 R216). -/
def State.dropOthers (s : State) (c : Ctx) : State :=
  s.dropWaits ((c.g.frags.filter fun k _ => k != c.fid).rows.map fun r => r.2.pend)

/-- The end of a resume handler (08 R216): k0 to k31 and every saved fragment are restored, ready from `now` on (07 R191), with what was under way and what waited for its delivery (19 R406, 17 R364), and the handler's fragments end. Lanes that exited in a handler stay out, and a fragment with none left has exited (08 R209). -/
def Group.restoreSaved (g : Group) (now : Nat) : Group :=
  match g.saved with
  | [] => g
  | v :: vs =>
    let back := (v.frags.map fun _ (f : Frag) => { f with mask := f.mask &&& ~~~g.exited, ready := now }).filter fun _ f => decide (f.mask ≠ 0)
    ({ g.writes (sclWrites 0 (v.ks.take 32)) with
        frags := back, saved := vs, flights := v.flights ++ g.flights, delivered := v.delivered ++ g.delivered } : Group).fuseAll now (g.sibs.rows.length + 1)

/-! ### Pre-emption's end -/

/-- Whether a group counts as having executed pdone (07 R197, 08 R210). -/
def Group.saveReady (g : Group) : Bool :=
  g.doneMark || (match g.life with | .live => g.frags.rows.isEmpty | .leaving | .publishing _ | .ended => true)

/-- Step 6 of 07 R197: once every group has executed pdone the block leaves its cores. Of two pre-emptions the older is the one whose save completed first, which orders the blocks that resume (DESIGN CHOICE, log 66: 07 R184 does not say from when a pre-emption counts). -/
def State.saveIfDone (s : State) (bid : Nat) : State :=
  match s.blocks.get bid with
  | none => s
  | some b =>
    if b.life = .quiesced ∧ (b.groups.all fun u => ((s.groups.get u).map (fun (g : Group) => g.saveReady)).getD true) then
      { s.updBlock bid (fun b => { b with life := .saved, order := s.uid }) with uid := s.uid + 1 }
    else s

/-! ### Restart points -/

/-- The state a saving rmark records (08 R219). -/
def Ctx.restartPoint (c : Ctx) : RestartPt :=
  { ks := c.g.scalars 0 32, rnd := c.f.rnd, mask := c.f.mask, pc := nextWord c.f.pc, blk := c.f.blk,
    mark := c.g.mark, windows := c.b.windows, snap := c.g.snap, count := 1 }

/-- Whether an rmark saves (08 R219). -/
def Ctx.rmarkSaves (c : Ctx) : Bool := decide (c.f.mask = c.g.liveLanes) && decide (c.f.handler = .none)

/-! ### Meanings -/

/-- BR (08 R206). -/
def execBr (f : FormF) (s : State) : Out := ctlInstr s f.g [] fun c => c.branch s f.g (c.target f.off)

/-- BRU (08 R207). -/
def execBru (f : FormF) (s : State) : Out :=
  ctlInstr s f.g [] fun c =>
    let m := c.g.mreg c.f.mask (f.cond.toNat / 16 % 16)
    let cond := if bitAt f.cond.toNat 3 then ~~~m else m
    let taken := if bitAt f.cond.toNat 2 then decide (c.f.mask &&& ~~~cond = 0) else decide (c.f.mask &&& cond ≠ 0)
    c.transfer s (if taken then c.target f.off else c.succ)

/-- JMP (08 R208). -/
def execJmp (f : FormF) (s : State) : Out := ctlInstr s f.g [] fun c => c.transfer s (c.target f.off)

/-- CALL (08 R208): the return address to the link quad, then the transfer. -/
def execCall (f : FormF) (s : State) : Out :=
  let q := 4 * (f.cond.toNat / 256)
  ctlInstr s f.g [] fun c =>
    if c.beyond (3, .k (BitVec.ofNat 10 q)) then .trap (faultAt .badHandle c.f.pc s.word.toNat)
    else c.transfer s (c.target f.off) fun t => t.writeRegs c.uid (sclWrites q (toWords 3 c.succ.toNat))

/-- RET (08 R208). -/
def execRet (f : FormG) (s : State) : Out :=
  ctlInstr s f.g [(3, f.x)] fun c => c.transfer s (BitVec.ofNat 80 (c.g.pointer (opndIdx f.x)))

/-- BRX (08 R206). -/
def execBrx (f : FormA) (s : State) : Out :=
  ctlInstr s f.g ((3, f.a) :: offUsed f.b) fun c =>
    c.branch s f.g (BitVec.ofNat 80 (wrap 80 ((c.g.pointer (opndIdx f.a) : Int) + 8 * c.g.offset f.b 0)))

/-- YIELD (08 R211): the fragment loses its age, and the pointer of each pipe of its quarter moves past its slot; a sequencer is on no quarter. -/
def execYield (f : FormG) (s : State) : Out :=
  sysInstr s f.g [] [] fun c _ =>
    .done ((if c.g.seq then s else s.passSlot c.uid c.g [0, 1, 2, 3]).updFrag c.uid c.fid fun x => { x with ready := s.tick })

/-- SLEEP (08 R212): a count above zero waits for SLEEP_COUNT_RUNS_OUT. -/
def execSleep (f : FormC) (s : State) : Out :=
  let srcs := if f.func.getLsbD 0 then [(1, f.a)] else []
  sysInstr s f.g [] srcs fun c _ =>
    let n := f.imm.toNat + (if f.func.getLsbD 0 then c.g.lane f.a 0 else 0)
    match c.f.pend with
    | .done _ _ => .done s
    | .sleep => .wait 14 s
    | _ => if n = 0 then .done s else .wait 14 (s.updFrag c.uid c.fid fun x => { x with pend := .sleep })

/-- NOP (08 R211). -/
def execNop (f : FormG) (s : State) : Out := sysInstr s f.g [] [] fun _ _ => .done s

/-- An instruction whose effective mask is empty, where it would not fall through otherwise: the successor of the last word of a block is examined (02 R30). -/
def Ctx.past (c : Ctx) (s : State) : Act :=
  match (if c.f.atLast then s.reach c c.succ else none) with
  | some x => .placed (c.barred s x)
  | none => .done s

/-- TRAP (08 R214): a trap taken does not fall through, and its successor is examined at `tret.next` (08 R215). -/
def execTrap (f : FormC) (s : State) : Out :=
  let srcs := if f.func.getLsbD 0 then [(1, f.a)] else []
  ctlInstr s f.g srcs fun c =>
    if c.eff f.g = 0 then c.past s
    else
    let k := if f.func.getLsbD 0 then c.g.lane f.a 0 else 0
    .trap { kind := 1, code := .softwareTrap, pc := c.f.pc, info := BitVec.ofNat 64 (f.imm.toNat + k * 2 ^ 32) }

/-- PDONE (08 R218): it does not fall through, and what other fragments of the handler wait on ends with them. -/
def execPdone (f : FormG) (s : State) : Out :=
  ctlInstr s f.g [] fun c =>
    if c.eff f.g = 0 then c.past s
    else if c.f.handler ≠ .preempt then .trap (faultAt .illegalEncoding c.f.pc 0)
    else if !c.g.idle then .wait 5 s
    else .placed (((s.dropOthers c).putGroup c.uid { c.g with doneMark := true }).saveIfDone c.g.block)

/-- RMARK (08 R219): the counted classes at zero, the publish, the fold, and the restart point. -/
def execRmark (f : FormG) (s : State) : Out :=
  sysInstr s f.g [] [] fun c _ =>
    if !c.g.idle && decide (c.f.pend = .none) then .wait 5 s
    else c.afterPublish s fun t =>
      let t1 := t.foldRegs c c.f.mask
      .done (if c.rmarkSaves then t1.nextPart c c.restartPoint else t1)

/-- DEQ (08 R220): the head item of a work queue, the oldest waiter first; a repeat run and a restart take the logged item. -/
def execDeq (f : FormG) (s : State) : Out :=
  let q := f.handle.toNat
  let try_ := f.func == 1
  sysFull s f.g (fun _ => false) (unboundQ f.handle) ((2, f.x) :: (if try_ then [(1, f.y)] else [])) [] fun c _ =>
    let digest := opDigest 0x7E [(0, q, [f.func.toNat])]
    match s.workQueue c q with
    | none => .trap (c.queueError q)
    | some (n, w) =>
      match s.consult c .result 0x7E digest with
      | .diverged t => .placed t
      | .replay d t =>
        if d.getD 1 0 = 1 then .done (t.writeRegs c.uid [.sca (opndIdx f.y) 1])
        else .done ((t.writeRegs c.uid (deqWrites f (BitVec.ofNat 64 (d.getD 0 0)))).snap { c with g := (t.groups.getD c.uid c.g) })
      | .perform =>
        let ticket := match c.f.pend with | .deq t => t | _ => s.uid
        let queued := w.waiters.contains ticket
        if try_ && w.items.isEmpty && !queued then
          .done ((s.record c.uid .result 0x7E [0, 1] digest).writeRegs c.uid [.sca (opndIdx f.y) 1])
        else
          match w.items with
          | item :: rest =>
            if w.waiters.head?.getD ticket = ticket then
              let s1 := s.putQueue c.l.part n { w with items := rest, waiters := w.waiters.filter (· != ticket) }
              let s2 := (s1.record c.uid .result 0x7E [item.toNat, 0] digest).writeRegs c.uid (deqWrites f item)
              .done (s2.snap { c with g := s2.groups.getD c.uid c.g })
            else if queued then .wait 14 s
            else .wait 14 (join s c n w ticket)
          | [] => if queued then .wait 14 s else .wait 14 (join s c n w ticket)
where
  /-- the deq takes its place among the waiters -/
  join (s : State) (c : Ctx) (n : Nat) (w : WorkQueue) (ticket : Nat) : State :=
    let s1 := s.putQueue c.l.part n { w with waiters := w.waiters ++ [ticket] }
    { s1.updFrag c.uid c.fid (fun x => { x with pend := .deq ticket }) with uid := s.uid + 1 }

/-- ENQ (08 R221): a publish, then the item, as its registers were before the publish, at the tail; a repeat run and a restart push nothing. -/
def execEnq (f : FormG) (s : State) : Out :=
  let q := f.handle.toNat
  let try_ := f.func == 1
  sysFull s f.g (fun _ => false) (unboundQ f.handle) (if try_ then [(1, f.x)] else []) [(2, f.y)] fun c _ =>
    match s.workQueue c q with
    | none => .trap (c.queueError q)
    | some _ =>
      let item := match c.f.pend with | .handed _ d | .published d => d.getD 0 0 | _ => c.g.pair (opndIdx f.y)
      c.afterPublish s (wait := fun n => .handed n [item]) fun t =>
        let g := t.groups.getD c.uid c.g
        let digest := opDigest 0x7F [(0, q, [f.func.toNat, item % 2 ^ 32, item / 2 ^ 32])]
        let status := fun (u : State) (v : Word) => if try_ then u.writeRegs c.uid [.sca (opndIdx f.x) v] else u
        match t.consult { c with g := g } .result 0x7F digest with
        | .diverged u => .placed u
        | .replay d u => .done (status u (toWord (d.getD 0 0)))
        | .perform =>
          match t.workQueue c q with
          | none => .trap (c.queueError q)
          | some (n, w) =>
            if w.items.length < w.cap then
              let t1 := t.putQueue c.l.part n { w with items := w.items ++ [BitVec.ofNat 64 item] }
              .done (status (t1.record c.uid .result 0x7F [0] digest) 0)
            else if try_ then .done (status (t.record c.uid .result 0x7F [1] digest) 1)
            else .wait 8 (t.updFrag c.uid c.fid fun x => { x with pend := .published [item] })

end Sys2Proof.Machine
end

