-- ==== Sys2Proof/Machine/Barriers.lean ====
section
/-! DEFINITION. Transaction barriers and engine ports, opcodes 0xB0 to 0xB6 (10 R264 to R268). -/

namespace Sys2Proof.Machine
open Sys2Proof

/-! ### Barriers -/

/-- A barrier at block admission (10 R264). -/
def Barrier.clear : Barrier := { p := 0, eb := 0, ea := 0, cb := 0, ca := 0, init := false, poisoned := false }

/-- A barrier of a block. -/
def Block.bar (b : Block) (n : Nat) : Barrier := b.bars.getD n Barrier.clear

/-- The phase completes where both counts reach their expectations (10 R264). -/
def Barrier.settle (x : Barrier) : Barrier :=
  if x.init && !x.poisoned && x.cb == x.eb && x.ca == x.ea then { x with p := x.p + 1, cb := 0, ca := 0 } else x

/-- The test of a barrier after its counts or expectations have changed: poison, else completion (10 R264 to R266). -/
def Barrier.test (x : Barrier) : Barrier :=
  if x.init && !x.poisoned && (decide (x.eb < x.cb) || decide (x.ea < x.ca)) then { x with poisoned := true } else x.settle

/-- One credit (10 R265); a poisoned barrier accepts and discards it. -/
def Barrier.credit (x : Barrier) (bytes arrivals : Nat) : Barrier :=
  if x.poisoned then x else ({ x with cb := x.cb + bytes, ca := x.ca + arrivals } : Barrier).test

/-- Credits of n bytes one by one (10 R265): phases complete between them. -/
def Barrier.creditEach (x : Barrier) : Nat → Nat → Barrier
  | 0, _ => x
  | fuel + 1, n =>
    if n = 0 ∨ x.poisoned ∨ !x.init then x.credit n 0
    else
      let k := if x.cb < x.eb then min n (x.eb - x.cb) else n
      (x.credit k 0).creditEach fuel (n - k)

/-- Whether a change of a barrier poisoned it. -/
def overran (x y : Barrier) : Bool := y.poisoned && !x.poisoned

/-- BARRIER_OVERRUN on its way to the party that issued the credit (10 R265, 06 R171). -/
def overrun (seq cls ord n : Nat) (pc : Addr) (blk : BlockInfo) : Delivered :=
  { seq := seq, cls := cls, ord := ord, bar := some n, code := .barrierOverrun, pc := pc, blk := blk, info := BitVec.ofNat 64 n }

/-- A barrier of a block changed by a party that takes the overrun where there is one. -/
def State.changeBar (s : State) (bid n uid : Nat) (d : Delivered) (h : Barrier → Barrier) : State :=
  match s.blocks.get bid with
  | none => s
  | some b =>
    let x := b.bar n
    let s1 := s.updBlock bid fun b => { b with bars := b.bars.put n (h x) }
    if overran x (h x) then s1.deliver uid d else s1

/-- A barrier handle beyond the launch's allocation (02 R50). -/
def badBar (h : BitVec 10) (c : Ctx) : Bool := decide (c.l.hdr.barriers ≤ h.toNat)

/-- The class number of an overrun that no counted operation carries. -/
def arrivalClass : Nat := 9

/-- BARINIT (10 R266). -/
def execBarinit (f : FormG) (s : State) : Out :=
  let n := f.handle.toNat
  sysFull s f.g (fun _ => false) (badBar f.handle) [] [(1, f.x), (1, f.y)] fun c _ =>
    let eb := (c.g.sreg (opndIdx f.x)).toNat
    let ea := (c.g.sreg (opndIdx f.y)).toNat
    if eb = 0 ∧ ea = 0 then .trap (faultAt .illegalEncoding c.f.pc 0)
    else
      let h := fun (x : Barrier) =>
        ({ x with eb := eb, ea := ea, cb := if x.init then 0 else x.cb, ca := if x.init then 0 else x.ca,
                  init := true, poisoned := false } : Barrier).test
      let x := c.b.bar n
      let s1 := s.updBlock c.g.block fun b => { b with bars := b.bars.put n (h x) }
      let s2 : State := if (h x).poisoned then s1.deliver c.uid (overrun s.uid arrivalClass 0 n c.f.pc c.f.blk) else s1
      .done { s2 with uid := s.uid + 1 }

/-- BARARR (10 R265): one arrival, and the bytes of k(x) under func bit 0. -/
def execBararr (f : FormG) (s : State) : Out :=
  let n := f.handle.toNat
  let srcs := if f.func.getLsbD 0 then [(1, f.x)] else []
  sysFull s f.g (fun _ => false) (badBar f.handle) [] srcs fun c _ =>
    let bytes := if f.func.getLsbD 0 then (c.g.sreg (opndIdx f.x)).toNat else 0
    let s1 := s.changeBar c.g.block n c.uid (overrun s.uid arrivalClass 0 n c.f.pc c.f.blk) fun x => x.credit bytes 1
    .done { s1 with uid := s.uid + 1 }

/-- BARWAIT (10 R266): an overrun waiting for this barrier first, then the status by the distance of the token. -/
def execBarwait (f : FormG) (s : State) : Out :=
  let n := f.handle.toNat
  sysFull s f.g (fun _ => false) (badBar f.handle) [(1, f.x)] [(1, f.y)] fun c _ =>
    match takeDelivered (c.g.delivered.filter fun d => decide (d.bar = some n)) c.g with
    | some (t, g) => .placed ((s.putGroup c.uid g).takeTrap { c with g := g } t)
    | none =>
      let x := c.b.bar n
      let status := fun (v : Word) => Act.done (s.writeRegs c.uid [.sca (opndIdx f.x) v])
      match c.f.pend with
      | .bar t =>
        if x.poisoned then status 4
        else if x.p.toNat = t then .wait 6 s
        else status 0
      | _ =>
        let t := c.g.sreg (opndIdx f.y)
        let d := signed 32 (x.p - t).toNat
        if x.poisoned then status 4
        else if 0 < d then status (if 2 ≤ d then 3 else 1)
        else if d = 0 then .wait 6 (s.updFrag c.uid c.fid fun y => { y with pend := .bar t.toNat })
        else .trap (faultAt .phaseAhead c.f.pc t.toNat)

/-- BARTOK (10 R266). -/
def execBartok (f : FormG) (s : State) : Out :=
  sysFull s f.g (fun _ => false) (badBar f.handle) [(1, f.x)] [] fun c _ =>
    .done (s.writeRegs c.uid [.sca (opndIdx f.x) (c.b.bar f.handle.toNat).p])

/-! ### Ports -/

/-- The tile set of a context, where its launch is a tile launch. -/
def State.setOf (s : State) (c : Ctx) : Option (Nat × TileSet) := c.b.set.bind fun k => (s.sets.get k).map fun t => (k, t)

/-- The engine port a queue register is bound to (10 R267). -/
def Ctx.port (c : Ctx) (q : Nat) : Option Nat :=
  let b := c.binding q
  if b / 4096 = 2 then some (b % 4096) else none

/-- The result queue of a block's engine (06 R161). -/
def State.results (s : State) (c : Ctx) : List Chunk :=
  match s.setOf c with
  | none => []
  | some (_, t) => ((t.engines.find? fun e => e.block == c.g.block).map fun (e : Engine) => e.results).getD []

/-- The cards of a core's copy engine, or of a die's collective engine, that it has not yet taken (10 R267, R268). -/
def State.cards (s : State) (coll : Bool) (core : Nat) : Nat :=
  (s.jobs.filter fun _ (j : Job) =>
    decide (j.life = .queued) && (if coll then decide (j.kind = .coll) else decide (j.kind = .copy ∨ j.kind = .gcopy))
      && (match s.groups.get j.group with
          | some g => if coll then dieOfCore g.core == dieOfCore core else g.core == core
          | none => false)).rows.length

/-- qstat's word: items waiting and free slots, each capped (10 R268). -/
def statWord (items depth : Nat) : Word := toWord (min items 65535 + 65536 * min (depth - items) 65535)

/-- QPUSH (10 R268): groups push to seq, the sequencer to grp; every other use is QUEUE_ERROR. -/
def execQpush (f : FormG) (s : State) : Out :=
  let q := f.handle.toNat
  sysFull s f.g (fun _ => false) (unboundQ f.handle) [] [(1, f.y)] fun c _ =>
    let w := c.g.sreg (opndIdx f.y)
    match s.setOf c, c.port q with
    | some (k, t), some 4 =>
      if c.g.seq then .trap (c.queueError q)
      else if 256 ≤ t.toSeq.length then .wait 8 s
      else .done { s with sets := s.sets.put k { t with toSeq := t.toSeq ++ [w] } }
    | some (k, t), some 5 =>
      if !c.g.seq then .trap (c.queueError q)
      else if 256 ≤ t.toGrp.length then .wait 8 s
      else .done { s with sets := s.sets.put k { t with toGrp := t.toGrp ++ [w] } }
    | _, _ => .trap (c.queueError q)

/-- QPOP (10 R268): tres into a vector register at a group (06 R161), seq at the sequencer and grp at groups into a scalar one. -/
def execQpop (f : FormG) (s : State) : Out :=
  let q := f.handle.toNat
  sysFull s f.g (fun _ => false) (unboundQ f.handle) [(1, f.x)] [] fun c m =>
    match c.port q with
    | some 1 =>
      if opndScalar f.x then .trap (c.queueError q)
      else
        match s.setOf c, s.results c with
        | some (k, t), r :: rest =>
          let s1 : State := { s with sets := s.sets.put k { t with
            engines := t.engines.map fun e => if e.block = c.g.block then { e with results := rest } else e } }
          .done (s1.writeRegs c.uid [.vec (opndIdx f.x) m r])
        | _, _ => .wait 8 s
    | some 4 =>
      match s.setOf c with
      | some (k, t) =>
        if !c.g.seq || !opndScalar f.x then .trap (c.queueError q)
        else
          match t.toSeq with
          | [] => .wait 8 s
          | w :: rest =>
            let s1 : State := { s with sets := s.sets.put k { t with toSeq := rest } }
            .done (s1.writeRegs c.uid [.sca (opndIdx f.x) w])
      | none => .trap (c.queueError q)
    | some 5 =>
      match s.setOf c with
      | some (k, t) =>
        if c.g.seq || !opndScalar f.x then .trap (c.queueError q)
        else
          match t.toGrp with
          | [] => .wait 8 s
          | w :: rest =>
            let s1 : State := { s with sets := s.sets.put k { t with toGrp := rest } }
            .done (s1.writeRegs c.uid [.sca (opndIdx f.x) w])
      | none => .trap (c.queueError q)
    | _ => .trap (c.queueError q)

/-- QSTAT (10 R268), whatever the direction; in the port's own unit. -/
def execQstat (f : FormG) (s : State) : Out :=
  let q := f.handle.toNat
  sysFull s f.g (fun _ => false) (unboundQ f.handle) [(1, f.x)] [] fun c _ =>
    let put := fun (items depth : Nat) => Act.done (s.writeRegs c.uid [.sca (opndIdx f.x) (statWord items depth)])
    match c.port q with
    | some 1 => put (s.results c).length 32
    | some 2 => put (s.cards false c.g.core) 64
    | some 3 => put (s.cards true c.g.core) 16
    | some 4 =>
      match s.setOf c with
      | some (_, t) => put t.toSeq.length 256
      | none => .trap (c.queueError q)
    | some 5 =>
      match s.setOf c with
      | some (_, t) => put t.toGrp.length 256
      | none => .trap (c.queueError q)
    | _ =>
      match s.workQueue c q with
      | some (_, w) => put w.items.length w.cap
      | none => .trap (c.queueError q)

end Sys2Proof.Machine
end

