-- ==== Sys2Proof/Machine/Start.lean ====
section
/-! DEFINITION. Groups, fragments, sequencers and blocks as they start (07 R184, R200, R231, 04 R93, 06 R143, R144, 10 R256), and the state in which a given word is the next one fetched (log 8). -/

namespace Sys2Proof.Machine
open Sys2Proof

/-- A fragment of given lanes that arrives at an address (02 R30). -/
def Frag.start (mask : Mask) (pc : Addr) (rnd : Word) : Frag :=
  { mask := mask, pc := pc, rnd := rnd, cause := 0, tpc := 0, tinfo := 0, handler := .none, blk := noBlock,
    tblk := noBlock, tphase := .run, reconv := none, sib := none, phase := .arrive, pend := .none, stall := 3,
    onChip := true, stamp := 0, free := false, count := 0 }

/-- All 128 lanes. -/
def allLanes : Mask := BitVec.allOnes 128

/-- The lane of a sequencer (05 R106). -/
def oneLane : Mask := 1

/-- A group at its start (09 R231, R243): S at the partition's P, import mark as given, every register undefined (log 4). -/
def Group.start (blk idx core quarter snap mark undef : Nat) (f : Frag) : Group :=
  { block := blk, idx := idx, seq := false, life := .live, core := core, quarter := quarter,
    vregs := Table.empty, sregs := Table.empty, masks := Table.empty, undef := some undef,
    vpoison := Table.empty, spoison := [], exited := 0, frags := Table.empty.put 0 f, sibs := Table.empty,
    nextFrag := 1, snap := snap, mark := mark, flights := [], issued := [0, 0, 0, 0, 0], delivered := [],
    late := [], pubPoison := none, restart := none, log := [], replay := [], keyed := [], base := [0, 0, 0, 0, 0], entry := none, marks := 0,
    policy := 1, trapBit := false, doneMark := false, saved := [] }

/-- A block at admission (07 R184, 10 R256, R264): windows unset, store zero and empty, barriers clear. -/
def Block.start (launch index workid run : Nat) (cores : List Nat) (lcluster : Nat) (lcores : List Nat) : Block :=
  { launch := launch, index := index, workid := workid, run := run, check := none, seg := 0, life := .resident, quiesce := none,
    cores := cores, lcluster := lcluster, lcores := lcores, groups := [], set := none, store := Table.empty,
    undef := none, windows := Table.empty, bars := Table.empty, captured := none,
    atoms := Table.empty, pending := [], hold := none,
    holdAtResume := none, declined := [], pages := [], trigger := 0, order := 0, lost := false }

/-- An engine of a tile set at its start (06 R144): accumulators E8M39 +0, activation table zero, result queue empty. -/
def Engine.start (blk : Nat) : Engine :=
  { block := blk, act := Table.empty, results := [],
    tiles := (List.range 4).foldl (fun t i =>
      t.put i { acc := Table.empty, int := false, fallback := false, undef := none }) Table.empty }

/-- A tile set at its start (06 R144). -/
def TileSet.start (launch : Nat) (blocks : List Nat) (seqr cluster lcluster : Nat) : TileSet :=
  { launch := launch, blocks := blocks, seqr := seqr, cluster := cluster, lcluster := lcluster, pairing := none,
    unfold := none, kinds := [false, false, false, false], engines := blocks.map Engine.start,
    buffer := Table.empty, fellback := [], queue := [], drains := 0, marks := [], toSeq := [], toGrp := [],
    seqEnded := false, ended := false }

/-! ### A word placed where the next step fetches -/

/-- The launch header of the placed program: one block of one group with every vector register, 64 barriers, 64 KiB of store, and queue registers bound to work queue 0 and to ports 1 to 5. -/
def loadHeader (entry : Addr) (tile : Bool) : Header :=
  { entry := entry, tile := if tile then entry else 0, handler := 0, resume := 0, widths := [0, 0, 0, 0, 0, 0],
    extents := [1, 1, 1, 1], groups := 1, vregs := 256, barriers := 64, persistent := false, priority := 0,
    vdev := 0, level := 0, early := false, distance := 0, store := 65536, spill := 0, seed := 0, patience := 0,
    budget := 0, bindings := [0x1000, 0x2001, 0x2002, 0x2003, 0x2004, 0x2005] ++ List.replicate 26 0,
    ctxBase := 0, ctxBytes := 0, prereqs := [] }

/-- A launch at submission. -/
def Launch.start (h : Header) (part ident : Nat) (host : Bool) (queue tag : Nat) (wants : Bool) (slot order : Nat) : Launch :=
  { hdr := h, part := part, ident := ident, host := host, queue := queue, tag := tag, wants := wants, slot := slot,
    order := order, nextBlock := 0, mark := 0, ended := none, recorded := false }

/-- Where the placed header stands; the word follows it, and a header of an empty path follows the word. -/
def loadBase : Nat := 0x100000

/-- The header word of a block of one word, with no marks. -/
def loadHeaderWord : Nat := 0x0100400000000000

/-- The partition the placed program runs in: cluster 0, one region of 64 MiB pages, one range that may be read and written. -/
def loadPart : Part :=
  let rg : RangeEntry :=
    { valid := true, base := 0, limit := 2 ^ 26 - 1, share := 0, peer := 0, kind := 0, local_ := false,
      canRead := true, canWrite := true }
  let r : Region :=
    { valid := true, root := 0x10000, share := 0, peer := 0, span := 32, kind := 0, stream := false,
      local_ := false, page := 3 }
  { Part.reset with
    enable := true, colours := 0xFFFF, vdevs := 1, ranges := Table.empty.put 0 rg,
    vdev := Table.empty.put 0 { Vdev.reset with weight := 1, ways := 0xFFFF, regions := Table.empty.put 0 r } }

/-- The state with a word stored where the next step fetches it: in a group, or in a tile sequencer for the opcodes only a sequencer executes (02 R52), of a block resident on core 0 of partition 0 (log 8). -/
def State.loadWord (s : State) (w : Nat) : State :=
  let op := bitsAt w 56 8
  let seq := decide (0xC0 ≤ op ∧ op ≤ 0xD7)
  let u := s.uid
  let hdr : Addr := BitVec.ofNat 80 loadBase
  let f : Frag := { Frag.start (if seq then oneLane else allLanes) (nextWord hdr) (srSeed 0 0) with
    blk := { hdr := hdr, len := 1, vmark := 0, smark := 0, recOff := 0 }, phase := .run, stall := 0 }
  let g : Group := { Group.start (u + 1) 0 0 0 (s.part 0).round 0 s.free f with seq := seq }
  let b : Block := { Block.start u 0 0 0 [0] 0 [0] with
    groups := [u + 2], set := if seq then some (u + 3) else none }
  let l : Launch := { Launch.start (loadHeader hdr seq) 0 0 true 0 0 false 0 u with nextBlock := 1 }
  { s with
    mem := Memory.writeN (Memory.writeN s.mem 0x10000 (toBytes 8 0xF)) loadBase
      (toBytes 8 loadHeaderWord ++ toBytes 8 w ++ toBytes 8 loadHeaderWord),
    versions := s.versions.filter fun v => decide (v.line ≠ loadBase / 128),
    poison := s.poison.filter (· != loadBase / 128),
    parts := s.parts.put 0 { loadPart with round := (s.part 0).round },
    tlbCore := s.tlbCore.del 0, tlbDie := s.tlbDie.del 0,
    launches := s.launches.put u l,
    blocks := s.blocks.put (u + 1) b,
    groups := s.groups.put (u + 2) g,
    sets := if seq then s.sets.put (u + 3) (TileSet.start u [u + 1] (u + 2) 0 0) else s.sets,
    free := s.free + 1, uid := u + 4, dev := .ready,
    agenda := .issue { group := u + 2, frag := 0 } :: s.agenda }

end Sys2Proof.Machine
end

