-- ==== Sys2Proof/Machine/Exit.lean ====
section
/-! DEFINITION. exit (08 R209, R210, 06 R144), and the ends it brings: of a group once its publish has closed, of a block once its windows are written back, of a tile set. -/

namespace Sys2Proof.Machine
open Sys2Proof

/-! ### A group without fragments -/

/-- The context of a group whose fragments are gone. -/
def State.groupCtx (s : State) (uid : Nat) : Option Ctx :=
  match s.groups.get uid with
  | none => none
  | some g =>
    match s.blocks.get g.block with
    | none => none
    | some b => (s.launches.get b.launch).map fun l => { uid := uid, fid := 0, g := g, f := Frag.start 0 0 0, b := b, l := l }

/-- The groups of a block. -/
def State.groupsOf (s : State) (bid : Nat) : List (Nat × Group) :=
  (s.groups.filter fun _ g => decide (g.block = bid) && !g.seq).rows

/-- Whether a group is the only one of its block that has not ended. -/
def State.lastOf (s : State) (c : Ctx) : Bool :=
  (s.groupsOf c.g.block).all fun r => r.1 == c.uid || decide (r.2.life = .ended)

/-- A fault found after the lanes of a group have exited ends the kernel with its code (08 R210). -/
def State.endOnDelivered (s : State) (c : Ctx) : State :=
  match oldest ((s.groupsOf c.g.block).flatMap fun r => if r.2.life = .live then [] else r.2.delivered) with
  | none => s
  | some d => s.endLaunch c.b.launch 0x05 (codeNum d.code)

/-! ### The end of a block -/

/-- The dirty lines of every window become pending (08 R210). -/
def Block.flushAll (b : Block) (uid : Nat) (pc : Addr) (blk : BlockInfo) (seq : Nat) : Block :=
  b.windows.keys.foldl (fun b n => b.flush n uid pc blk seq 0 fun _ => true) b

/-- Mapped windows are written back when the last group of a block has ended (08 R210); the block then closes with that round. A repeat run's are absorbed at its primary's round, from the logs (16 R339, R345). -/
def State.closeBlock (s : State) (c : Ctx) : State :=
  let s1 := s.updBlock c.g.block fun b => b.flushAll c.uid c.f.pc c.f.blk s.uid
  let d : Ctx := { c with b := c.blockIn s1 }
  if c.repeats then
    match s1.takeKeyed c.g.block fun e => decide (e.kind = .pub ∧ e.op = 1 ∧ e.data.getD 1 0 = c.slot / 32) with
    | some (e, t) => t.publishPrivate { d with g := t.groups.getD c.uid c.g } (e.data.getD 0 0)
    | none => s
  else
    let w := s1.placeLines d ((s.part c.l.part).round + 1) d.b.pending
    let s2 : State := w.1.updBlock c.g.block fun b => { b with pending := [] }
    let h := s2.handGroup d [] w.2
    let s3 : State := h.1.updBlock c.g.block fun b => { b with life := .closing (h.2.getD 0) }
    let s4 : State := if c.b.check.isSome then s3.record c.uid .pub 1 [h.2.getD 0, c.slot / 32] 0 else s3
    s4.endOnDelivered c

/-- Whether the bounce buffers take the lines that a block's end makes pending: while they do not, the write-back is suspended (13 R311). -/
def State.closeFits (s : State) (c : Ctx) : Bool :=
  let b := (c.blockIn s).flushAll c.uid c.f.pc c.f.blk s.uid
  s.bounceFits c (b.pending.map (·.va))

/-- Whether a block's write-back has closed. -/
def State.blockClosed (s : State) (b : Block) : Bool :=
  match b.life with
  | .closing m =>
    match s.launches.get b.launch with
    | some l => decide (m ≤ (s.part l.part).round)
    | none => true
  | .ended => true
  | .resident | .quiesced | .saved | .waitPage | .queued => false

/-- A block whose write-back has closed ends; those of a tile set end with it, once its tile program has (06 R144). -/
def State.settleBlock (s : State) (bid : Nat) : State :=
  match s.blocks.get bid with
  | none => s
  | some b =>
    if !s.blockClosed b || b.life = .ended then s
    else
      match b.set.bind fun t => (s.sets.get t).map fun x => (t, x) with
      | none => s.updBlock bid fun b => { b with life := .ended }
      | some (t, x) =>
        if x.seqEnded && x.blocks.all fun i => ((s.blocks.get i).map s.blockClosed).getD true then
          let s1 : State := { s with sets := s.sets.put t { x with ended := true, queue := [] } }
          x.blocks.foldl (fun s i => s.updBlock i fun b => { b with life := .ended }) s1
        else s

/-- Every block that can end does. -/
def State.settleBlocks (s : State) : State := s.blocks.keys.foldl State.settleBlock s

/-! ### The end of a group -/

/-- A group's publish has closed (08 R210): it ends, its log enters its segment's record, and with the last group its block closes. -/
def State.groupDone (s : State) (c : Ctx) : State :=
  let s1 := if s.lastOf c then s.closeBlock c else s
  let s2 := (s1.keepLog c).updGroup c.uid fun g => { g with life := .ended, frags := Table.empty, sibs := Table.empty }
  let s3 : State := match c.b.check with
    | none => s2
    | some k =>
      let top := (s2.groupsOf c.g.block).foldl (fun m r => max m r.2.marks) 0
      (List.range (top + 1)).foldl (fun s seg => s.closePrimary c.g.block k seg) s2
  ((s3.endOnDelivered c).settleBlock c.g.block).saveIfDone c.g.block

/-- A group whose publish has closed is done, or its POISON ends the kernel (08 R210, 17 R369); the last of its block waits for room for the block's write-back. -/
def State.afterLeaving (s : State) (c : Ctx) : State :=
  let d : Ctx := { c with g := s.groups.getD c.uid c.g }
  if d.g.pubPoison.isSome then s.endLaunch c.b.launch 0x05 (codeNum .poison)
  else if s.lastOf d && !s.closeFits d then s
  else if c.repeats then (if s.lastOf d then s.closeBlock d else s).endRepeat { d with g := s.groups.getD c.uid c.g }
  else s.groupDone d

/-- The publish of a group whose lanes have exited (08 R210): made once it can be, its delivered faults ending the kernel. -/
def State.leave (s : State) (c : Ctx) : State :=
  match s.handOver c with
  | .wait _ t => t
  | .round n t => ((t.updGroup c.uid fun g => { g with life := .publishing n }).endOnDelivered c).saveIfDone c.g.block
  | .clear t => (t.updGroup c.uid fun g => { g with life := .publishing 0 }).afterLeaving c

/-- A group whose lanes have exited goes on: it publishes, or is done with its publish. -/
def State.publishedGroup (s : State) (uid : Nat) : State :=
  match s.groupCtx uid with
  | none => s
  | some c =>
    match c.g.life with
    | .leaving => s.leave c
    | .publishing n => if (s.part c.l.part).round < n then s else s.afterLeaving c
    | .live | .ended => s

/-- Every group whose lanes have exited goes on. -/
def State.publishedGroups (s : State) : State := s.groups.keys.foldl State.publishedGroup s

/-! ### exit -/

/-- What a pre-emption has set aside of a group's operations and faults. -/
def Group.aside (g : Group) : Bool := g.saved.any fun v => !(v.flights.isEmpty && v.delivered.isEmpty)

/-- It counts again before the group ends in a handler. -/
def Group.recall (g : Group) : Group :=
  { g with
    flights := (g.saved.flatMap fun v => v.flights) ++ g.flights, delivered := (g.saved.flatMap fun v => v.delivered) ++ g.delivered,
    saved := g.saved.map fun v => { v with flights := [], delivered := [] } }

/-- The last lanes of a group exit (08 R210): the counted classes at zero, then a POISON of completion, which a handler of a pre-emption has kept waiting (10 R252, 17 R364), a delivered fault, and the publish. -/
def Ctx.lastExit (c : Ctx) (s : State) : Act :=
  if c.g.aside then .wait 5 (s.putGroup c.uid c.g.recall)
  else if !c.g.idle then .wait 5 s
  else
    match (if c.repeats then none else c.g.late.find? fun p => decide (p.code ≠ .viewChange)), takeDelivered c.g.delivered c.g with
    | some p, _ =>
      let g := { c.g with late := c.g.late.filter fun x => decide (x ≠ p) }
      .placed ((s.putGroup c.uid g).takeTrap { c with g := g } { kind := 0, code := p.code, pc := p.pc, info := p.info, blk := some p.blk })
    | none, some (t, g) => .placed ((s.putGroup c.uid g).takeTrap { c with g := g } t)
    | none, none =>
      let t := (s.foldRegs c c.f.mask).updGroup c.uid fun g =>
        { g with life := .leaving, frags := Table.empty, sibs := Table.empty, exited := g.exited ||| c.f.mask }
      .placed (t.leave { c with g := t.groups.getD c.uid c.g, f := { c.f with pend := .none } })

/-- exit at a tile sequencer (06 R144): it waits as tsync does, publishes, and ends the tile program. -/
def Ctx.seqExit (c : Ctx) (s : State) : Act :=
  if c.g.counter 3 ≠ 0 then .wait 9 s
  else
    match takeDelivered (c.g.delivered.filter fun d => d.cls == 3 || d.cls == 9) c.g with
    | some (t, g) => .placed ((s.putGroup c.uid g).takeTrap { c with g := g } t)
    | none =>
      c.afterPublish s fun t =>
        let ended : State := { t with sets := match c.b.set with
          | none => t.sets
          | some k => t.sets.upd k fun x => { x with seqEnded := true, marks := [] } }
        let s1 := (ended.foldRegs c c.f.mask).updGroup c.uid fun g => { g with exited := 1 }
        if c.repeats then .placed (s1.endRepeat c)
        else
          let s2 := (s1.keepLog c).updGroup c.uid fun g => { g with life := .ended, frags := Table.empty }
          let s3 : State := match c.b.check with | none => s2 | some k => s2.closePrimary c.g.block k 0
          .placed (s3.settleBlock c.g.block)

/-- EXIT (08 R209, R210). -/
def execExit (f : FormG) (s : State) : Out :=
  ctlInstr s f.g [] fun c =>
    let x := c.eff f.g
    let rest := c.f.mask &&& ~~~x
    if x = 0 then c.transfer s c.succ
    else if c.g.seq then c.seqExit s
    else if rest ≠ 0 then
      match s.reach c c.succ with
      | some b => .placed (c.barred s b)
      | none =>
        .placed ((s.foldRegs c x).updGroup c.uid fun g =>
          ({ g with exited := g.exited ||| x } : Group).putFrag c.fid { c.f.goto c.succ with mask := rest })
    else if c.g.frags.rows.length ≤ 1 then c.lastExit s
    else
      .placed ((s.foldRegs c x).updGroup c.uid fun g =>
        ({ g with exited := g.exited ||| x, frags := g.frags.del c.fid } : Group).fuseAll s.tick (g.sibs.rows.length + 1))

end Sys2Proof.Machine
end

