-- ==== Sys2Proof/Machine/Jobs.lean ====
section
/-! DEFINITION. Engine jobs: footprints and order (09 R240, 10 R272), what a job reads and writes (10 R273), its completion and delivered faults (10 R279, R280), and the instructions copy and gcopy (10 R269 to R271). -/

namespace Sys2Proof.Machine
open Sys2Proof

/-! ### The job table -/

/-- Whether two ranges overlap. -/
def Range.meets (a b : Range) : Bool :=
  a.space == b.space && decide (a.lo < b.lo + b.len) && decide (b.lo < a.lo + a.len)

/-- Whether a job must wait for an earlier one: an overlap that one of the two writes (09 R240). -/
def Job.conflicts (a b : Job) : Bool :=
  a.writes.any (fun x => b.writes.any x.meets || b.reads.any x.meets) || a.reads.any fun x => b.writes.any x.meets

/-- Whether a job may perform: every earlier job of its partition that it conflicts with has completed (09 R240). -/
def State.jobReady (s : State) (id : Nat) (j : Job) : Bool :=
  !(s.jobs.rows.any fun r => decide (r.1 < id) && r.2.part == j.part && j.conflicts r.2)

/-- Bytes of the partition's virtual memory as a footprint. -/
def globalRange (va n : Nat) : Range := { space := 0, lo := va, len := n }

/-- Bytes of a window of a block's store as a footprint. -/
def storeRange (bid : Nat) (w : Window) (off n : Nat) : Range := { space := bid + 1, lo := w.off + off, len := n }

/-- The first address of a job's footprint that lies in a peer's aperture (17 R373). -/
def State.peerIn (s : State) (c : Ctx) (j : Job) : Option Nat :=
  ((j.reads ++ j.writes).filter fun x => x.space == 0).findSome? fun x =>
    match (s.lookup c.l.part c.l.hdr.vdev c.g.core x.lo .load).1 with
    | .ok pa _ => (peerOf pa).map fun _ => x.lo
    | .protect _ | .declined | .absent _ => none

/-- The jobs of a group's partition that a job it issues now is later than (09 R240): those of lower number. A checked primary's number is logged under the job's name, and a repeat run's job is later than the same ones (R245). -/
def State.seenJobs (s : State) (c : Ctx) (cls : Nat) : State × Option Nat :=
  let name := [cls, c.g.ordOf cls + 1 - c.g.base.getD cls 0]
  if c.b.check.isNone then (s, some s.uid)
  else if c.repeats then
    match s.takeOwn c.uid fun e => decide (e.kind = .pub ∧ e.op = 3 ∧ e.data.take 2 = name) with
    | some (e, t) => (t, some (e.data.getD 2 0))
    | none => (s.stopRun c none, none)
  else (s.record c.uid .pub 3 (name ++ [s.uid]) 0, some s.uid)

/-- A job card enters the table (09 R240) with the issuer's snapshot and import mark, raising its class. -/
def State.enterJob (s : State) (c : Ctx) (cls : Nat) (j : Job) : State :=
  let id := s.uid
  let r := s.seenJobs c cls
  match r.2 with
  | none => r.1
  | some n =>
    let j1 : Job := { j with part := c.l.part, group := c.uid, block := c.g.block, snap := c.g.snap, mark := c.g.mark,
                             flight := id, pc := c.f.pc, blk := c.f.blk, order := s.handOrder, seen := n }
    { (r.1.fly c { Flight.plain id cls c.f.pc 0 with peer := s.peerIn c j }) with jobs := s.jobs.put id j1 }

/-- A card with nothing said of its issuer. -/
def Job.card (kind : JobKind) (vals : List Nat) (src dst : Option Window) (bar : Option Nat) (reads writes : List Range) : Job :=
  { kind := kind, part := 0, group := 0, block := 0, vals := vals, snap := 0, mark := 0, src := src, dst := dst,
    bar := bar, reads := reads, writes := writes, flight := 0, pc := 0, life := .queued, fault := none, written := 0, aux := [] }

/-! ### Reads -/

/-- What a job has read so far: the state, the bytes, the first fault, and whether it is suspended, for a page or for a place in a slice, or its run has stopped. -/
structure Got where
  s : State
  bytes : List Byte
  fault : Option (Code × BitVec 64)
  waits : Bool

/-- Nothing read yet. -/
def Got.none (s : State) : Got := { s := s, bytes := [], fault := Option.none, waits := false }

/-- n undefined bytes (10 R280, log 4). -/
def freeBytes (seed n : Nat) : List Byte := (List.range n).map fun i => Config.freeByte seed i

/-- A job starts to read, or reads again after it was suspended. -/
def Got.start (s : State) (j : Job) : Got := Got.none { s with jobs := s.jobs.upd j.flight fun x => { x with stuck := false } }

/-- More bytes behind those read. -/
def Got.push (g : Got) (s : State) (bs : List Byte) (fault : Option (Code × BitVec 64)) : Got :=
  { g with s := s, bytes := g.bytes ++ bs, fault := g.fault.or fault }

/-- Undefined bytes at a fault. -/
def Got.bad (g : Got) (s : State) (n : Nat) (code : Code) (info : Nat) : Got :=
  g.push { s with free := s.free + 1 } (freeBytes s.free n) (some (code, BitVec.ofNat 64 info))

/-- It is suspended for a page, which is asked for (10 R273). -/
def Got.suspend (g : Got) (s : State) (c : Ctx) (page access : Nat) : Got :=
  { g with s := (s.requestPage c.l.part c.l.hdr.vdev page access c.l.ident c.b.index).1, waits := true }

/-- It waits for a place in a slice or in the check area (13 R295, 16 R344). -/
def Got.wait (g : Got) (s : State) (id : Nat) : Got :=
  { g with s := { s with jobs := s.jobs.upd id fun j => { j with stuck := true } }, waits := true }

/-- The reader that a group's job is (09 R240): it sees the writes of earlier jobs, and what its issuer had published when it issued the job, but none of its unpublished stores. -/
def Ctx.jobReader (c : Ctx) (j : Job) : Reader :=
  { party := .jobs c.l.part c.layer, also := [(.group j.group, some j.order)], job := j.flight, seen := j.seen, part := c.l.part, snap := j.snap, mark := j.mark,
    layer := c.layer, seg := c.seg }

/-- A job's class and number among the operations of the class in its part, by which the log names it (16 R345). -/
def Group.jobName (g : Group) (flight : Nat) : List Nat :=
  match g.flights.find? fun f => f.id == flight with
  | some f => [f.cls, g.partOrd f.cls f.ord]
  | none => [0, 0]

/-- Pieces of a byte range that lie in one line each: address and length. -/
def pieces : Nat → Nat → Nat → List (Nat × Nat)
  | 0, _, _ => []
  | fuel + 1, va, n =>
    if n = 0 then []
    else
      let k := min n (128 - va % 128)
      (va, k) :: pieces fuel (va + k) (n - k)

/-- Whether a job's accesses have found no route to their peer (17 R373). -/
def Ctx.noRoute (c : Ctx) (j : Job) : Bool := c.g.flights.any fun f => f.id == j.flight && f.bad.isSome

/-- Bytes of a peer's memory that a job reads: as they stand; as its primary read them, in a repeat run, which diverges where that one had read none; or as it read them itself before it was suspended (09 R238, 16 R345, R346). -/
def Got.peer (g : Got) (c : Ctx) (j : Job) (s : State) (a pa k : Nat) : Got :=
  let name := c.g.jobName j.flight ++ [a]
  let now := Memory.readN s.mem pa k
  let fits := fun (e : LogEntry) => decide (e.kind = .peer ∧ e.op = 2 ∧ e.data.take 3 = name)
  let own := ((s.groups.get c.uid).bind fun (x : Group) => x.log.find? fits).map fun e => (e, s)
  match own.or (if c.repeats then s.takeOwn c.uid fits else Option.none) with
  | some (e, t) => g.push t ((e.data.drop 3).map (BitVec.ofNat 8)) Option.none
  | Option.none =>
    if c.repeats then { g with s := s.stopRun c Option.none, waits := true }
    else if c.holdsUp s then g.wait s j.flight
    else if s.poison.contains (pa / 128) then g.bad s k .poison (a / 128 * 128)
    else g.push (if c.b.check.isSome then s.record c.uid .peer 2 (name ++ now.map (·.toNat)) 0 else s) now Option.none

/-- One piece of a job's global read (10 R279, R280; ACCESS_PROTECTION where a peer has no route, 17 R373): its line enters the L2 (13 R295), and the bytes at a fault and the rest of their line are undefined. -/
def Got.line (g : Got) (c : Ctx) (j : Job) (va k : Nat) : Got :=
  if g.waits then g
  else
    let a := va % 2 ^ 80
    let r := g.s.translate c.l.part c.l.hdr.vdev c.g.core a .load
    match r.2 with
    | .ok pa rg =>
      if (peerOf pa).isSome then (if c.noRoute j then g.bad r.1 k .accessProtection a else g.peer c j r.1 a pa k)
      else
        match r.1.touchL2 c false [{ lane := 0, va := a, pa := pa, region := rg }] with
        | Option.none => g.wait r.1 j.flight
        | some t =>
          let x := t.readBytes (c.jobReader j) pa k
          if x.2 then g.bad t k .poison (a / 128 * 128) else g.push t x.1 Option.none
    | .protect _ => g.bad r.1 k .accessProtection a
    | .declined => g.bad r.1 k .pageNotResident a
    | .absent page => g.suspend r.1 c page 0

/-- Global bytes. -/
def Got.global (g : Got) (c : Ctx) (j : Job) (va n : Nat) : Got :=
  (pieces (n / 128 + 2) va n).foldl (fun g p => g.line c j p.1 p.2) g

/-- A line of a mapped window that a job cannot fill: its bytes are undefined (10 R280). -/
def Got.lose (g : Got) (c : Ctx) (s : State) (w : Window) (l : Nat) (code : Code) : Got :=
  let t : State := { s with free := s.free + 1 }
  { g with
    s := t.updBlock c.g.block fun b => b.writeBytes false (w.off + 128 * l) (freeBytes s.free 128),
    fault := g.fault.or (some (code, BitVec.ofNat 64 ((w.base + 128 * l) % 2 ^ 80))) }

/-- One of the lines of a mapped window that a job touches. -/
def Got.fillOne (g : Got) (c : Ctx) (j : Job) (n : Nat) (w : Window) (l : Nat) : Got :=
  if g.waits || g.s.lineFilled c.g.block n w l then g
  else
    let r := g.s.fillLine c n w l 0
    match r.2 with
    | .ok Option.none => { g with s := r.1 }
    | .ok (some _) => g.lose c r.1 w l .poison
    | .error (.fault code _) => g.lose c r.1 w l code
    | .error (.absent page access) => g.suspend r.1 c page access
    | .error .room => g.wait r.1 j.flight
    | .error .gone => { g with s := r.1, waits := true }

/-- The lines of a mapped window that a job touches are filled first, at the job's snapshot (10 R256, R258). -/
def Got.fill (g : Got) (c : Ctx) (j : Job) (n : Nat) (w : Window) (off len : Nat) : Got :=
  if !w.mapped || len == 0 then g
  else
    let d : Ctx := { c with g := { c.g with snap := j.snap, mark := j.mark } }
    (linesOf len [off]).foldl (fun g l => g.fillOne d j n w l) g

/-- Window bytes, read as the block's store holds them when the job performs (10 R272). -/
def Got.window (g : Got) (c : Ctx) (j : Job) (n : Nat) (w : Window) (off len : Nat) : Got :=
  let g1 := g.fill c j n w off len
  if g1.waits then g1
  else
    let b := c.blockIn g1.s
    (pieces (len / 128 + 2) (w.off + off) len).foldl (fun g p =>
      match b.poisonIn p.1 p.2 with
      | some o => g.bad g.s p.2 .poison (windowPoison o)
      | Option.none => g.push g.s (b.bytes p.1 p.2) Option.none) g1

/-! ### Writes -/

/-- Bytes of a job's write to a window, with the dirty lines of a mapped one; a record that setw has replaced has its lines written back at once (10 R256, R273). -/
def State.jobWindow (s : State) (j : Job) (n : Nat) (w : Window) (off : Nat) (bs : List Byte) : State :=
  s.updBlock j.block fun b =>
    let b1 := b.writeBytes (w.mode == 1) (w.off + off) bs
    let ls := if bs.isEmpty then [] else linesOf bs.length [off]
    let same := match b1.windows.get n with | some x => sameWindow x w | none => false
    let filled := fun (x : Window) => { x with filled := ls.foldl (fun f l => if f.contains l then f else l :: f) x.filled }
    if !w.mapped then b1
    else if same then { b1 with windows := b1.windows.upd n filled }.dirty n ls
    else
      { b1 with pending := b1.pending ++ ls.map fun l =>
          { group := j.group, pc := j.pc, blk := j.blk, seq := j.flight, ord := 0, va := (w.base + 128 * l) % 2 ^ 80,
            data := lineWith 0 (b1.bytes (w.off + 128 * l) 128), poison := (b1.poisonIn (w.off + 128 * l) 128).isSome } }

/-- What a job hands to a round: lines with masks, and its first fault. -/
structure Put where
  s : State
  lines : List (Nat × Mask × Line × BitVec 16)
  fault : Option (Code × BitVec 64)

/-- One piece of a job's global write for round n (10 R279, R280, 13 R311, 17 R373). -/
def Put.piece (p : Put) (c : Ctx) (j : Job) (n va : Nat) (bs : List Byte) : Put :=
  let a := va % 2 ^ 80
  let r := p.s.translate c.l.part c.l.hdr.vdev c.g.core a .store
  let m := byteMask (a % 128) bs.length
  let d := lineWith (a % 128) bs
  let bad := fun (code : Code) => { p with s := r.1, fault := p.fault.or (some (code, BitVec.ofNat 64 a)) }
  match r.2 with
  | .ok pa rg =>
    if r.1.codeProtected pa || ((peerOf pa).isSome && c.noRoute j) then bad .accessProtection
    else
      { p with s := r.1.addTerms c false (storeTerms a bs fun _ => true),
               lines := p.lines ++ [(pa / 128, m, d, r.1.shareOf c.l.part pa rg)] }
  | .absent _ =>
    { p with s := (r.1.addTerms c false (storeTerms a bs fun _ => true)).bounceFor c n j.group (a / 128 * 128) m d false }
  | .protect _ => bad .accessProtection
  | .declined => bad .pageNotResident

/-- The number of a counted operation within its class. -/
def Group.ordFor (g : Group) (flight : Nat) : Nat := ((((g.saved.flatMap fun v => v.flights) ++ g.flights).find? fun f => f.id == flight).map (·.ord)).getD 0

/-- Whether a job's global writes can be handed over: a bounce buffer takes those of them whose pages are not resident, and the log of a checked primary their entry; until then they are suspended (13 R311, 16 R344). -/
def State.jobFits (s : State) (c : Ctx) (va : Nat) (bs : List Byte) : Bool :=
  !c.holdsUp s && s.bounceFits c ((splitLines (bs.length / 128 + 2) va bs).map fun x => x.1 % 2 ^ 80)

/-- A job's global writes handed to the open round as one unit (09 R240), or absorbed by a repeat run at its primary's round (16 R339), which diverges where the log has none (R346). Answers the round. -/
def State.jobGlobal (s : State) (c : Ctx) (j : Job) (va : Nat) (bs : List Byte) : State × Nat × Option (Code × BitVec 64) :=
  let name := c.g.jobName j.flight
  let now := (s.part c.l.part).round
  let taken := if c.repeats then s.takeOwn c.uid fun e => decide (e.kind = .pub ∧ e.op = 2 ∧ e.data.take 2 = name) else none
  if c.repeats && taken.isNone then (s.stopRun c none, 0, none)
  else
  let n := if c.repeats then taken.elim now (·.1.data.getD 2 now) else now + 1
  let p := (splitLines (bs.length / 128 + 2) va bs).foldl (fun p x => p.piece c j n x.1 x.2)
    ({ s := taken.elim s (·.2), lines := [], fault := none } : Put)
  let item := fun (x : Nat × Mask × Line × BitVec 16) => c.handed n j.group x.1 x.2.1 x.2.2.1 false x.2.2.2
  let s1 := p.lines.foldl (fun (s : State) x => if c.repeats then s.absorb n (item x) else s.hand (item x)) p.s
  let s2 : State := { s1 with ownPuts := s1.ownPuts ++ p.lines.map fun x =>
    { party := .jobs c.l.part c.layer, round := n, order := j.flight, line := x.1, mask := x.2.1, data := x.2.2.1 } }
  let s3 : State := if c.b.check.isSome && !c.repeats then s2.record c.uid .pub 2 (name ++ [n]) 0 else s2
  (s3.noteLines c (p.lines.map fun x => x.1), if p.lines.isEmpty || c.repeats then 0 else n, p.fault)

/-! ### Completion -/

/-- A job's fault, found when it performed, goes to its issuer (10 R280). -/
def State.jobFault (s : State) (j : Job) (cls : Nat) (fault : Option (Code × BitVec 64)) : State :=
  match fault, s.groups.get j.group with
  | some (code, info), some g =>
    s.deliver j.group { seq := j.flight, cls := cls, ord := g.ordFor j.flight, bar := none, code := code, pc := j.pc, blk := j.blk, info := info }
  | _, _ => s

/-- A job's credit; an overrun goes to its issuer (10 R265). -/
def State.jobCredit (s : State) (j : Job) (cls : Nat) (h : Barrier → Barrier) : State :=
  match j.bar, s.groups.get j.group with
  | some n, some g =>
    let d := overrun j.flight cls (g.ordFor j.flight) n j.pc j.blk
    s.changeBar j.block n j.group d h
  | _, _ => s

/-- A job leaves the table and its class falls (09 R240, 10 R248). -/
def State.jobOver (s : State) (id : Nat) (j : Job) : State :=
  ({ s with jobs := s.jobs.del id } : State).updGroup j.group fun g => g.complete j.flight

/-- The state in which a job waits for the round that its global writes are in. -/
def State.jobHanded (s : State) (id n : Nat) : State :=
  { s with jobs := s.jobs.upd id fun j => { j with life := .performed n, stuck := false } }

/-! ### copy and gcopy performing -/

/-- A gathered row (10 R270, R272): zeros for the index of all ones, undefined beyond the source rows; after a fault the rest of the row is undefined (10 R280). -/
def Got.row (g : Got) (c : Ctx) (j : Job) (i idx : Nat) : Got :=
  let row := j.vals.getD 1 0
  if g.waits then g
  else if idx = 2 ^ 32 - 1 then g.push g.s (List.replicate row 0) Option.none
  else if j.vals.getD 2 0 ≤ idx then g.bad g.s row .accessBounds i
  else
    let r := (Got.none g.s).global c j (j.vals.getD 0 0 + idx * row) row
    if r.waits then { g with s := r.s, waits := true }
    else
      match r.fault with
      | Option.none => g.push r.s r.bytes Option.none
      | some f => g.push { r.s with free := r.s.free + 1 } (freeBytes r.s.free row) (some f)

/-- What a copy or gcopy has to write. -/
def Job.source (j : Job) (s : State) (c : Ctx) : Got :=
  let g := Got.start s j
  let v := fun (i : Nat) => j.vals.getD i 0
  match j.kind with
  | .gcopy =>
    match j.src with
    | none => g
    | some w =>
      let idx := g.window c j (v 6 % 16) w (v 4) (4 * v 3)
      if idx.waits then idx
      else
        (List.range (v 3)).foldl (fun g i => g.row c j i (fromBytes ((idx.bytes.drop (4 * i)).take 4)))
          ({ idx with bytes := [] } : Got)
  | _ =>
    match j.src with
    | some w => g.window c j (v 3 / 4 % 16) w (v 0) (v 1)
    | none => g.global c j (v 0) (v 1)

/-- A copy or gcopy performs (10 R273): into a window word by word with its bytes credited, or into memory through a round. -/
def State.performCopy (s : State) (id : Nat) (j : Job) (c : Ctx) : State :=
  let v := fun (i : Nat) => j.vals.getD i 0
  let gather := decide (j.kind = .gcopy)
  let got := j.source s c
  if got.waits then got.s
  else
    match j.dst with
    | some w =>
      let n := if gather then v 6 / 16 % 16 else v 3 / 64 % 16
      let off := if gather then v 5 else v 2
      let filled := got.fill c j n w off got.bytes.length
      if filled.waits then filled.s
      else
        let s1 := filled.s.jobWindow j n w off got.bytes
        let s2 := s1.jobCredit j 2 fun x => x.creditEach (got.bytes.length + 1) got.bytes.length
        (s2.jobFault j 2 filled.fault).jobOver id j
    | none =>
      if !got.s.jobFits c (v 2) got.bytes then s
      else
        let r := got.s.jobGlobal c j (v 2) got.bytes
        (r.1.jobFault j 2 (got.fault.or r.2.2)).jobHanded id r.2.1

/-- The end of a copy whose writes went through a round (10 R265): its whole length is credited. -/
def State.endCopy (s : State) (id : Nat) (j : Job) : State :=
  (s.jobCredit j 2 fun x => x.credit (j.vals.getD 1 0) 0).jobOver id j

/-! ### Issue -/

/-- A named window, or BAD_HANDLE (10 R271 step 3). -/
def Ctx.cardWindow (c : Ctx) (n : Nat) : Except Trap Window :=
  match c.b.windows.get n with
  | some w => .ok w
  | none => .error (faultAt .badHandle c.f.pc n)

/-- A credited barrier, or BAD_HANDLE. -/
def Ctx.cardBar (c : Ctx) (on : Bool) (n : Nat) : Except Trap (Option Nat) :=
  if !on then .ok none
  else if c.l.hdr.barriers ≤ n then .error (faultAt .badHandle c.f.pc n)
  else .ok (some n)

/-- The card of copy with the checks of 10 R271. A fault's detail is that of 10 R252 or R257 for lane 0 (17 R362); for a length, which is no address or offset, it is zero (DESIGN CHOICE, log 66). -/
def Ctx.copyCard (c : Ctx) (ws : List Word) : Except Trap Job := do
  let ptr := fun (i : Nat) => fromWords ((ws.drop i).take 3) % 2 ^ 80
  let fl := (ws.getD 7 0).toNat
  let src := ptr 0
  let dst := ptr 4
  let n := (ws.getD 3 0).toNat
  let fault := fun (code : Code) (info : Nat) => (.error (faultAt code c.f.pc info) : Except Trap Unit)
  if 2 ^ 17 ≤ fl ∨ (bitAt fl 0 ∧ 2 ^ 32 ≤ src) ∨ (bitAt fl 1 ∧ 2 ^ 32 ≤ dst) then fault .illegalEncoding 0
  let sw ← if bitAt fl 0 then (c.cardWindow (fl / 4 % 16)).map some else pure none
  let dw ← if bitAt fl 1 then (c.cardWindow (fl / 64 % 16)).map some else pure none
  let bar ← c.cardBar (bitAt fl 16) (fl / 1024 % 64)
  let detail := fun (w : Option Window) (o : Nat) => if w.isSome then windowInfo 0 o else accessInfo 0 o
  if src % 4 ≠ 0 then fault .misaligned (detail sw src)
  if dst % 4 ≠ 0 then fault .misaligned (detail dw dst)
  if n % 4 ≠ 0 then fault .misaligned 0
  let out := fun (w : Option Window) (o : Nat) => match w with | some x => decide (x.len < o + n) | none => false
  if out sw src then fault .accessBounds (windowInfo 0 src)
  if out dw dst then fault .accessBounds (windowInfo 0 dst)
  let range := fun (w : Option Window) (o : Nat) => match w with
    | some x => storeRange c.g.block x o n
    | none => globalRange o n
  pure (Job.card .copy [src, n, dst, fl] sw dw bar [range sw src] [range dw dst])

/-- The card of gcopy with the checks of 10 R271. -/
def Ctx.gcopyCard (c : Ctx) (ws : List Word) : Except Trap Job := do
  let w := fun (i : Nat) => (ws.getD i 0).toNat
  let fault := fun (code : Code) (info : Nat) => (.error (faultAt code c.f.pc info) : Except Trap Unit)
  let base := fromWords (ws.take 3) % 2 ^ 80
  if 2 ^ 15 ≤ w 8 ∨ w 9 ≠ 0 ∨ w 10 ≠ 0 ∨ w 11 ≠ 0 then fault .illegalEncoding 0
  let iw ← c.cardWindow (w 8 % 16)
  let dw ← c.cardWindow (w 8 / 16 % 16)
  let bar ← c.cardBar (bitAt (w 8) 14) (w 8 / 256 % 64)
  if base % 4 ≠ 0 then fault .misaligned (accessInfo 0 base)
  if w 3 % 4 ≠ 0 ∨ w 3 < 4 ∨ 65536 < w 3 then fault .misaligned 0
  if w 6 % 4 ≠ 0 then fault .misaligned (windowInfo 0 (w 6))
  if w 7 % 4 ≠ 0 then fault .misaligned (windowInfo 0 (w 7))
  if iw.len < w 6 + 4 * w 5 then fault .accessBounds (windowInfo 0 (w 6))
  if dw.len < w 7 + w 5 * w 3 then fault .accessBounds (windowInfo 0 (w 7))
  pure (Job.card .gcopy [base, w 3, w 4, w 5, w 6, w 7, w 8] (some iw) (some dw) bar
    [storeRange c.g.block iw (w 6) (4 * w 5), globalRange base (w 4 * w 3)] [storeRange c.g.block dw (w 7) (w 5 * w 3)])

/-- A card through a queue register bound to the copy engine (10 R271): a length or count of 0 completes at once. -/
def copyInstr (s : State) (f : FormG) (n : Nat) (card : Ctx → List Word → Except Trap Job) (empty : List Word → Bool) : Out :=
  let q := f.handle.toNat
  sysFull s f.g (fun _ => false) (unboundQ f.handle) [] [(n, f.x)] fun c _ =>
    if c.port q ≠ some 2 then .trap (c.queueError q)
    else
      let ws := c.g.scalars (opndIdx f.x) n
      match card c ws with
      | .error t => .trap t
      | .ok j =>
        if c.g.full 2 then .wait 5 s
        else if 64 ≤ s.cards false c.g.core then .wait 8 s
        else if empty ws then .done (s.pass c 2)
        else .done (s.enterJob c 2 j)

/-- COPY (10 R269). -/
def execCopy (f : FormG) (s : State) : Out := copyInstr s f 8 Ctx.copyCard fun ws => ws.getD 3 0 == 0

/-- GCOPY (10 R270). -/
def execGcopy (f : FormG) (s : State) : Out := copyInstr s f 12 Ctx.gcopyCard fun ws => ws.getD 5 0 == 0

end Sys2Proof.Machine
end

