-- ==== Sys2Proof/Machine/Coll.lean ====
section
/-! DEFINITION. Collectives under membership views (chapter 19): the instructions of opcodes 0xE0 to 0xE4 and tret, what an operation computes, how a view change continues it, and agreement among the members. -/

namespace Sys2Proof.Machine
open Sys2Proof

/-! ### Members -/

/-- The slots of a member bitmap, ascending (19 R394). -/
def slotsOf (m : BitVec 256) : List Nat := (List.range 256).filter fun i => m.getLsbD i

/-- A bitmap of one slot. -/
def slotBit (i : Nat) : BitVec 256 := BitVec.ofNat 256 (2 ^ i)

/-- The lowest live rank's slot (19 R393). -/
def lowSlot (m : BitVec 256) : Nat := (slotsOf m).headD 256

/-- A member's rank (19 R393). -/
def rankOf (m : BitVec 256) (slot : Nat) : Nat := ((slotsOf m).filter (· < slot)).length

/-- A group bound to a partition (19 R393). -/
def State.collOf (s : State) (part id : Nat) : Option CollGroup :=
  match s.colls.get id with
  | some g => if g.part = part then some g else none
  | none => none

/-- A group changed. -/
def State.updColl (s : State) (id : Nat) (h : CollGroup → CollGroup) : State := { s with colls := s.colls.upd id h }

/-- What leaves for the fabric (log 6). -/
def State.sends (s : State) (xs : List Sent) : State := { s with sent := s.sent ++ xs }

/-! ### What an operation computes (19 R389, R390) -/

/-- The bytes of an element. -/
def collBytes (ty : Nat) : Nat := if ty = 1 then 2 else 4

/-- An element as FP32 or as it is: BF16 is widened exactly. -/
def collWiden (ty x : Nat) : Nat := if ty = 1 then x * 2 ^ 16 else x

/-- One step of the fold of 19 R390. -/
def collStep (ty red a b : Nat) : Nat :=
  let flt := ty ≤ 1
  match red with
  | 2 => if flt then fminmax fmt32 true a b else if intVal 32 (ty == 2) a < intVal 32 (ty == 2) b then b else a
  | 3 => if flt then fminmax fmt32 false a b else if intVal 32 (ty == 2) b < intVal 32 (ty == 2) a then b else a
  | _ => if flt then roundRne fmt32 (XR.add false (fmt32.value a) (fmt32.value b)) else (a + b) % 2 ^ 32

/-- The reduction of one element over the contributors in ascending slot order (19 R390). -/
def collFold (ty red : Nat) (xs : List Nat) : Nat :=
  match xs.map (collWiden ty) with
  | [] => 0
  | y :: ys =>
    let r := ys.foldl (collStep ty red) y
    let q := if red = 1 then roundRne fmt32 (XR.div (fmt32.value r) (.fin false xs.length 1)) else r
    if ty = 1 then roundRne fmtB16 (fmt32.value q) else q

/-- An element of a byte string. -/
def collElem (n : Nat) (bs : List Byte) (i : Nat) : Nat := fromBytes ((bs.drop (n * i)).take n)

/-- What a member writes at completion: the offset from the destination and the bytes (19 R389). -/
def collResult (ty op red count bound own root : Nat) (layout members : BitVec 256) (contrib : Table (List Byte)) :
    Nat × List Byte :=
  let n := collBytes ty
  let cs := slotsOf members
  let reduced := fun (lo hi : Nat) =>
    (List.range (hi - lo)).flatMap fun i => toBytes n (collFold ty red (cs.map fun c => collElem n (contrib.getD c []) (lo + i)))
  match op with
  | 0 => (0, reduced 0 count)
  | 1 =>
    let r := rankOf layout own
    let m := max (slotsOf layout).length 1
    let lo := r * count / m
    (n * lo, reduced lo ((r + 1) * count / m))
  | 3 => (0, contrib.getD root [])
  | _ =>
    (0, (List.range bound).flatMap fun c =>
      if members.getLsbD c then contrib.getD c (List.replicate (n * count) 0) else List.replicate (n * count) 0)

/-- The destination's length in bytes (19 R389). -/
def Job.collLen (j : Job) : Nat :=
  let v := fun (i : Nat) => j.vals.getD i 0
  collBytes (v 5) * v 1 * (if v 3 = 2 ∨ v 3 = 4 then v 10 else 1)

/-- The source's length in bytes, none where this member reads none. -/
def Job.collSrc (j : Job) : Nat :=
  let v := fun (i : Nat) => j.vals.getD i 0
  if v 3 = 3 ∧ v 6 ≠ v 9 then 0 else collBytes (v 5) * v 1 * (if v 3 = 4 then v 10 else 1)

/-- The fields members compare (19 R387). -/
def Job.collCard (j : Job) : List Nat := [j.vals.getD 3 0, j.vals.getD 4 0, j.vals.getD 5 0, j.vals.getD 1 0, j.vals.getD 6 0]

/-- The job with the slot bound of the view at its issue, which fixes its footprint (19 R389). -/
def Job.withBound (j : Job) (n : Nat) : Job :=
  let k := { j with vals := j.vals.set 10 n }
  { k with reads := [globalRange (k.vals.getD 0 0) k.collSrc], writes := [globalRange (k.vals.getD 2 0) k.collLen] }

/-- The operand digest of a coll (19 R405): its card and its source bytes. -/
def Job.collDigest (j : Job) (bytes : List Byte) : Nat :=
  opDigest 0xE0 [(0, 0, j.vals.take 9 ++ [j.vals.getD 11 0, j.bar.elim 0 (· + 1), if j.dst.isSome then 1 else 0] ++ bytes.map (·.toNat))]

/-! ### Completion and abandonment -/

/-- The status record's words (19 R391). -/
def collStatus (outcome : Nat) (reduced : Bool) (gid view n stale : Nat) : List Nat :=
  [outcome + (if reduced then 256 else 0) + gid * 2 ^ 16, view, n, min stale (2 ^ 32 - 1)]

/-- `$trapinfo` of COLL_ABANDONED (19 R399). -/
def abandonInfo (reason gid view : Nat) : BitVec 64 := BitVec.ofNat 64 (reason * 2 ^ 48 + gid * 2 ^ 32 + view)

/-- An operation has completed (19 R389, R391): class, barrier credit, status record and, where abandoned, COLL_ABANDONED. -/
def State.collDone (s : State) (id : Nat) (j : Job) (status : List Nat) (abandoned : Option (BitVec 64)) : State :=
  let s1 := match j.dst with
    | some w => s.jobWindow j (j.vals.getD 7 0) w (j.vals.getD 8 0) (status.flatMap fun x => toBytes 4 x)
    | none => s
  let s2 := s1.jobCredit j 2 fun x => x.credit j.collLen 0
  (s2.jobFault j 2 (abandoned.map fun x => (.collAbandoned, x))).jobOver id j

/-- Whether an operation's issuer is pre-empted: its outcome is delivered after the resume handler has returned, or after the resume where there is none (19 R406). -/
def State.collAway (s : State) (j : Job) : Bool :=
  (match s.groups.get j.group with
    | some g => g.saved.any fun v => v.flights.any fun f => f.id == j.flight
    | none => false)
  || (match s.blocks.get j.block with
    | some b => decide (b.life = .saved)
    | none => false)

/-- A job whose outcome stands in its record, the status words and the abandonment, completes unless its issuer is pre-empted. The status window's line is filled first (10 R258). -/
def State.collEnd (s : State) (id : Nat) : State :=
  match s.jobs.get id with
  | none => s
  | some j =>
    if s.collAway j then s
    else
      let a := j.aux.drop 4
      let bad : Option (BitVec 64) := if a.getD 4 0 = 1 then some (BitVec.ofNat 64 (a.getD 5 0)) else none
      match j.dst, s.groupCtx j.group with
      | some w, some c =>
        let got := (Got.none s).fill c j (j.vals.getD 7 0) w (j.vals.getD 8 0) 16
        if got.waits then got.s else (got.s.jobFault j 2 got.fault).collDone id j (a.take 4) bad
      | _, _ => s.collDone id j (a.take 4) bad

/-- An outcome enters a job's record: it performs nothing more. -/
def Job.ends (j : Job) (round : Nat) (status : List Nat) (abandoned : Option (BitVec 64)) : Job :=
  { j with life := .performed round, aux := (j.aux ++ [0, 0, 0, 0]).take 4 ++ status ++ (match abandoned with | some x => [1, x.toNat] | none => [0, 0]) }

/-- The log entry of an outcome (19 R405): number, status, abandonment, address, slot bound and bytes. -/
def State.logColl (s : State) (j : Job) (status : List Nat) (abandoned : Option (BitVec 64)) (va : Nat) (bs : List Byte)
    (digest : Nat) : State :=
  match s.groups.get j.group with
  | none => s
  | some g =>
    let a := match abandoned with | some x => [1, x.toNat] | none => [0, 0]
    s.record j.group .coll 0xE0 ([g.partOrd 2 (g.ordFor j.flight)] ++ status ++ a ++ [va, j.vals.getD 10 0] ++ bs.map (·.toNat)) digest

/-- An operation whose card is not here yet (19 R387). -/
def CollOp.early (card : List Nat) (members : BitVec 256) (contrib : Table (List Byte)) : CollOp :=
  { job := 0, card := card, members := members, layout := members, contrib := contrib, stale := 0, choices := Table.empty,
    deciding := false, awaiting := false, reduced := false, restarted := false }

/-- An operation ends ABANDONED on this member (19 R399, R400). One whose card is not here yet ends so as soon as it is issued, and keeps its number (10 R274). -/
def State.collAbandon (s : State) (gid num reason : Nat) : State :=
  match s.colls.get gid with
  | none => s
  | some g =>
    match g.ops.get num with
    | none =>
      if num < g.opNum then s
      else s.updColl gid fun g => { g with ops := g.ops.put num { CollOp.early [] g.members Table.empty with ended := some reason }, lastReason := reason }
    | some o =>
      match s.jobs.get o.job with
      | none => s.updColl gid fun g => { g with ops := g.ops.put num { o with ended := some (o.ended.getD reason), deciding := false, awaiting := false }, lastReason := reason }
      | some j =>
        let s1 := s.updColl gid fun g => { g with ops := g.ops.del num, lastReason := reason }
        let st := collStatus 3 false gid g.view 0 o.stale
        let info := abandonInfo reason gid g.view
        let t := s1.logColl j st (some info) 0 [] (j.aux.getD 4 0)
        ({ t with jobs := t.jobs.put o.job (j.ends 0 st (some info)) } : State).collEnd o.job

/-- This device leaves a group (19 R399). -/
def State.collLeave (s : State) (gid reason : Nat) : State :=
  match s.colls.get gid with
  | none => s
  | some g =>
    let s1 := g.ops.keys.foldl (fun s k => s.collAbandon gid k reason) s
    s1.updColl gid fun g => { g with ops := Table.empty, member := false, acked := none, proposed := none, acks := 0, joiner := none, pending := none, replaced := false, lastReason := reason }

/-! ### Choices (19 R400, R401) -/

/-- Own card and contribution sent to the other members under the committed view's tag (19 R387, R395): in a broadcast only the root's has bytes. -/
def CollGroup.share (g : CollGroup) (gid num : Nat) (j : Job) (own : List Byte) : List Sent :=
  let n := collBytes (j.vals.getD 5 0) * j.vals.getD 1 0
  ((slotsOf g.members).filter (· != g.slot)).map fun t =>
    .packet gid g.view num t j.collCard (if j.vals.getD 3 0 = 4 then (own.drop (n * t)).take n else own)

/-- Members' cards for an operation differ (19 R387): it is abandoned on every one, since each has the cards of all the others; this device's goes out now where its engine had not taken it. -/
def State.collDiffer (s : State) (gid num : Nat) : State :=
  let own := (s.colls.get gid).bind fun g => (g.ops.get num).bind fun o =>
    if (o.contrib.get g.slot).isSome then none else (s.jobs.get o.job).map fun j => g.share gid num j []
  (s.sends (own.getD [])).collAbandon gid num 4

/-- A choice applied: restart 1, re-weight 2, abandon 3. -/
def State.collApply (s : State) (gid num choice : Nat) : State :=
  match s.colls.get gid with
  | none => s
  | some g =>
    match g.ops.get num with
    | none => s
    | some o =>
      if choice = 3 then s.collAbandon gid num 0
      else
        let o1 : CollOp := { o with
          members := g.members, layout := if choice = 1 then g.members else o.layout, deciding := false, awaiting := false,
          reduced := decide (choice = 2), restarted := decide (choice = 1), choices := Table.empty }
        let s1 := s.updColl gid fun g => { g with ops := g.ops.put num o1 }
        match s.jobs.get o.job, o.contrib.get g.slot with
        | some j, some own => s1.sends (g.share gid num j own)
        | _, _ => s1

/-- Once every survivor's choice is known it stands, or the operation is abandoned because they differ (19 R401). -/
def State.collSettle (s : State) (gid num : Nat) : State :=
  match s.colls.get gid with
  | none => s
  | some g =>
    match g.ops.get num with
    | none => s
    | some o =>
      let cs := (slotsOf g.members).map fun k => o.choices.get k
      if !o.deciding || cs.any (·.isNone) then s
      else
        match cs.filterMap id with
        | [] => s
        | x :: xs => if xs.all (· == x) then s.collApply gid num x else s.collAbandon gid num 1

/-- This member's choice is made and sent to the view server (19 R401). -/
def State.collChoose (s : State) (gid num choice : Nat) : State :=
  match s.colls.get gid with
  | none => s
  | some g =>
    let s1 := s.updColl gid fun g => { g with
      ops := g.ops.upd num fun o => { o with awaiting := false, choices := o.choices.put g.slot choice } }
    (s1.sends [.choice gid num g.slot choice]).collSettle gid num

/-- The operations of this device that a group issued and that await its choice, with their captured policies. -/
def State.awaitingOf (s : State) (uid : Nat) : List (Nat × Nat × Nat) :=
  s.colls.rows.flatMap fun r => r.2.ops.rows.filterMap fun x =>
    match s.jobs.get x.2.job with
    | some j => if x.2.awaiting && j.group == uid then some (r.1, x.1, j.aux.getD 2 1) else none
    | none => none

/-- Leaving a view-change handler makes the captured policies the choices still due (19 R401). -/
def State.collDefault (s : State) (uid : Nat) : State :=
  (s.awaitingOf uid).foldl (fun s x => s.collChoose x.1 x.2.1 x.2.2) s

/-- Whether a group takes VIEW_CHANGE at a commit: not once its block is being quiesced until its resume handler has returned, nor while a stop holds the block (19 R401), nor where its lanes have all exited (R402). -/
def State.takesView (s : State) (uid : Nat) : Bool :=
  match s.groups.get uid with
  | none => false
  | some g =>
    match s.blocks.get g.block with
    | none => false
    | some b =>
      decide (b.life = .resident) && b.quiesce.isNone && b.hold.isNone && decide (g.life = .live) && !g.frags.rows.isEmpty
        && g.frags.rows.all fun r => decide (r.2.handler ≠ .preempt ∧ r.2.handler ≠ .resume)

/-! ### View changes -/

/-- Whether the card of an operation came from another member before this device's engine has taken its own. -/
def CollOp.begun (o : CollOp) : Bool := !o.contrib.rows.isEmpty

/-- Whether a card is that of a broadcast whose root is no member of a view. -/
def rootless (card : List Nat) (members : BitVec 256) : Bool := card.getD 0 0 == 3 && !members.getLsbD (card.getD 4 0)

/-- One operation in flight at a commit that removed members (19 R400, R401). One that other members have begun and this device has not issued awaits its choice too, which is the policy of the card once it is issued (DEDUCED, log 44). The choices that came before this commit are those made at it. -/
def State.collAffected (s : State) (gid num : Nat) (gone : BitVec 256) : State :=
  match (s.colls.get gid).bind fun g => g.ops.get num with
  | none => s
  | some o =>
    match s.jobs.get o.job with
    | none =>
      if rootless o.card (((s.colls.get gid).map (·.members)).getD 0) then s.collAbandon gid num 2
      else s.updColl gid fun g => { g with ops := g.ops.put num { o with
        contrib := Table.empty, deciding := o.ended.isNone && (o.begun || o.deciding || !o.ahead.rows.isEmpty), choices := o.ahead, ahead := Table.empty } }
    | some j =>
      if j.vals.getD 3 0 = 3 ∧ gone.getLsbD (j.vals.getD 6 0) then s.collAbandon gid num 2
      else
        let own := (s.colls.get gid).bind fun g => (o.contrib.get g.slot).map fun x => (g.slot, x)
        let kept : Table (List Byte) := match own with | some (k, x) => Table.empty.put k x | none => Table.empty
        let traps := j.aux.getD 3 0 = 1 && s.takesView j.group
        let s1 := s.updColl gid fun g => { g with ops := g.ops.upd num fun o => { o with
          contrib := kept, deciding := true, awaiting := traps, choices := o.ahead, ahead := Table.empty } }
        if traps then s1 else s1.collChoose gid num (j.aux.getD 2 1)

/-- The groups that take VIEW_CHANGE at a commit (19 R402), once each, with the number of their affected operations. -/
def State.viewTraps (s : State) (gid view departed : Nat) : State :=
  let us := ((s.colls.get gid).map fun g => g.ops.rows.filterMap fun x =>
    match s.jobs.get x.2.job with | some j => if x.2.awaiting then some j.group else none | none => none).getD []
  us.eraseDups.foldl (fun s u =>
    let n := (us.filter (· == u)).length
    let info := BitVec.ofNat 64 (view + gid * 2 ^ 32 + min n 255 * 2 ^ 48 + min departed 255 * 2 ^ 56)
    let t : LatePoison := { mask := BitVec.allOnes 128, code := .viewChange, pc := 0, info := info }
    s.updGroup u fun g => { g with late := g.late ++ [t] }) s

/-- The fragments that wait in cjoin for a group are admitted (19 R403). -/
def State.collAdmit (s : State) (gid : Nat) : State :=
  { s with groups := s.groups.map fun _ g => { g with
      frags := g.frags.map fun _ f => match f.pend with
        | .join j d => if j = gid then { f with pend := .done 0xE4 [0, d] } else f
        | _ => f } }

/-- The trace record of a committed view (21 R421) names each block that has operations of the group in flight, at the coll that issued the first of them (DESIGN CHOICE, log 34: the spec does not say which block a view change concerns). -/
def State.traceView (s : State) (g : CollGroup) : State :=
  let js := g.ops.rows.filterMap fun x => s.jobs.get x.2.job
  (js.map (·.group)).eraseDups.foldl (fun s u =>
    match s.groupCtx u, js.find? (·.group == u) with
    | some c, some j => s.traceOf c 6 0 j.pc 0 none
    | _, _ => s) s

/-- A commit installs a view on this device (19 R398 to R400, R403, R404). A device that is no member is admitted while it asks (R407). The operations that a join has held run under the new view. -/
def State.collInstall (s : State) (gid view num : Nat) (live : BitVec 256) : State :=
  match s.colls.get gid with
  | none => s
  | some g =>
    if !live.getLsbD g.slot then
      (s.collLeave gid 3).updColl gid fun g => { g with view := view, members := live, digest := none }
    else
      let gone := g.members &&& ~~~live
      let joins := !g.member
      if joins && !g.joining then s
      else
      let s1 := (s.traceView g).updColl gid fun g => { g with
        view := view, members := live, member := true, joining := false, opNum := if joins then num else g.opNum,
        digest := none, suspects := 0, joiner := g.joiner.filter fun k => !live.getLsbD k && lowSlot live == g.slot,
        acked := none, proposed := none, acks := 0, pending := none, replaced := false, heard := live }
      if joins then s1.collAdmit gid
      else if gone = 0 then s1.updColl gid fun g => { g with ops := g.ops.map fun _ o => if (o.contrib.get g.slot).isSome then o else { o with members := live, layout := live } }
      else
        let s2 := g.ops.keys.foldl (fun s k => s.collAffected gid k gone) s1
        s2.viewTraps gid view (slotsOf gone).length

/-- Whether a live set may commit (19 R399). -/
def quorum (members live : BitVec 256) : Bool :=
  let n := (slotsOf members).length
  let k := (slotsOf (members &&& live)).length
  decide (n < 2 * k) || (decide (n = 2 * k) && live.getLsbD (lowSlot members))

/-- Every acknowledgement received: the proposer commits (19 R398). -/
def State.collTryCommit (s : State) (gid : Nat) : State :=
  match s.colls.get gid with
  | none => s
  | some g =>
    match g.proposed with
    | none => s
    | some l =>
      if l &&& ~~~g.acks = 0 ∧ !g.replaced then
        (s.sends [.commit gid (g.view + 1) l]).collInstall gid (g.view + 1) g.opNum l
      else s

/-- Whether a member may acknowledge a proposal (19 R398): its first, the same again, or one from a lower slot. -/
def CollGroup.mayAck (g : CollGroup) (slot : Nat) (live : BitVec 256) : Bool :=
  match g.acked with
  | none => true
  | some (k, l) => decide (slot < k) || (slot == k && l == live)

/-- Whether an operation that this device issued is in flight (19 R404): its engine has taken it, or another member has begun it (DEDUCED, log 44), until the round of its results has closed; one that a pending join holds is not. -/
def State.collBusy (s : State) (gid : Nat) (g : CollGroup) : Bool :=
  s.jobs.rows.any fun r => decide (r.2.kind = .coll) && r.2.aux.getD 0 0 == gid && r.2.aux.getD 2 0 != 0
    && (match r.2.life with
        | .queued => ((g.ops.get (r.2.aux.getD 1 0)).map CollOp.begun).getD false
        | .taken => true
        | .performed n => decide ((s.part r.2.part).round < n)
        | .done => false)

/-- View v + 1 is proposed by the lowest member believed live (19 R398). A suspicion supersedes a pending join, and a join waits for the operations in flight (R404). Without a quorum the proposal makes every member of L leave (R399). -/
def State.collPropose (s : State) (gid : Nat) : State :=
  match s.colls.get gid with
  | none => s
  | some g =>
    let live := g.members &&& ~~~g.suspects
    let l := match g.joiner with | some k => if g.suspects = 0 then live ||| slotBit k else live | none => live
    if !g.member || lowSlot live ≠ g.slot || 2 ^ 32 ≤ g.view + 1 then s
    else
      let s0 := s.sends [.proposal gid (g.view + 1) l]
      if !quorum g.members l then s0.collLeave gid 5
      else
        let may := g.mayAck g.slot l
        let ready := may && (l == live || !s.collBusy gid g)
        (s0.updColl gid fun g => { g with
          proposed := some l, acked := if ready then some (g.slot, l) else g.acked, acks := if ready then slotBit g.slot else 0,
          pending := if may && !ready then some (g.slot, l) else none }).collTryCommit gid

/-- Once nothing is in flight, a join's proposal is acknowledged (19 R404). -/
def State.collReady (s : State) (gid : Nat) : State :=
  match s.colls.get gid with
  | none => s
  | some g =>
    match g.pending with
    | none => s
    | some (k, l) =>
      if s.collBusy gid g then s
      else if k = g.slot then
        (s.updColl gid fun g => { g with pending := none, acked := some (k, l), acks := g.acks ||| slotBit k }).collTryCommit gid
      else (s.updColl gid fun g => { g with pending := none, acked := some (k, l) }).sends [.ack gid (g.view + 1) g.slot]

/-- A join that a failure superseded is proposed again after that commit (19 R404). -/
def State.collRejoin (s : State) (gid : Nat) : State :=
  match s.colls.get gid with
  | none => s
  | some g =>
    match g.joiner with
    | none => s
    | some k =>
      if g.member && g.proposed.isNone && g.acked.isNone && decide (g.suspects = 0 ∧ k < 256 ∧ lowSlot g.members = g.slot) && !g.members.getLsbD k
      then s.collPropose gid else s

/-- A member becomes suspect, and agreement starts (19 R397, R398). -/
def State.collSuspect (s : State) (gid slot : Nat) : State :=
  match s.colls.get gid with
  | none => s
  | some g =>
    if !g.member || !g.members.getLsbD slot || slot == g.slot || g.suspects.getLsbD slot then s
    else
      let s1 := s.updColl gid fun g => { g with suspects := g.suspects ||| slotBit slot, proposed := none, pending := none, replaced := g.replaced || g.proposed.isSome }
      ((s1.sends [.suspect gid slot]).collPropose gid).collRejoin gid

/-! ### coll -/

/-- The job card of coll with the checks of 19 R392 after the first. -/
def State.collCard (s : State) (c : Ctx) (ws : List Word) : Except Trap (CollGroup × Job) := do
  let w := fun (i : Nat) => (ws.getD i 0).toNat
  let ptr := fun (i : Nat) => fromWords ((ws.drop i).take 3) % 2 ^ 80
  let fault := fun (code : Code) (i : Nat) => (.error (faultAt code c.f.pc i) : Except Trap Unit)
  let op := w 7 % 8
  let red := w 7 / 8 % 8
  let ty := w 7 / 64 % 4
  let root := w 7 / 256 % 256
  let gid := w 7 / 65536
  if 2 ^ 12 ≤ w 8 ∨ w 10 ≠ 0 ∨ w 11 ≠ 0 ∨ 5 ≤ op ∨ 4 ≤ red ∨ (2 ≤ op ∧ red ≠ 0) ∨ (red = 1 ∧ 2 ≤ ty) ∨ (op ≠ 3 ∧ root ≠ 0) then
    fault .illegalEncoding 0
  match s.collOf c.l.part gid with
  | none => .error (faultAt .badHandle c.f.pc gid)
  | some g =>
    let sw ← if bitAt (w 8) 4 then (c.cardWindow (w 8 % 16)).map some else pure none
    let bar ← c.cardBar (bitAt (w 8) 11) (w 8 / 32 % 64)
    let n := collBytes ty
    if ptr 0 % n ≠ 0 ∨ ptr 4 % n ≠ 0 ∨ w 9 % 16 ≠ 0 then fault .misaligned 0
    match sw with
    | some x => if x.len < w 9 + 16 then fault .accessBounds 0
    | none => pure ()
    let bound := ((slotsOf g.members).getLast?.getD 0) + 1
    let j := Job.card .coll [ptr 0, w 3, ptr 4, op, red, ty, root, w 8 % 16, w 9, g.slot, bound, gid] none sw bar [] []
    pure (g, { j.withBound bound with aux := [gid, g.opNum, c.g.policy, if c.g.trapBit then 1 else 0, 0] })

/-- Whether a log entry is the outcome of a group's coll of a number (19 R405). -/
def isColl (ord : Nat) (e : LogEntry) : Bool := decide (e.kind = .coll ∧ e.data.getD 0 0 = ord)

/-- The outcome that the log holds for a coll of a repeat run or a restarted group (19 R405). -/
def Group.loggedColl (g : Group) (ord : Nat) : Option LogEntry := g.keyed.find? (isColl ord)

/-- An operation of no elements completes at once with outcome DONE (19 R388): nothing is read or written, and its card still goes to the others, which compare it (R387). -/
def State.collEmpty (s : State) (gid num id : Nat) : State :=
  match s.colls.get gid, s.jobs.get id with
  | some g, some j =>
    let stale := ((g.ops.get num).map fun o => o.stale).getD 0
    let st := collStatus 0 false gid g.view (slotsOf g.members).length stale
    let s1 := ((s.updColl gid fun g => { g with ops := g.ops.del num }).sends (g.share gid num j [])).logColl j st none (j.vals.getD 2 0) [] (j.collDigest [])
    ({ s1 with jobs := s1.jobs.put id (j.ends 0 st none) } : State).collEnd id
  | _, _ => s

/-- A coll job of a group that was restarted while the operation was in flight: the issue takes it up again (07 R200). -/
def State.detached (s : State) (c : Ctx) : Option (Nat × Job) :=
  s.jobs.rows.find? fun r => decide (r.2.kind = .coll ∧ r.2.group = c.uid)
    && !(((c.g.saved.flatMap fun v => v.flights) ++ c.g.flights).any fun f => f.id == r.2.flight)

/-- COLL (19 R387, R388, R392, R405). One of count 0 completes at once; the other members still compare its card. -/
def execColl (f : FormG) (s : State) : Out :=
  let q := f.handle.toNat
  sysFull s f.g (fun _ => false) (unboundQ f.handle) [] [(12, f.x)] fun c _ =>
    if c.port q ≠ some 3 then .trap (c.queueError q)
    else
      let ws := c.g.scalars (opndIdx f.x) 12
      match s.collCard c ws with
      | .error t => .trap t
      | .ok (g, j) =>
        if c.g.full 2 then .wait 5 s
        else if 16 ≤ s.cards true c.g.core then .wait 8 s
        else
          match c.g.loggedColl (c.g.partOrd 2 (c.g.ordOf 2 + 1)), s.detached c with
          | some e, _ => .done (s.enterJob c 2 { j.withBound (e.data.getD 8 0) with aux := [] })
          | none, some (_, d) => .done (s.fly c (Flight.plain d.flight 2 c.f.pc 0))
          | none, none =>
            if c.repeats then .placed (s.stopRun c none)
            else
              let id := s.uid
              let num := g.opNum
              let s1 := s.enterJob c 2 j
              let gid := j.aux.getD 0 0
              let o : CollOp := match g.ops.get num with
                | some o => { o with job := id, members := g.members, layout := if o.deciding then o.layout else g.members,
                                     card := if o.card.isEmpty then j.collCard else o.card }
                | none => { CollOp.early j.collCard g.members Table.empty with job := id }
              let s2 := s1.updColl gid fun g => { g with opNum := (num + 1) % 2 ^ 32, ops := g.ops.put num o }
              .done (if !g.member then s2.collAbandon gid num 3
                else if o.ended.isSome then s2.collAbandon gid num (o.ended.getD 0)
                else if o.card ≠ j.collCard then s2.collDiffer gid num
                else if j.vals.getD 1 0 = 0 then s2.collEmpty gid num id
                else if o.deciding then (if rootless o.card g.members then s2.collAbandon gid num 2 else s2.collChoose gid num c.g.policy)
                else s2)

/-- The engine takes a card: the source is read at the issuer's snapshot (19 R389) and goes to the other members, and the contributors are those of the view under which it runs (R390, R404). A broadcast whose root is no member ends at once (R400). -/
def State.collTake (s : State) (id : Nat) (j : Job) (c : Ctx) : State :=
  let gid := j.aux.getD 0 0
  let num := j.aux.getD 1 0
  let got := (Got.none s).global c j (j.vals.getD 0 0) j.collSrc
  if got.waits then got.s
  else
    let digest := j.collDigest got.bytes
    let s0 := got.s.jobFault j 2 got.fault
    match s0.colls.get gid with
    | none => s0
    | some g =>
      let s1 : State := { s0 with jobs := s0.jobs.put id { j with life := .taken, aux := j.aux.take 4 ++ [digest] } }
      if j.vals.getD 3 0 = 3 ∧ !g.members.getLsbD (j.vals.getD 6 0) then s1.collAbandon gid num 2
      else
        (s1.updColl gid fun g => { g with ops := g.ops.upd num fun o => { o with
          contrib := o.contrib.put g.slot got.bytes, members := g.members, layout := if o.reduced then o.layout else g.members } }).sends
          (g.share gid num j got.bytes)

/-- The contributions as a member takes them: of its own all-to-all source, the block that it sends to itself (19 R389). -/
def CollOp.received (o : CollOp) (j : Job) (own : Nat) : Table (List Byte) :=
  let n := collBytes (j.vals.getD 5 0) * j.vals.getD 1 0
  if j.vals.getD 3 0 = 4 then o.contrib.upd own fun bs => (bs.drop (n * own)).take n else o.contrib

/-- Whether an operation has the card and contribution of every member, a broadcast too, since a card that differs abandons it on all of them (DEDUCED from 19 R387, log 21). -/
def CollOp.complete (o : CollOp) : Bool := (slotsOf o.members).all fun k => (o.contrib.get k).isSome

/-- A taken operation with every contribution performs (19 R389): its destination is handed to the open round as one unit. -/
def State.collFinish (s : State) (id : Nat) (j : Job) (c : Ctx) : State :=
  let gid := j.aux.getD 0 0
  let num := j.aux.getD 1 0
  let v := fun (i : Nat) => j.vals.getD i 0
  match (s.colls.get gid).bind fun g => (g.ops.get num).map fun o => (g, o) with
  | none => s
  | some (g, o) =>
    if o.deciding || g.acked.isSome || !o.complete then s
    else
      let r := collResult (v 5) (v 3) (v 4) (v 1) (v 10) (v 9) (v 6) o.layout o.members (o.received j (v 9))
      let st := collStatus (if o.reduced then 2 else if o.restarted then 1 else 0) o.reduced gid g.view (slotsOf o.members).length o.stale
      let va := v 2 + r.1
      if !s.jobFits c va r.2 then s
      else
        let h := s.jobGlobal c j va r.2
        let s1 := (h.1.jobFault j 2 h.2.2).logColl j st none va r.2 (j.aux.getD 4 0)
        let s2 := s1.updColl gid fun g => { g with ops := g.ops.del num }
        { s2 with jobs := s2.jobs.put id (j.ends h.2.1 st none) }

/-- A coll of a repeat run or a restarted group performs: the logged bytes enter its own layer as a job's writes (19 R405). The operands are compared, those of a restart after a lost segment too (16 R352). -/
def State.collReplay (s : State) (id : Nat) (j : Job) (c : Ctx) : State :=
  let got := (Got.none s).global c j (j.vals.getD 0 0) j.collSrc
  if got.waits then got.s
  else
    match got.s.takeOwn c.uid (isColl (c.g.partOrd 2 (c.g.ordFor j.flight))) with
    | none => s
    | some (e, s0) =>
      let digest := j.collDigest got.bytes
      let d := fun (i : Nat) => e.data.getD i 0
      let differs := e.digest != 0 && e.digest != digest
      if c.repeats && differs then s0.stopRun c (some (0xE0, digest))
      else if c.b.lost && differs then s0.escaped c
      else
        let st := [d 1, d 2, d 3, d 4]
        let bad : Option (BitVec 64) := if d 5 = 1 then some (BitVec.ofNat 64 (d 6)) else none
        if bad.isSome || c.layer.isNone then ({ s0 with jobs := s0.jobs.put id (j.ends 0 st bad) } : State).collEnd id
        else
          let h := s0.jobGlobal c j (d 7) ((e.data.drop 9).map fun x => BitVec.ofNat 8 x)
          let s1 : State := h.1
          { s1 with jobs := s1.jobs.put id (j.ends h.2.1 st none) }

/-! ### The other instructions -/

/-- BAD_HANDLE for a group not bound to the partition (19 R407). -/
def Ctx.noGroup (c : Ctx) (gid : Nat) : Act := .trap (faultAt .badHandle c.f.pc gid)

/-- CVIEW (19 R396). -/
def execCview (f : FormG) (s : State) : Out :=
  sysInstr s f.g [(12, f.x)] [(1, f.y)] fun c _ =>
    let gid := (c.g.sreg (opndIdx f.y)).toNat % 65536
    match s.collOf c.l.part gid with
    | none => c.noGroup gid
    | some g =>
      let now := [g.view, gid + g.slot * 2 ^ 16 + (if g.member then 2 ^ 24 else 0) + (if g.joining || g.joiner.isSome then 2 ^ 25 else 0),
        (slotsOf g.members).length, min g.stale (2 ^ 32 - 1)] ++ (toWords 8 g.members.toNat).map (·.toNat)
      let digest := opDigest 0xE1 [(0, 0, [gid])]
      let put := fun (t : State) (d : List Nat) => Act.done (t.writeRegs c.uid (sclWrites (opndIdx f.x) (d.map toWord)))
      match s.consult c .view 0xE1 digest with
      | .perform => put (s.record c.uid .view 0xE1 now digest) now
      | .replay d t => put t d
      | .diverged t => .placed t

/-- CPOLICY (19 R401, R407): 1 restart, 2 re-weight, 3 abandon. -/
def execCpolicy (f : FormG) (s : State) : Out :=
  sysInstr s f.g [] [] fun c _ =>
    .done (s.updGroup c.uid fun g => { g with policy := f.func.toNat % 4, trapBit := bitAt f.func.toNat 2 })

/-- CACK (19 R401, R407): this group's choice for its operations of the group that await one; irrevocable, and compared by a repeat run (R405). -/
def execCack (f : FormG) (s : State) : Out :=
  sysInstr s f.g [] [(1, f.y)] fun c _ =>
    let gid := (c.g.sreg (opndIdx f.y)).toNat % 65536
    if (s.collOf c.l.part gid).isNone then c.noGroup gid
    else
      let k := f.func.toNat % 4
      let digest := opDigest 0xE3 [(0, 0, [gid, k])]
      match s.consult c .view 0xE3 digest with
      | .diverged t => .placed t
      | .replay _ t => .done t
      | .perform =>
        let s1 := s.record c.uid .view 0xE3 [] digest
        .done (((s1.awaitingOf c.uid).filter fun x => x.1 == gid).foldl
          (fun s x => s.collChoose x.1 x.2.1 (if k = 0 then x.2.2 else k)) s1)

/-- Whether this device may rejoin: its last start was warm and every core of its map has passed a cone test since (19 R403). -/
def State.joinReady (s : State) : Bool :=
  s.warm && (List.range Config.cores).all fun c => (s.core c).aside || (s.core c).scanFailed || (s.core c).testedSince

/-- CJOIN (19 R403): `.set` gives the digest the view server expects; without it the device asks to rejoin. On a device that is no member, the digest held is the one its view server expects, and one that differs, or none, is the server's answer DIGEST_MISMATCH (DEDUCED, log 44). -/
def execCjoin (f : FormG) (s : State) : Out :=
  let set := f.func == 1
  sysInstr s f.g (if set then [] else [(1, f.x)]) [(4, f.y)] fun c _ =>
    let w := fun (i : Nat) => (c.g.sreg (opndIdx f.y + i)).toNat
    let gid := w 0 % 65536
    let dig : BitVec 64 := BitVec.ofNat 64 (w 2 + 2 ^ 32 * w 3)
    match s.collOf c.l.part gid with
    | none => c.noGroup gid
    | some g =>
      let digest := opDigest 0xE4 [(0, 0, [gid, w 2, w 3])]
      if set then
        match s.consult c .view 0xE4 digest with
        | .diverged t => .placed t
        | .replay _ t => .done t
        | .perform =>
          let s1 := s.record c.uid .view 0xE4 [] digest
          .done (if !g.member then s1
            else if lowSlot g.members = g.slot then s1.updColl gid fun g => { g with digest := some dig }
            else s1.sends [.digest gid dig])
      else
        let answer := fun (t : State) (v : Nat) =>
          Act.done ((t.record c.uid .view 0xE4 [v] digest).writeRegs c.uid [.sca (opndIdx f.x) (toWord v)])
        let differs := g.digest != some dig
        match c.f.pend with
        | .done _ d => answer s (d.getD 0 0)
        | .join _ _ => if differs then answer ((s.updColl gid fun g => { g with joining := false }).updFrag c.uid c.fid fun x => { x with pend := .none }) 1
            else .wait 14 s
        | _ =>
          match s.consult c .view 0xE4 digest with
          | .diverged t => .placed t
          | .replay d t => .done (t.writeRegs c.uid [.sca (opndIdx f.x) (toWord (d.getD 0 0))])
          | .perform =>
            if g.member then answer s 3
            else if !s.joinReady then answer s 2
            else if differs then answer s 1
            else
              let s1 := (s.updColl gid fun g => { g with joining := true }).updFrag c.uid c.fid fun x => { x with pend := .join gid digest }
              .wait 14 (s1.sends [.join gid g.slot dig])

/-- Whether a fragment stands at a tret. -/
def State.atTret (s : State) (uid fid : Nat) : Bool :=
  match s.ctxOf uid fid with
  | none => false
  | some c =>
    match s.peek c c.f.pc with
    | .word w => (match decodeWord c.g.seq c.f.atLast w with | .ok (.tret _) => true | _ => false)
    | .trap _ _ _ | .absent _ => false

/-- A view-change handler that has reached tret, with the last of its fragments where it split (DEDUCED, log 44), makes the captured policies the choices still due (19 R401). -/
def State.viewLeft (s : State) (c : Ctx) : State :=
  if c.f.handler = .view ∧ c.g.frags.rows.all (fun x => decide (x.1 = c.fid ∨ x.2.handler ≠ .view) || s.atTret c.uid x.1) then s.collDefault c.uid
  else s

/-- TRET (08 R215, R216, 19 R401): the checks of the trap state, the choices a view-change handler has not made, the wait for the counted classes, and the return. -/
def execTret (f : FormG) (s : State) : Out :=
  let next := f.func == 1
  ctlInstr s f.g [] fun c =>
    if c.tretIllegal next then .trap (faultAt .illegalEncoding c.f.pc 0)
    else if !c.g.idle then .wait 5 (s.viewLeft c)
    else if c.f.handler = .resume then .placed ((s.dropOthers c).putGroup c.uid (c.g.restoreSaved s.tick))
    else
      match (if next && c.f.tretAtLast then s.reach c (nextWord c.f.tpc) else none) with
      | some x => .placed (c.barred s x)
      | none =>
        let g := c.g.putFrag c.fid (s.tretFrag c next)
        .placed (s.putGroup c.uid (if c.f.tphase = .reconv then g.fuseAll s.tick (g.sibs.rows.length + 1) else g))

/-! ### Steps of the group (19 R397 to R404) -/

/-- COLL_GROUP_CREATE (19 R393): a device belongs to at most 64 groups. -/
def execCollGroupCreate (id part slot view : Nat) (members : BitVec 256) (fabric : List Nat) (s : State) : Out :=
  if 64 ≤ s.colls.rows.length ∧ (s.colls.get id).isNone ∨ 65536 ≤ id ∨ 256 ≤ slot ∨ 16 ≤ part then .next (s.sends [.refused])
  else
    let g : CollGroup :=
      { part := part, slot := slot, fabric := fabric, view := view % 2 ^ 32, members := members, member := members.getLsbD slot,
        joining := false, opNum := 0, stale := 0, digest := none, ops := Table.empty, suspects := 0, joiner := none,
        acked := none, proposed := none, acks := 0, heard := members, lastReason := 0 }
    .next { s with colls := s.colls.put id g }

/-- Whether the link controller is off, as it is below A2 (22 R434). -/
def State.deep (s : State) : Bool := match s.dev with | .power a => decide (2 < a) | .off => true | .startingCold | .startingWarm | .ready | .maintenance => false

/-- HEARTBEAT (19 R397): one to every other member; in A0 to A2 only (22 R434). -/
def execHeartbeat (id : Nat) (s : State) : Out :=
  match s.colls.get id with
  | none => .next s
  | some g =>
    if !g.member || s.deep then .next s
    else .next (s.sends (((slotsOf g.members).filter (· != g.slot)).map fun k => .heartbeat id k))

/-- HEARTBEAT_RECEIVED (19 R397). -/
def execHeartbeatReceived (id slot : Nat) (s : State) : Out :=
  .next (s.updColl id fun g => if g.members.getLsbD slot then { g with heard := g.heard ||| slotBit slot } else g)

/-- HEARTBEAT_TIMEOUT (19 R397): a member not heard since the interval began becomes suspect; one that was begins a new interval. -/
def execHeartbeatTimeout (id slot : Nat) (s : State) : Out :=
  match s.colls.get id with
  | none => .next s
  | some g =>
    if g.heard.getLsbD slot then .next (s.updColl id fun g => { g with heard := g.heard &&& ~~~slotBit slot })
    else .next (s.collSuspect id slot)

/-- MEMBER_REMOVE (19 R397). -/
def execMemberRemove (id slot : Nat) (s : State) : Out := .next (s.collSuspect id slot)

/-- SUSPECT_REPORT (19 R397). -/
def execSuspectReport (id slot : Nat) (s : State) : Out := .next (s.collSuspect id slot)

/-- PROPOSE (19 R398, R399, R404): acknowledged once, or again for a lower proposer, by the members of L, the joiner among them; a join only with nothing in flight. -/
def execPropose (id slot view : Nat) (live : BitVec 256) (s : State) : Out :=
  match s.colls.get id with
  | none => .next s
  | some g =>
    let ack := fun (g : CollGroup) => State.sends (s.updColl id fun _ => { g with acked := some (slot, live), pending := none }) [.ack id view g.slot]
    if !live.getLsbD g.slot || !g.mayAck slot live then .next s
    else if !g.member then .next (if g.joining && decide (g.view < view) then ack g else s)
    else if view != g.view + 1 then .next s
    else if !quorum g.members live then .next (s.collLeave id 5)
    else
      let added := live &&& ~~~g.members
      if added = 0 then .next (ack g)
      else
        let g1 : CollGroup := { g with joiner := some (lowSlot added) }
        .next (if s.collBusy id g then s.updColl id fun _ => { g1 with pending := some (slot, live) } else ack g1)

/-- ACKNOWLEDGE (19 R398). -/
def execAcknowledge (id slot view : Nat) (s : State) : Out :=
  match s.colls.get id with
  | none => .next s
  | some g =>
    if g.proposed.isNone || g.replaced || view != g.view + 1 then .next s
    else .next (((s.updColl id fun g => { g with acks := g.acks ||| slotBit slot }).collTryCommit id).collRejoin id)

/-- COMMIT (19 R400, R403): a later view than the committed one is installed. -/
def execCommit (id view num : Nat) (live : BitVec 256) (s : State) : Out :=
  match s.colls.get id with
  | none => .next s
  | some g => if view ≤ g.view then .next s else .next ((s.collInstall id view num live).collRejoin id)

/-- ACK_LAPSE (19 R398): what this member has acknowledged lapses, and with it what the others have of a proposal that was replaced; the lowest member proposes again. -/
def execAckLapse (id : Nat) (s : State) : Out :=
  match s.colls.get id with
  | none => .next s
  | some g =>
    .next (if g.acked.isNone && !g.replaced then s
      else (s.updColl id fun g => { g with acked := none, proposed := none, acks := 0, replaced := false }).collPropose id)

/-- A packet discarded (19 R395) counts in the group and for its operation: in the operation's record, in the status that it has left to be written and to be replayed, or, where its card is still to come, in a record that waits for it. -/
def State.collStale (s : State) (gid num : Nat) : State :=
  let up := fun (n : Nat) => min (n + 1) (2 ^ 32 - 1)
  let s1 := s.updColl gid fun g => { g with stale := up g.stale }
  match s.colls.get gid with
  | none => s1
  | some g =>
    match g.ops.get num, s.jobs.rows.find? fun r => decide (r.2.kind = .coll) && r.2.aux.getD 0 0 == gid && r.2.aux.getD 1 0 == num && decide (r.2.aux.length = 10) with
    | some o, _ => s1.updColl gid fun g => { g with ops := g.ops.put num { o with stale := up o.stale } }
    | none, some (id, j) =>
      let n := up (j.aux.getD 7 0)
      let told := fun (g : Group) (e : LogEntry) => if isColl (g.partOrd 2 (g.ordFor j.flight)) e then { e with data := e.data.set 4 n } else e
      { s1.updGroup j.group fun g => { g with log := g.log.map (told g) } with
        jobs := s1.jobs.put id { j with aux := j.aux.set 7 n } }
    | none, none =>
      if num < g.opNum || !g.member then s1
      else s1.updColl gid fun g => { g with ops := g.ops.put num { CollOp.early [] g.members Table.empty with stale := 1 } }

/-- COLL_PACKET (19 R395): applied only under the committed view's tag; a packet without a card is the withdrawal of 10 R274. -/
def execCollPacket (id view op slot : Nat) (card : List Nat) (data : List Byte) (s : State) : Out :=
  match s.colls.get id with
  | none => .next s
  | some g =>
    if !g.member || view != g.view || !g.members.getLsbD slot then
      .next (s.collStale id op)
    else if card.isEmpty then .next ((s.collAbandon id op 6).collReady id)
    else
      match g.ops.get op with
      | some o =>
        if o.ended.isSome then .next s
        else if !o.card.isEmpty && o.card != card then .next ((s.collDiffer id op).collReady id)
        else .next (s.updColl id fun g => { g with ops := g.ops.put op { o with card := card, contrib := o.contrib.put slot data } })
      | none =>
        if op < g.opNum then .next s
        else
          .next (s.updColl id fun g => { g with ops := g.ops.put op (CollOp.early card g.members (Table.empty.put slot data)) })

/-- POLICY_CHOICE (19 R401): one that comes before this member's own commit, or after a choice of its sender for an earlier one, is kept for the commit to come; for an operation of which this device knows nothing yet, the choices are kept until its card is issued. -/
def execPolicyChoice (id op slot choice : Nat) (s : State) : Out :=
  let put := fun (o : CollOp) =>
    if o.deciding && (o.choices.get slot).isNone then { o with choices := o.choices.put slot choice } else { o with ahead := o.ahead.put slot choice }
  let known := fun (g : CollGroup) (o : CollOp) => { o with deciding := o.deciding || (o.job == 0 && !o.begun && o.ended.isNone && g.acked.isNone) }
  .next (((s.updColl id fun g =>
    match g.ops.get op with
    | some o => { g with ops := g.ops.put op (put (known g o)) }
    | none =>
      if g.opNum ≤ op ∧ g.member then { g with ops := g.ops.put op (put (known g (CollOp.early [] g.members Table.empty))) } else g).collSettle id op).collReady id)

/-- CHOICE_TIMEOUT (19 R401): what has not come counts as abandon. -/
def execChoiceTimeout (id op : Nat) (s : State) : Out :=
  let fill := fun (g : CollGroup) (o : CollOp) =>
    (slotsOf g.members).foldl (fun (t : Table Nat) k => if (t.get k).isSome then t else t.put k 3) o.choices
  let put := fun (g : CollGroup) (o : CollOp) => if o.deciding then { o with choices := fill g o } else o
  .next (((s.updColl id fun g => { g with ops := g.ops.upd op (put g) }).collSettle id op).collReady id)

/-- JOIN_REQUEST (19 R404): the view server proposes a view with the joiner, where the digest matches; while another view is proposed the join waits for its commit, and while another device joins it is not taken (DESIGN CHOICE, log 44). -/
def execJoinRequest (id slot : Nat) (digest : BitVec 64) (s : State) : Out :=
  match s.colls.get id with
  | none => .next s
  | some g =>
    if !g.member || lowSlot g.members != g.slot || g.members.getLsbD slot then .next s
    else if g.digest ≠ some digest then .next (s.sends [.reply [id, slot, 1]])
    else if g.joiner.any (· != slot) then .next s
    else
      let s1 := s.updColl id fun g => { g with joiner := some slot }
      .next (if g.proposed.isSome || g.acked.isSome then s1 else s1.collPropose id)

/-- JOIN_TIMEOUT (19 R403): no member answered. -/
def execJoinTimeout (group frag : Nat) (s : State) : Out :=
  match s.ctxOf group frag with
  | none => .next s
  | some c =>
    match c.f.pend with
    | .join gid d =>
      .next ((s.updColl gid fun g => { g with joining := false }).updFrag group frag fun f => { f with pend := .done 0xE4 [4, d] })
    | _ => .next s

/-- EXPECTED_DIGEST_SET (19 R403). -/
def execExpectedDigestSet (id : Nat) (digest : BitVec 64) (s : State) : Out :=
  .next (s.updColl id fun g => { g with digest := some digest })

/-- Every group whose join waits for operations in flight goes on once they are over (19 R404). -/
def State.collsReady (s : State) : State := s.colls.keys.foldl State.collReady s

/-- COLL_COMPLETE (19 R389, R406): the round of an operation's destination has closed, or the operation was abandoned, and its issuer is not pre-empted; a join that waited for it goes on (R404). -/
def execCollComplete (job : Nat) (s : State) : Out :=
  match s.jobs.get job with
  | none => .next s
  | some j =>
    match j.kind, j.life with
    | .coll, .performed n =>
      if (s.part j.part).round < n ∨ (s.part j.part).frozen then .next s
      else .next ((s.collEnd job).collReady (j.aux.getD 0 0))
    | _, _ => .next s

end Sys2Proof.Machine
end

