-- ==== Sys2Proof/Machine/Flags.lean ====
section
/-! DEFINITION. The machine has no flags register (04 R76). Its conditions are pairs of mask registers: less-than in mD and equal in mD+1 (05 R115, R124). -/

namespace Sys2Proof.Machine
open Sys2Proof

/-- The writes of a comparison to a mask pair, in the lanes of the effective mask only (05 R115). -/
def pairWrites (eff : Mask) (d : Nat) (lt eq : Nat → Bool) : List RegWrite :=
  [.msk d eff (mkMask fun j => eff.getLsbD j && lt j), .msk (d + 1) eff (mkMask fun j => eff.getLsbD j && eq j)]

/-- The relations of two integers of a type, in its signedness (05 R115). -/
def intLess (w : Nat) (sg : Bool) (a b : Nat) : Bool := decide (intVal w sg a < intVal w sg b)
def intSame (w : Nat) (a b : Nat) : Bool := a % 2 ^ w == b % 2 ^ w

/-- The relations of two floating values (05 R124): a NaN gives neither. -/
def floatLess (f : Fmt) (a b : Nat) : Bool := XR.lt (f.value (a % (2 * f.signBit))) (f.value (b % (2 * f.signBit)))
def floatSame (f : Fmt) (a b : Nat) : Bool := XR.eq (f.value (a % (2 * f.signBit))) (f.value (b % (2 * f.signBit)))

/-- A comparison of format A. -/
def cmpA2 (s : State) (f : FormA) (n : Nat) (lt eq : Nat → Nat → Bool) : Out :=
  alu s f.g [] [(n, f.a), (n, f.b)] false fun c m =>
    .ok (c.g.writes (pairWrites m (opndIdx f.dst)
      (fun j => lt (c.g.srcA f n j) (c.g.srcB f n j)) (fun j => eq (c.g.srcA f n j) (c.g.srcB f n j))))

end Sys2Proof.Machine
end

