-- ==== Sys2Proof/Machine/Transcend.lean ====
section
/-! DEFINITION. The functions of 05 R126, each the exact mathematical value rounded once. Quotients and roots are exact with a sticky digit; the others are computed as fixed-point numbers of 448 fraction bits, far below the distance of any FP32 argument's value from a rounding boundary (log 12). -/

namespace Sys2Proof.Machine
open Sys2Proof

/-- The fraction bits of the fixed-point numbers. -/
def fixBits : Nat := 448

/-- One as a fixed-point number. -/
def fixOne : Nat := 2 ^ fixBits

/-- The product of two fixed-point numbers. -/
def fixMul (a b : Nat) : Nat := a * b / fixOne

/-- A ratio as a fixed-point number. -/
def fixOf (num den : Nat) : Nat := num * fixOne / den

/-- Σ term(i), where each term follows from the last by a multiplier in fixed point and a division by a number that depends on i: exp's series with t^i / i!. -/
def expSeries (x : Nat) : Nat → Nat → Nat → Nat
  | 0, _, _ => 0
  | fuel + 1, i, t => t + expSeries x fuel (i + 1) (fixMul t x / (i + 1))

/-- e^x for 0 ≤ x < 1. -/
def fixExp (x : Nat) : Nat := expSeries x 120 0 fixOne

/-- Σ z^(2i+1) / (2i+1): the inverse hyperbolic tangent's series, `p` the power at hand. -/
def atanhSeries (z2 : Nat) : Nat → Nat → Nat → Nat
  | 0, _, _ => 0
  | fuel + 1, i, p => p / (2 * i + 1) + atanhSeries z2 fuel (i + 1) (fixMul p z2)

/-- ln m for 1 ≤ m < 2, from num / den. -/
def fixLn (num den : Nat) : Nat :=
  let z := fixOf (num - den) (num + den)
  2 * atanhSeries (fixMul z z) 150 0 z

/-- ln 2. -/
def fixLn2 : Nat := 2 * atanhSeries (fixOf 1 9) 150 0 (fixOf 1 3)

/-- The alternating series of the inverse tangent of 1 / n. -/
def atanSeries (n : Nat) : Nat → Nat → Nat → Int
  | 0, _, _ => 0
  | fuel + 1, i, p =>
    (if i % 2 = 0 then ((p / (2 * i + 1) : Nat) : Int) else -((p / (2 * i + 1) : Nat) : Int))
      + atanSeries n fuel (i + 1) (p / (n * n))

/-- π, by Machin's formula. -/
def fixPi : Nat := (16 * atanSeries 5 110 0 (fixOne / 5) - 4 * atanSeries 239 35 0 (fixOne / 239)).toNat

/-- The alternating series of sine (start 1) and cosine (start 0) at a number whose square is `x2`, `t` the term at hand and `k` its index. -/
def trigSeries (x2 : Nat) : Nat → Bool → Nat → Nat → Int
  | 0, _, _, _ => 0
  | fuel + 1, minus, k, t =>
    (if minus then -(t : Int) else (t : Int))
      + trigSeries x2 fuel (!minus) (k + 2) (fixMul t x2 / ((k + 1) * (k + 2)))

/-- sin(π r) for 0 ≤ r ≤ 1/2, from num / den. -/
def fixSinPi (num den : Nat) : Nat :=
  if 4 * num ≤ den then
    let x := fixMul fixPi (fixOf num den)
    (trigSeries (fixMul x x) 60 false 1 x).toNat
  else
    let x := fixMul fixPi (fixOf (den - 2 * num) (2 * den))
    (trigSeries (fixMul x x) 60 false 0 fixOne).toNat

/-- A fixed-point number times 2^k, rounded to FP32 by `.rne`. -/
def fixRound (neg : Bool) (v : Nat) (k : Int) : Nat := roundRne fmt32 (mkFin neg v fixOne k)

/-- The integer square root, by halving the interval [lo, lo + 2^n). -/
def isqrtFrom (x lo : Nat) : Nat → Nat
  | 0 => lo
  | n + 1 => if (lo + 2 ^ n) * (lo + 2 ^ n) ≤ x then isqrtFrom x (lo + 2 ^ n) n else isqrtFrom x lo n

/-- The floor of the square root. -/
def isqrt (x : Nat) : Nat := isqrtFrom x 0 (Nat.log2 x / 2 + 1)

/-- The square root of num / den as an exact value, or one strictly between the neighbours of 2^-300 that enclose it. -/
def rootValue (num den : Nat) : XR :=
  let v := isqrt (num * 4 ^ 300 / den)
  if v * v * den = num * 4 ^ 300 then mkFin false v (2 ^ 300) 0 else mkFin false (2 * v + 1) (2 ^ 301) 0

/-! ### The functions on FP32 codes -/

/-- frcp. -/
def rcp32 (c : Nat) : Nat :=
  roundRne fmt32 (XR.div (.fin false 1 1) (fmt32.value c))

/-- frsq. -/
def rsq32 (c : Nat) : Nat :=
  match fmt32.value c with
  | .nan => fmt32.qnan
  | .inf s => if s then fmt32.qnan else 0
  | .fin s n d =>
    if n = 0 then fmt32.signed s fmt32.top else if s then fmt32.qnan else roundRne fmt32 (rootValue d n)

/-- fsqrt. -/
def sqrt32 (mode : Rnd) (c : Nat) : Nat :=
  match fmt32.value c with
  | .nan => fmt32.qnan
  | .inf s => if s then fmt32.qnan else fmt32.top
  | .fin s n d =>
    if n = 0 then c else if s then fmt32.qnan else roundF fmt32 mode false 0 (rootValue n d)

/-- fexp2. -/
def exp2_32 (c : Nat) : Nat :=
  match fmt32.value c with
  | .nan => fmt32.qnan
  | .inf s => if s then 0 else fmt32.top
  | .fin s n d =>
    if n / d ≥ 200 then (if s then 0 else fmt32.top)
    else
      let whole : Int := if s then -(((n + d - 1) / d : Nat) : Int) else ((n / d : Nat) : Int)
      let frac := if s then (d - n % d) % d else n % d
      fixRound false (fixExp (fixMul (fixOf frac d) fixLn2)) whole

/-- flog2. -/
def log2_32 (c : Nat) : Nat :=
  match fmt32.value c with
  | .nan => fmt32.qnan
  | .inf s => if s then fmt32.qnan else fmt32.top
  | .fin s n d =>
    if n = 0 then fmt32.signed true fmt32.top
    else if s then fmt32.qnan
    else
      let e := floorLog2 n d
      let num := if 0 ≤ e then n else n * 2 ^ (-e).toNat
      let den := if 0 ≤ e then d * 2 ^ e.toNat else d
      let l : Int := e * (fixOne : Int) + ((fixLn num den * fixOne / fixLn2 : Nat) : Int)
      if l = 0 then 0 else fixRound (decide (l < 0)) l.natAbs 0

/-- fsinpi. -/
def sinpi32 (c : Nat) : Nat :=
  match fmt32.value c with
  | .nan => fmt32.qnan
  | .inf _ => fmt32.qnan
  | .fin s n d =>
    let r := n % (2 * d)
    let flip := decide (d ≤ r)
    let q := r % d
    if q = 0 then fmt32.signed s 0
    else fixRound (s != flip) (fixSinPi (if d < 2 * q then d - q else q) d) 0

/-- fcospi. -/
def cospi32 (c : Nat) : Nat :=
  match fmt32.value c with
  | .nan => fmt32.qnan
  | .inf _ => fmt32.qnan
  | .fin _ n d =>
    let r := n % (2 * d)
    let q := if d < r then 2 * d - r else r
    if 2 * q = d then 0
    else if d < 2 * q then fixRound true (fixSinPi (2 * q - d) (2 * d)) 0
    else fixRound false (fixSinPi (d - 2 * q) (2 * d)) 0

/-- e^(n/d) as a fixed-point mantissa and a power of two, for a signed ratio. -/
def expParts (neg : Bool) (n d : Nat) : Nat × Int :=
  let y : Int := if neg then -((n * fixOne / d : Nat) : Int) else ((n * fixOne / d : Nat) : Int)
  let k := y / (fixLn2 : Int)
  (fixExp (y - k * (fixLn2 : Int)).toNat, k)

/-- ftanh. Below 2^-13 the exact value lies within half a unit in the last place of x. -/
def tanh32 (c : Nat) : Nat :=
  match fmt32.value c with
  | .nan => fmt32.qnan
  | .inf s => fmt32.signed s 0x3F800000
  | .fin s n d =>
    if n * 8192 < d then c
    else if 20 * d < n then fmt32.signed s 0x3F800000
    else
      let (m, k) := expParts true (2 * n) d
      let e := m / 2 ^ (-k).toNat
      fixRound s ((fixOne - e) * fixOne / (fixOne + e)) 0

/-- fsigm. -/
def sigm32 (c : Nat) : Nat :=
  match fmt32.value c with
  | .nan => fmt32.qnan
  | .inf s => if s then 0 else 0x3F800000
  | .fin s n d =>
    if 120 * d < n then (if s then 0 else 0x3F800000)
    else
      let (m, k) := expParts true n d
      let e := m / 2 ^ (-k).toNat
      if s then fixRound false (e * fixOne / (fixOne + e)) 0
      else fixRound false (fixOne * fixOne / (fixOne + e)) 0

end Sys2Proof.Machine
end

