-- ==== Sys2Proof/Machine/FloatOps.lean ====
section
/-! DEFINITION. Floating-point instructions, opcodes 0x30 to 0x4A (05 R120 to R126). -/

namespace Sys2Proof.Machine
open Sys2Proof

/-! ### Shared computations -/

/-- The elements of a floating type in its register: width and count. -/
def floatElems (t : Ty) : Nat × Nat :=
  match t with
  | .f16x2 | .bf16x2 => (16, 2)
  | .f16 | .bf16 => (16, 1)
  | .f32 | .s32 | .n32 | .s16 | .n16 | .s8 | .n8 | .s4 | .n4 | .s64 | .n64 | .e4m3 | .e5m2
  | .b8 | .b16 | .b32 | .b64 | .b128 | .n8x4 | .s8x4 | .n4x8 => (32, 1)

/-- An operation on codes, element by element. -/
def floatMap (t : Ty) (op : Fmt → Nat → Nat → Nat) (a b : Nat) : Nat :=
  mapElems (floatElems t).1 (floatElems t).2 (op (fmtOf t)) a b

/-- An exact operation rounded once per element (05 R121). -/
def floatOp (f : FormA) (op : XR → XR → XR) (a b : Nat) : Nat :=
  floatMap f.ty (fun t x y => roundF t f.rnd f.sat 0 (op (t.value x) (t.value y))) a b

/-- The rounding mode and type that format B's func gives (05 R108). -/
def funcRnd (func : BitVec 4) : Rnd :=
  match func.toNat / 4 with | 0 => .rne | 1 => .rtz | 2 => .rup | _ => .rdn

/-- The type of fma and fnma. -/
def fmaTy (func : BitVec 4) : Ty := match func.toNat % 4 with | 0 => .f32 | 1 => .f16x2 | _ => .bf16x2

/-- a × b + c on one element, rounded once. -/
def fmaCode (t : Fmt) (mode : Rnd) (negate : Bool) (a b c : Nat) : Nat :=
  let p := XR.mul (t.value a) (t.value b)
  roundF t mode false 0 (XR.add (mode == .rdn) (if negate then p.negate else p) (t.value c))

/-- fma and fnma on the elements of a register (05 R121). -/
def fmaWord (func : BitVec 4) (negate : Bool) (a b c : Nat) : Nat :=
  let t := fmaTy func
  let one := fmaCode (fmtOf t) (funcRnd func) negate
  if t = .f32 then one a b c
  else one (a % 2 ^ 16) (b % 2 ^ 16) (c % 2 ^ 16) + 2 ^ 16 * one (a / 2 ^ 16) (b / 2 ^ 16) (c / 2 ^ 16)

/-- fdot2 (05 R121). -/
def dot2Word (func : BitVec 4) (a b c : Nat) : Nat :=
  let t := if func.toNat % 4 = 0 then fmt16 else fmtB16
  let mode := funcRnd func
  let rdn := mode == .rdn
  let p := fun (x y : Nat) => XR.mul (t.value x) (t.value y)
  roundF fmt32 mode false 0
    (XR.add rdn (XR.add rdn (fmt32.value c) (p (a % 2 ^ 16) (b % 2 ^ 16))) (p (a / 2 ^ 16) (b / 2 ^ 16)))

/-- The class bit of 05 R123. -/
def classCode (t : Fmt) (c : Nat) : Nat :=
  let m := t.mag c
  let pick := fun (neg pos : Nat) => 2 ^ (if t.neg c then neg else pos)
  if t.isNan c then (if m / 2 ^ (t.mw - 1) % 2 = 1 then 2 ^ 9 else 2 ^ 8)
  else if t.isInf c then pick 0 7
  else if m = 0 then pick 3 4
  else if m < 2 ^ t.mw then pick 2 5
  else pick 1 6

/-- fround of one element (05 R125). -/
def froundCode (t : Fmt) (mode : Rnd) (c : Nat) : Nat :=
  match t.value c with
  | .nan => t.qnan
  | .inf s => t.signed s t.top
  | .fin s n d => roundRne t (.fin s (roundInt mode 0 s n d).natAbs 1)

/-- ffrac (05 R125). -/
def ffracCode (c : Nat) : Nat :=
  match fmt32.value c with
  | .nan => fmt32.qnan
  | .inf _ => fmt32.qnan
  | .fin s n d =>
    let r := n % d
    roundRne fmt32 (.fin false (if s ∧ r ≠ 0 then d - r else r) d)

/-- fldexp (05 R125). Beyond 2^±400 the product of any FP32 value rounds as it does at 2^±400. -/
def ldexpCode (mode : Rnd) (sat : Bool) (c : Nat) (e : Int) : Nat :=
  match fmt32.value c with
  | .nan => fmt32.qnan
  | .inf s => fmt32.signed s fmt32.top
  | .fin s n d => roundF fmt32 mode sat 0 (mkFin s n d (max (-400) (min e 400)))

/-- ffrexp: the fraction and the exponent, low register first (05 R125). -/
def frexpCode (c : Nat) : Nat :=
  match fmt32.value c with
  | .nan => fmt32.qnan
  | .inf _ => c
  | .fin s n d =>
    if n = 0 then c
    else
      let e := floorLog2 n d + 1
      roundRne fmt32 (mkFin s n d (-e)) + 2 ^ 32 * wrap 32 e

/-! ### Meanings -/

/-- FADD (05 R121). -/
def execFadd (f : FormA) (s : State) : Out := aluA2 s f 1 1 1 (floatOp f (XR.add (f.rnd == .rdn)))

/-- FSUB (05 R121). -/
def execFsub (f : FormA) (s : State) : Out :=
  aluA2 s f 1 1 1 (floatOp f fun x y => XR.add (f.rnd == .rdn) x y.negate)

/-- FMUL (05 R121). -/
def execFmul (f : FormA) (s : State) : Out := aluA2 s f 1 1 1 (floatOp f XR.mul)

/-- FMA (05 R121). -/
def execFma (f : FormB) (s : State) : Out := aluB3 s f 1 1 1 1 (fmaWord f.func false)

/-- FNMA (05 R121). -/
def execFnma (f : FormB) (s : State) : Out := aluB3 s f 1 1 1 1 (fmaWord f.func true)

/-- FMIN (05 R122). -/
def execFmin (f : FormA) (s : State) : Out := aluA2 s f 1 1 1 (floatMap f.ty fun t => fminmax t false)

/-- FMAX (05 R122). -/
def execFmax (f : FormA) (s : State) : Out := aluA2 s f 1 1 1 (floatMap f.ty fun t => fminmax t true)

/-- FMINM (05 R122). -/
def execFminm (f : FormA) (s : State) : Out := aluA2 s f 1 1 1 (floatMap f.ty fun t => fminmaxMag t false)

/-- FMAXM (05 R122). -/
def execFmaxm (f : FormA) (s : State) : Out := aluA2 s f 1 1 1 (floatMap f.ty fun t => fminmaxMag t true)

/-- FABS: the sign bits cleared (05 R123). -/
def execFabs (f : FormA) (s : State) : Out :=
  aluA1 s f 1 1 fun a => floatMap f.ty (fun t x _ => t.mag x) a 0

/-- FNEG: the sign bits inverted (05 R123). -/
def execFneg (f : FormA) (s : State) : Out :=
  aluA1 s f 1 1 fun a => floatMap f.ty (fun t x _ => t.signed (!t.neg x) (t.mag x)) a 0

/-- FCMP (05 R124). -/
def execFcmp (f : FormA) (s : State) : Out := cmpA2 s f 1 (floatLess (fmtOf f.ty)) (floatSame (fmtOf f.ty))

/-- FRCP (05 R126). -/
def execFrcp (f : FormA) (s : State) : Out := aluA1 s f 1 1 rcp32

/-- FRSQ (05 R126). -/
def execFrsq (f : FormA) (s : State) : Out := aluA1 s f 1 1 rsq32

/-- FSQRT (05 R126). -/
def execFsqrt (f : FormA) (s : State) : Out := aluA1 s f 1 1 (sqrt32 f.rnd)

/-- FEXP2 (05 R126). -/
def execFexp2 (f : FormA) (s : State) : Out := aluA1 s f 1 1 exp2_32

/-- FLOG2 (05 R126). -/
def execFlog2 (f : FormA) (s : State) : Out := aluA1 s f 1 1 log2_32

/-- FSINPI (05 R126). -/
def execFsinpi (f : FormA) (s : State) : Out := aluA1 s f 1 1 sinpi32

/-- FCOSPI (05 R126). -/
def execFcospi (f : FormA) (s : State) : Out := aluA1 s f 1 1 cospi32

/-- FTANH (05 R126). -/
def execFtanh (f : FormA) (s : State) : Out := aluA1 s f 1 1 tanh32

/-- FSIGM (05 R126). -/
def execFsigm (f : FormA) (s : State) : Out := aluA1 s f 1 1 sigm32

/-- FFRAC (05 R125). -/
def execFfrac (f : FormA) (s : State) : Out := aluA1 s f 1 1 ffracCode

/-- FROUND (05 R125). -/
def execFround (f : FormA) (s : State) : Out :=
  aluA1 s f 1 1 fun a => floatMap f.ty (fun t x _ => froundCode t f.rnd x) a 0

/-- FCLASS (05 R123). -/
def execFclass (f : FormA) (s : State) : Out :=
  aluA1 s f 1 1 fun a => floatMap f.ty (fun t x _ => classCode t x) a 0

/-- FLDEXP (05 R125). -/
def execFldexp (f : FormA) (s : State) : Out :=
  aluA2 s f 1 1 1 fun a b => ldexpCode f.rnd f.sat a (signed 32 b)

/-- FLDEXP_IMM: func holds the rounding code and the saturation bit (05 R107). -/
def execFldexpImm (f : FormC) (s : State) : Out :=
  aluC1 s f fun a =>
    ldexpCode ((rndOf (f.func.toNat / 2)).getD .rne) (f.func.getLsbD 0) a (signed 22 f.imm.toNat)

/-- FFREXP (05 R125). -/
def execFfrexp (f : FormA) (s : State) : Out := aluA1 s f 2 1 frexpCode

/-- FDOT2 (05 R121). -/
def execFdot2 (f : FormB) (s : State) : Out := aluB3 s f 1 1 1 1 (dot2Word f.func)

end Sys2Proof.Machine
end

