-- ==== Sys2Proof/Machine/Convert.lean ====
section
/-! DEFINITION. Conversion and narrow-format instructions, opcodes 0x50 to 0x57 (05 R127 to R132), with the stochastic rounding of 04 R91 and R92. -/

namespace Sys2Proof.Machine
open Sys2Proof

/-! ### Shared computations -/

/-- The random word of a lane under `.sr`, from the states of the passes (04 R92); a scalar destination takes lane 0's. -/
def passRnd (states : List Word) (scalar : Bool) (j : Nat) : Nat :=
  if scalar then srLane (states.getD 0 0) 0 else srLane (states.getD (j / 32) 0) j

/-- An instruction whose result may round stochastically: `.sr` steps the fragment's state once for each pass it executes (04 R92), and every other mode leaves it. -/
def aluSr (s : State) (f : FormA) (nd : Nat) (srcs : List (Nat × Opnd)) (val : Group → Nat → Nat → Nat) : Out :=
  alu s f.g [(nd, f.dst)] srcs false fun c m =>
    let p := srPasses c.f.rnd m (opndScalar f.dst)
    let g := c.g.writes (destWrites m nd f.dst fun j => val c.g (passRnd p.1 (opndScalar f.dst) j) j)
    .ok (if f.rnd = .sr then g.putFrag c.fid { c.f with rnd := p.2 } else g)

/-- The format whose elements pack narrows to a type, and unpack widens it to: FP32, or FP16 for the 8-bit formats (05 R129, R130). -/
def wideFmt (t : Ty) : Fmt := if tyWidth t = 16 then fmt32 else fmt16

/-- The packed element i of a narrow type, from the sources a and b (05 R129). -/
def packElem (t : Ty) (mode : Rnd) (sat : Bool) (r a b i : Nat) : Nat :=
  let w := tyWidth t
  let half := 16 / w
  let x := (if i < half then a else b) / 2 ^ (2 * w * (i % half)) % 2 ^ (2 * w)
  if isFloat t then convFF (wideFmt t) (fmtOf t) mode sat r x
  else intCode w (intTy t).2 sat (intVal (2 * w) (intTy t).2 x)

/-- pack (05 R129). -/
def packWord (t : Ty) (mode : Rnd) (sat : Bool) (r a b : Nat) : Nat :=
  let w := tyWidth t
  ((List.range (32 / w)).map fun i => packElem t mode sat r a b i * 2 ^ (w * i)).sum

/-- An element of a narrow type widened to twice its width (05 R130). -/
def widenElem (t : Ty) (x : Nat) : Nat :=
  let w := tyWidth t
  if isFloat t then convFF (fmtOf t) (wideFmt t) .rne false 0 x else sext' w (intTy t).2 x
where
  /-- x of w bits extended to 2w bits -/
  sext' (w : Nat) (sg : Bool) (x : Nat) : Nat := wrap (2 * w) (intVal w sg x)

/-- unpack to a pair: element i widened stands at bit 2wi (05 R130). -/
def unpackPair (t : Ty) (a : Nat) : Nat :=
  let w := tyWidth t
  ((List.range (32 / w)).map fun i => widenElem t (a / 2 ^ (w * i) % 2 ^ w) * 2 ^ (2 * w * i)).sum

/-- The element types of unpack's format C (05 R130). -/
def unpackTy (func : Nat) : Ty :=
  match func with
  | 0 => .f16 | 1 => .bf16 | 2 => .e4m3 | 3 => .e5m2 | 4 => .s16 | 5 => .n16 | 6 => .s8 | 7 => .n8
  | 8 => .s4 | _ => .n4

/-- One element widened to FP32 or to 32 bits (05 R130). -/
def unpackOne (t : Ty) (a i : Nat) : Nat :=
  let w := tyWidth t
  let x := a / 2 ^ (w * i) % 2 ^ w
  if isFloat t then convFF (fmtOf t) fmt32 .rne false 0 x else wrap 32 (intVal w (intTy t).2 x)

/-! ### Group quantisation (04 R96 to R99) -/

/-- A layout of dq and qz (05 R108): elements per lane, width, group length. -/
def quantLayout (func : BitVec 4) : Nat × Nat × Nat :=
  match func.toNat / 4 with | 0 => (4, 8, 32) | 1 => (4, 8, 64) | 2 => (4, 8, 128) | _ => (8, 4, 32)

/-- The scale and zero point of an element (04 R97), read across lanes, so that a lane outside m0 reads as zero (05 R102). -/
def Ctx.quantParams (c : Ctx) (f : FormB) (e : Nat) : Nat × Nat :=
  let (_, w, G) := quantLayout f.func
  let sel := f.func.toNat % 4
  let b := e / G
  let at_ := fun o => crossLane c.f.mask (c.g.lane o)
  (at_ f.b (32 * sel + b / 2) / 2 ^ (16 * (b % 2)) % 2 ^ 16,
   at_ f.c (32 * sel + b / 4) / 2 ^ (8 * (b % 4)) % 2 ^ w)

/-- The lanes of the scale register (`per` 2) or of the zero-point register (`per` 4) that hold parameters of the elements in given lanes (04 R97); a lane's elements lie in one group. -/
def quantLanes (f : FormB) (m : Mask) (per : Nat) : Mask :=
  let (p, _, G) := quantLayout f.func
  (lanesOf m).foldl (fun a j => a ||| BitVec.ofNat 128 (2 ^ (32 * (f.func.toNat % 4) + p * j / G / per))) 0

/-- Dequantisation to FP16 (04 R98). -/
def dequant (sc z q : Nat) : Nat := roundRne fmt16 (XR.mul (fmt16.value sc) (xrInt ((q : Int) - z)))

/-- Quantisation of an FP16 value (04 R99). -/
def quant (w sc z x : Nat) : Nat :=
  let top := 2 ^ w - 1
  match fmt16.value x, fmt16.value sc with
  | .nan, _ => z
  | _, .nan => z
  | _, .inf _ => z
  | .inf s, .fin t m _ => if m = 0 then (if s then 0 else top) else if s = t then top else 0
  | .fin s n d, .fin t m e =>
    if m = 0 then (if n = 0 then z else if s then 0 else top)
    else (max 0 (min (roundInt .rne 0 (s != t) (n * e) (d * m) + (z : Int)) (top : Int))).toNat

/-- The first poisoned word of the parameters that an instruction reads: a scale, then a zero point (17 R369). -/
def Ctx.quantBad (c : Ctx) (f : FormB) (m : Mask) : Option (Bool × Nat) :=
  (c.g.poisoned (quantLanes f m 2 &&& c.f.mask) (usedRegs [(1, f.b)])).or
    (c.g.poisoned (quantLanes f m 4 &&& c.f.mask) (usedRegs [(1, f.c)]))

/-- The result of an instruction whose parameters are read across lanes; a poisoned one raises POISON. -/
def quantPoison (c : Ctx) (f : FormB) (m : Mask) (k : Group) : Except Trap Group :=
  match c.quantBad f m with
  | some r => .error { kind := 0, code := .poison, pc := c.f.pc, info := poisonInfo r }
  | none => .ok k

/-- CVT (05 R128): FP32 to a type. -/
def execCvt (f : FormA) (s : State) : Out :=
  aluSr s f (tyRegs f.ty) [(1, f.a)] fun g r j => convTo f.ty f.rnd f.sat r (g.srcA f 1 j)

/-- CVTI (05 R128): a type to FP32. -/
def execCvti (f : FormA) (s : State) : Out :=
  aluSr s f 1 [(tyRegs f.ty, f.a)] fun g r j => convFrom f.ty f.rnd f.sat r (g.srcA f (tyRegs f.ty) j)

/-- PACK (05 R129). -/
def execPack (f : FormA) (s : State) : Out :=
  aluSr s f 1 [(1, f.a), (1, f.b)] fun g r j => packWord f.ty f.rnd f.sat r (g.srcA f 1 j) (g.srcB f 1 j)

/-- UNPACK (05 R130). -/
def execUnpack (f : FormA) (s : State) : Out := aluA1 s f 2 1 (unpackPair f.ty)

/-- UNPACK_ELEMENT (05 R130). -/
def execUnpackElement (f : FormC) (s : State) : Out :=
  aluC1 s f fun a => unpackOne (unpackTy f.func.toNat) a (f.imm.toNat % 8)

/-- DQ (05 R131): element i of a lane goes to half i mod 2 of register i / 2. The scale and zero-point registers are read in other lanes, so their poison is tested where they are read. -/
def execDq (f : FormB) (s : State) : Out :=
  let p := (quantLayout f.func).1
  let w := (quantLayout f.func).2.1
  alu s f.g [(p / 2, f.dst), (1, f.b), (1, f.c)] [(1, f.a)] false fun c m =>
    let val := fun (j : Nat) =>
      ((List.range p).map fun i =>
        let (sc, z) := c.quantParams f (p * j + i)
        dequant sc z (c.g.lane f.a j / 2 ^ (w * i) % 2 ^ w) * 2 ^ (16 * i)).sum
    quantPoison c f m (c.g.writes (destWrites m (p / 2) f.dst val))

/-- QZ (05 R131). -/
def execQz (f : FormB) (s : State) : Out :=
  let p := (quantLayout f.func).1
  let w := (quantLayout f.func).2.1
  alu s f.g [(1, f.dst), (1, f.b), (1, f.c)] [(p / 2, f.a)] false fun c m =>
    let val := fun (j : Nat) =>
      ((List.range p).map fun i =>
        let (sc, z) := c.quantParams f (p * j + i)
        quant w sc z (c.g.wide (p / 2) f.a j / 2 ^ (16 * i) % 2 ^ 16) * 2 ^ (w * i)).sum
    quantPoison c f m (c.g.writes (destWrites m 1 f.dst val))

/-- SRSEED (05 R132). -/
def execSrseed (f : FormA) (s : State) : Out :=
  alu s f.g [] [(1, f.a)] false fun c _ =>
    .ok (c.g.putFrag c.fid { c.f with rnd := nonzeroState (c.g.srcA f 1 0) })

/-- SRSEED_IMM: the immediate zero-extended (05 R107). -/
def execSrseedImm (f : FormC) (s : State) : Out :=
  alu s f.g [] [] false fun c _ => .ok (c.g.putFrag c.fid { c.f with rnd := nonzeroState f.imm.toNat })

/-- SRREAD (05 R132). -/
def execSrread (f : FormA) (s : State) : Out :=
  alu s f.g [(1, f.dst)] [] false fun c m => .ok (c.g.writes (destWrites m 1 f.dst fun _ => c.f.rnd.toNat))

end Sys2Proof.Machine
end

