-- ==== Sys2Proof/Machine/Gates.lean ====
section
/-! DEFINITION. Gates between tenants (chapter 14): the gate instructions of opcodes 0xE8 to 0xEC, the gate servers (R313 to R328), the host's gate commands (R315, R329) and the rate bucket (R317). -/

namespace Sys2Proof.Machine
open Sys2Proof

/-! ### Firing greenware (16 R342) -/

/-- The bytes of a layer that stand in the end (16 R342): of its stores, in the order in which they lie over one another, each with the bytes that no later one of its layer covers. -/
def standing : List Handed → List Handed
  | [] => []
  | h :: later =>
    let hidden := (later.filter fun x => decide (x.line = h.line ∧ x.layer = h.layer)).foldl (fun m x => m ||| x.mask) 0
    if h.mask &&& ~~~hidden = 0 then standing later else { h with mask := h.mask &&& ~~~hidden } :: standing later

/-- Greenware is fired (16 R342): the lines of its layers are handed to the open round of their partition as one unit, each byte under the identifier of the core that issued the store that stands there; what waits in a bounce buffer for its page is an open write from then on (13 R311). The layers' own rounds stay for the block's later segments. -/
def State.fire (s : State) (which : Handed → Bool) : State :=
  let fired := s.green.filter which
  (standing (sortLayer fired)).foldl (fun s h => s.hand { h with layer := none, fired := true })
    { s with
      green := s.green.filter fun h => !which h,
      past := s.past ++ fired,
      bounce := s.bounce.map fun b => if b.priv.any which then { b with priv := none } else b }

/-- The lines of stores enter the escaped list of their segments (16 R351). -/
def State.escape (s : State) (k : Nat) (lines : List (Nat × Nat)) : State :=
  { s with checks := lines.foldl (fun cs x =>
      cs.upd (checkKey k x.1) fun ch => { ch with
        escaped := if ch.escaped.contains x.2 then ch.escaped else ch.escaped ++ [x.2] }) s.checks }

/-- Whether a context is a primary whose greenware is held (16 R339, R342). -/
def Ctx.holds (c : Ctx) : Bool := c.b.run == 1 && c.layer.isSome

/-- The context with its stores published openly. -/
def Ctx.openly (c : Ctx) : Ctx := if c.holds then { c with l := { c.l with hdr := { c.l.hdr with early := true } } } else c

/-- What gsig of a primary under HOLD does at its publish (14 R332): the block's greenware issued before it fires, with what its groups have handed to the round still open, and every line that leaves, those of its windows among them, is noted as escaped. -/
def State.fireForSignal (s : State) (c : Ctx) : State :=
  match c.b.check with
  | none => s
  | some k =>
    let mine := fun (h : Handed) => decide (h.layer = c.layer)
    let own := (s.buffer.filter fun b => (s.publishers c).contains b.group).map fun b => (c.seg, b.line)
    let held := (s.green.filter mine).map fun h => (h.seg, h.line)
    let open_ := (s.handed.filter mine).map fun h => (h.seg, h.line)
    let s1 := s.escape k (held ++ open_ ++ own ++ (s.pendingLines c).map fun x => (c.seg, x))
    let s2 := s1.fire mine
    { s2 with handed := s2.handed.map fun h => if mine h then { h with layer := none, fired := true } else h }

/-- Whether fired stores of a context's block stand in a round that is open: its gsig waits for them (14 R332). -/
def State.firing (s : State) (c : Ctx) : Bool :=
  s.handed.any fun h => h.fired && (match s.groups.get h.group with | some g => g.block == c.g.block | none => false)

/-! ### The gate table (14 R314) -/

/-- The access-list entry i. -/
def aclByte (acl : BitVec 64) (i : Nat) : Nat := bitsAt acl.toNat (8 * i) 8

/-- The partitions a gate lists: those of its valid entries, and its owner (14 R316). -/
def Gate.listed (g : Gate) : List Nat :=
  g.owner :: ((List.range 8).filter fun i => bitAt (aclByte g.acl i) 7).map fun i => aclByte g.acl i % 16

/-- The rights of a partition (14 R316): signal, wait, read payload. -/
def Gate.rights (g : Gate) (part : Nat) : Bool × Bool × Bool :=
  if g.owner = part then (true, true, true)
  else
    match (List.range 8).find? fun i => bitAt (aclByte g.acl i) 7 && decide (aclByte g.acl i % 16 = part) with
    | none => (false, false, false)
    | some i => (bitAt (aclByte g.acl i) 4, bitAt (aclByte g.acl i) 5, bitAt (aclByte g.acl i) 6)

/-- Whether an access list may stand in an entry (14 R314): no two valid bytes name one partition, none names the owner. -/
def aclOk (acl : BitVec 64) (owner : Nat) : Bool :=
  let ps := ((List.range 8).filter fun i => bitAt (aclByte acl i) 7).map fun i => aclByte acl i % 16
  decide (ps.eraseDups.length = ps.length) && !ps.contains owner

/-- The gate of an image (14 R314); none where it is refused. The flags are the server's own. -/
def gateOf (image : BitVec 1024) : Option Gate :=
  let w := image.toNat
  let rate := bitsAt w 48 16
  let depth := bitsAt w 40 8
  let owner := bitsAt w 8 4
  let acl := BitVec.ofNat 64 (bitsAt w 64 64)
  if bitsAt w 768 256 ≠ 0 ∨ bitsAt w 320 16 ≠ 0 ∨ bitsAt w 32 8 ≠ 0 ∨ bitsAt w 18 14 ≠ 0 ∨ bitsAt w 12 4 ≠ 0
    ∨ bitsAt w 0 8 ≠ 0 ∨ (rate ≠ 0 ∧ depth = 0) ∨ aclOk acl owner = false then none
  else some { payload := BitVec.ofNat 384 (bitsAt w 384 384), deferred := bitsAt w 352 32, level := bitsAt w 336 16,
              stamp := bitsAt w 256 64, seq := bitsAt w 192 64, value := bitsAt w 128 64, acl := acl, rate := rate,
              depth := depth, frozen := false, owner := owner, queue := [] }

/-- The entry's 128 bytes (14 R314). -/
def Gate.bytes (g : Gate) : List Byte :=
  toBytes 1 0 ++ toBytes 1 g.owner ++ toBytes 2 (if g.frozen then 3 else 1) ++ toBytes 1 0 ++ toBytes 1 g.depth
    ++ toBytes 2 g.rate ++ toBytes 8 g.acl.toNat ++ toBytes 8 g.value ++ toBytes 8 g.seq ++ toBytes 8 g.stamp
    ++ toBytes 2 0 ++ toBytes 2 g.level ++ toBytes 4 g.deferred ++ toBytes 48 g.payload.toNat ++ toBytes 32 0

/-- Whether a value has passed a target (14 R323). -/
def passed (v t : Nat) : Bool := decide ((v + 2 ^ 64 - t % 2 ^ 64) % 2 ^ 64 < 2 ^ 63)

/-! ### Launches that wait on a gate (07 R181, 14 R323) -/

/-- A launch's gate prerequisites tested against the gates as they stand: one that holds raises the import mark that its groups start with; a gate that denies the partition ends the launch. -/
def State.testLaunch (s : State) (id : Nat) : State :=
  match s.launches.get id with
  | none => s
  | some l =>
    let mine := fun (p : Prereq) => p.kind == 2 && !p.held
    if l.ended.isSome || !l.hdr.prereqs.any mine then s
    else
      let gate := fun (p : Prereq) => (s.gates.get p.ident).bind fun (g : Gate) => if (g.rights l.part).2.1 then some g else none
      if l.hdr.prereqs.any fun p => mine p && (gate p).isNone then s.endLaunch id 0x05 (codeNum .gateDenied)
      else
        let holds := fun (p : Prereq) => mine p && (match gate p with | some g => !g.frozen && passed g.value p.value | none => false)
        let stamp := l.hdr.prereqs.foldl (fun m p => if holds p then max m ((gate p).elim 0 (·.stamp)) else m) l.mark
        let ps := l.hdr.prereqs.map fun p => if holds p then { p with held := true } else p
        s.updLaunch id fun l => { l with mark := stamp, hdr := { l.hdr with prereqs := ps } }

/-- Every launch that waits on a gate is tested again. -/
def State.testGates (s : State) : State := s.launches.keys.foldl State.testLaunch s

/-! ### The server -/

/-- The state with a gate's entry changed. -/
def State.putGate (s : State) (id : Nat) (g : Gate) : State := { s with gates := s.gates.put id g }

/-- The operand digest of a gate operation (14 R331, 16 R349): the gate as its address, with the operand of gsig, gwait and gtry and the payload of gxch.wr and gxch.sw. -/
def GateOp.digest (o : GateOp) : Nat :=
  let words := if o.op = 0xE8 ∨ o.op = 0xE9 ∨ o.op = 0xEA then (toWords 2 o.operand).map (·.toNat)
    else if o.op = 0xEB ∧ bitAt o.func 1 then (toWords 12 o.payload.toNat).map (·.toNat) else []
  opDigest o.op [(0, o.gate, words)]

/-- An operation's outcome reaches its fragment and leaves the server. Where an abort has ended the fragment meanwhile, a result waits in the log for the restart (07 R200). -/
def State.answerGate (s : State) (id : Nat) (o : GateOp) (p : Pend) : State :=
  let s1 : State := { s with gateOps := s.gateOps.del id }
  match s.groups.get o.group with
  | none => s1
  | some g =>
    if g.waits o.frag (.gate id) then s1.answer o.group o.frag (.gate id) p
    else
      match p with
      | .done op d => s1.putGroup o.group { g with replay := g.replay ++ [s.gateEntry o.part op d] }
      | .none | .round _ | .handed _ _ | .published _ | .left _ | .sleep | .deq _ | .svc _ | .gate _ | .join _ _ | .bar _ | .denied _ => s1

/-- GATE_DENIED (14 R316, R321). -/
def State.denyGate (s : State) (id : Nat) (o : GateOp) : State := s.answerGate id o (.denied o.gate)

/-- What a server answers: the result block (14 R319), eight words and twelve of the payload before the operation; whether an import follows, the stamp it raises the mark to, and the operands' digest. -/
def gateResult (g : Gate) (o : GateOp) (status : Nat) (before : BitVec 384) (imports : Bool) : List Nat :=
  let (sg, wt, rd) := g.rights o.part
  let bit := fun (b : Bool) (n : Nat) => if b then n else 0
  [status, bit g.frozen 1 + bit sg 2 + bit wt 4 + bit rd 8, g.value % 2 ^ 32, g.value / 2 ^ 32, g.seq % 2 ^ 32,
    g.seq / 2 ^ 32, g.level % 2 ^ 16 + g.depth * 2 ^ 16, g.deferred]
  ++ (toWords 12 before.toNat).map (·.toNat) ++ [bit imports 1, g.stamp, o.digest]

/-- An operation completes with the gate as it stands now. -/
def State.finishGate (s : State) (id : Nat) (o : GateOp) (status : Nat) (before : BitVec 384) (imports : Bool) : State :=
  match s.gates.get o.gate with
  | none => s
  | some g => s.answerGate id o (.done o.op (gateResult g o status before imports))

/-- The versions of the signalling partition that the listed partitions share take the signal's stamp where they have none yet (09 R243). -/
def State.stampVersions (s : State) (part stamp : Nat) (listed : List Nat) : State :=
  { s with versions := s.versions.map fun v =>
      if v.part = some part then
        { v with stamps := listed.foldl (fun t q =>
            if q ≠ part ∧ v.share.getLsbD q ∧ (t.get q).isNone then t.put q stamp else t) v.stamps }
      else v }

/-- The waiters whose test holds after a signal are served at it (14 R323). -/
def State.serveWaiters (s : State) (gate : Nat) : State :=
  match s.gates.get gate with
  | none => s
  | some g =>
    (s.gateOps.filter fun _ o => decide (o.gate = gate ∧ o.op = 0xE9) && o.seen && passed g.value o.operand).rows.foldl
      (fun s r => s.finishGate r.1 r.2 0 0 true) s

/-- A signal is performed (14 R322): token, value, sequence, stamp. -/
def State.signal (s : State) (gate part addend : Nat) : State :=
  match s.gates.get gate with
  | none => s
  | some g =>
    let stamp := s.gateStamp + 1
    let g1 := { g with level := if g.rate = 0 then g.level else g.level - 1, value := (g.value + addend) % 2 ^ 64,
                       seq := (g.seq + 1) % 2 ^ 64, stamp := stamp }
    { s.putGate gate g1 with gateStamp := stamp }.stampVersions part stamp g1.listed

/-- Queued signals are performed in order while the bucket has tokens (14 R328), and after each the launches that wait on a gate are tested (07 R181, 14 R323). -/
def State.drainGate (s : State) (gate : Nat) : Nat → State
  | 0 => s
  | fuel + 1 =>
    match s.gates.get gate with
    | none => s
    | some g =>
      match g.queue with
      | [] => s
      | q :: rest =>
        if g.frozen || (decide (g.rate ≠ 0) && decide (g.level = 0)) then s
        else (((s.putGate gate { g with queue := rest }).signal gate q.part q.addend).serveWaiters gate).testGates.drainGate gate fuel

/-- Whether an operation has the right it needs (14 R318). -/
def Gate.allows (g : Gate) (o : GateOp) : Bool :=
  let (sg, wt, rd) := g.rights o.part
  match o.op with
  | 0xE8 => sg
  | 0xE9 => wt
  | 0xEA => wt
  | 0xEB => (!bitAt o.func 0 || rd) && (!bitAt o.func 1 || sg)
  | _ => sg || wt || rd

/-- Whether a fragment that waits on an operation may wait at the server: not while its block is being quiesced or is held, nor once it has been saved or aborted. -/
def State.mayWait (s : State) (id : Nat) (o : GateOp) : Bool :=
  match s.groups.get o.group with
  | none => false
  | some g =>
    (match g.frags.get o.frag with | some f => decide (f.pend = .gate id) | none => false)
      && (match s.blocks.get g.block with | some b => b.quiesce.isNone && b.hold.isNone | none => false)

/-- An operation waits at its server; one whose fragment may not wait ends without effect, to be issued again (07 R177, 14 R330). -/
def State.holdGate (s : State) (id : Nat) (o : GateOp) : State :=
  if s.mayWait id o then { s with gateOps := s.gateOps.put id { o with seen := true } }
  else ({ s with gateOps := s.gateOps.del id } : State).answer o.group o.frag (.gate id) .none

/-- A gate server performs one operation at its point of the gate's order (14 R322 to R328). An operation that waits is kept, and tried again when the gate changes; where the gate is exported, gwait and gxch wait on, and gsig, whose queue is gone, meets a gate that is not there. New operations stand behind the queued signals of a gate that has thawed. -/
def State.performGate (s : State) (id : Nat) : State :=
  match s.gateOps.get id with
  | none => s
  | some o =>
    match s.gates.get o.gate with
    | none => if o.seen && o.op != 0xE8 then s else s.denyGate id o
    | some g =>
      if !g.allows o then s.denyGate id o
      else if !g.frozen && !g.queue.isEmpty then s
      else
        match o.op with
        | 0xE8 =>
          if g.frozen then
            if 256 ≤ g.queue.length ∨ 16 ≤ (g.queue.filter fun q => decide (q.group = o.group)).length then s.holdGate id o
            else
              (s.putGate o.gate { g with queue := g.queue ++ [{ addend := o.operand, group := o.group, part := o.part }] }).finishGate
                id o 4 0 false
          else if g.rate ≠ 0 ∧ g.level = 0 then
            (s.putGate o.gate { g with deferred := min (g.deferred + 1) 0xFFFFFFFF }).finishGate id o 1 0 false
          else (((s.signal o.gate o.part o.operand).finishGate id o 0 0 false).serveWaiters o.gate).testGates
        | 0xE9 => if g.frozen || !passed g.value o.operand then s.holdGate id o else s.finishGate id o 0 0 true
        | 0xEA =>
          if g.frozen then s.finishGate id o 3 0 false
          else if passed g.value o.operand then s.finishGate id o 0 0 true
          else s.finishGate id o 2 0 false
        | 0xEB =>
          if g.frozen then s.holdGate id o
          else
            (if bitAt o.func 1 then s.putGate o.gate { g with payload := o.payload } else s).finishGate id o 0 g.payload false
        | _ => s.finishGate id o (if g.frozen then 3 else 0) 0 false

/-- The operations that wait at a gate are tried again, in the order of their arrival. -/
def State.retryGate (s : State) (gate : Nat) : State :=
  (s.gateOps.filter fun _ o => decide (o.gate = gate) && o.seen).keys.foldl State.performGate s

/-- The queued signals, then the operations that waited behind them (14 R328). -/
def State.thawGate (s : State) (gate : Nat) : State :=
  match s.gates.get gate with
  | none => s
  | some g =>
    let s1 := s.drainGate gate (g.queue.length + 1)
    match s1.gates.get gate with
    | some g1 => if g1.queue.isEmpty then s1.retryGate gate else s1
    | none => s1

/-! ### The instructions -/

/-- The registers a gate instruction reads of its operand block (14 R319). -/
def gateReads (y : Nat) (pair payload : Bool) : List (Nat × Opnd) :=
  let k := fun (i : Nat) => Opnd.k (BitVec.ofNat 10 (y + i))
  [(1, k 0)] ++ (if pair then [(2, k 2)] else []) ++ (if payload then [(12, k 4)] else [])

/-- The result of a gate operation is written, and for a successful gwait or gtry the import mark raised and the snap taken, at the number that the result's entry holds (14 R323, R331). -/
def Ctx.gateWrites (c : Ctx) (s : State) (x nx : Nat) (d : List Nat) : State :=
  let s1 := s.writeRegs c.uid (sclWrites x ((d.take nx).map toWord))
  if d.getD 20 0 = 1 then (s1.updGroup c.uid fun g => { g with mark := max g.mark (d.getD 21 0) }).snapTo c.uid (d.getD 22 0)
  else s1

/-- Whether a restarted group has the outcome of the gate instruction it stands at in its log (14 R331). -/
def Ctx.gateLogged (c : Ctx) (op : Nat) : Bool :=
  !c.repeats && (c.loggedTrap.isSome || c.g.replay.head?.any fun e => decide (e.kind = .result ∧ e.op = op))

/-- The operation that a gate instruction sends, with its identifier and operand as they were read. -/
def Ctx.gateOp (c : Ctx) (f : FormG) (op gate operand : Nat) : GateOp :=
  { gate := gate, group := c.uid, frag := c.fid, part := c.l.part, ident := c.ident, op := op, func := f.func.toNat,
    operand := operand, payload := BitVec.ofNat 384 (fromWords (c.g.scalars (opndIdx f.y + 4) 12)), seen := false }

/-- An operation that left before an abort and whose outcome is still to come: the restart that issues it again takes it up (07 R200). -/
def State.pendingGate (s : State) (c : Ctx) (o : GateOp) : Option Nat :=
  ((s.gateOps.filter fun k x => decide (x.group = o.group ∧ x.op = o.op ∧ x.gate = o.gate ∧ x.func = o.func ∧ x.operand = o.operand)
    && !c.g.waits x.frag (.gate k)).keys).head?

/-- A gate operation, once its publish is made where it makes one: from the log in a repeat run or a restart (14 R331), else sent to its server (R318). -/
def Ctx.gateSend (c : Ctx) (s : State) (o : GateOp) (x nx : Nat) : Act :=
  match c.loggedTrap with
  | some t => .placed (c.trapIn (if c.repeats then s else s.updGroup c.uid fun g => { g with replay := g.replay.drop 1 }) t)
  | none =>
    match s.consult c .result o.op o.digest with
    | .diverged t => .placed t
    | .replay d t => .done (c.gateWrites t x nx d)
    | .perform =>
      match s.pendingGate c o with
      | some k => .wait 11 { s.updFrag c.uid c.fid (fun z => { z with pend := .gate k }) with gateOps := s.gateOps.upd k fun x => { x with frag := c.fid } }
      | none =>
        .wait 11 { s.updFrag c.uid c.fid (fun z => { z with pend := .gate s.uid }) with
          gateOps := s.gateOps.put s.uid o, uid := s.uid + 1 }

/-- A gsig's publish and what follows it (14 R322): its identifier and operand are those read before. Under HOLD the block's greenware fires with it, and it waits for the round that this goes in (R332). A restarted gsig whose result is in the log hands its stores over and does not wait (R331). -/
def Ctx.gateSignal (c : Ctx) (s : State) (o : GateOp) (x nx : Nat) : Act :=
  let wait := fun (n : Nat) => Pend.handed n [o.gate, o.operand]
  let send := fun (t : State) => ({ c with g := t.groups.getD c.uid c.g } : Ctx).gateSend t o x nx
  match c.f.pend with
  | .handed _ _ => c.openly.afterPublish s send wait
  | _ =>
    let r := if c.holds && decide (c.g.counter 1 = 0) then s.fireForSignal c else s
    if c.gateLogged o.op then
      match r.handOver c.openly with
      | .wait n t => .wait n t
      | .round _ t | .clear t => send t
    else c.openly.afterPublish r send wait (r.firing c)

/-- The shape of the gate instructions (14 R318, R321): blocks allocated, the identifier in range, then the wait for the server's outcome. `pubs` is gsig's publish. -/
def gateInstr (s : State) (f : FormG) (op nx ny : Nat) (pair payload pubs : Bool) : Out :=
  let x := opndIdx f.x
  let y := opndIdx f.y
  sysFull s f.g (fun _ => false) (fun _ => false) [(nx, f.x), (ny, f.y)] (gateReads y pair payload) fun c _ =>
    match c.f.pend with
    | .gate _ => .wait 11 s
    | .denied g => .trap (faultAt .gateDenied c.f.pc g)
    | .done _ d =>
      let e := s.gateEntry c.l.part op d
      .done (c.gateWrites (s.updGroup c.uid fun g => g.logs e) x nx e.data)
    | .handed _ d => c.gateSignal s (c.gateOp f op (d.getD 0 0) (d.getD 1 0)) x nx
    | _ =>
      let o := c.gateOp f op (c.g.sreg y).toNat (c.g.pair (y + 2))
      if 4096 ≤ o.gate then .trap (faultAt .badHandle c.f.pc o.gate)
      else if pubs then c.gateSignal s o x nx
      else c.gateSend s o x nx

/-- GSIG (14 R322). -/
def execGsig (f : FormG) (s : State) : Out := gateInstr s f 0xE8 8 4 true false true

/-- GWAIT (14 R323). -/
def execGwait (f : FormG) (s : State) : Out := gateInstr s f 0xE9 8 4 true false false

/-- GTRY (14 R323). -/
def execGtry (f : FormG) (s : State) : Out := gateInstr s f 0xEA 8 4 true false false

/-- GXCH (14 R324). -/
def execGxch (f : FormG) (s : State) : Out :=
  let wr := f.func.getLsbD 1
  gateInstr s f 0xEB (if f.func.getLsbD 0 then 20 else 8) (if wr then 16 else 4) false wr false

/-- GSTAT (14 R325). -/
def execGstat (f : FormG) (s : State) : Out := gateInstr s f 0xEC 8 4 false false false

/-! ### Steps of the servers and the host -/

/-- A command whose condition fails (14 R315). -/
def State.refuse (s : State) : State := { s with sent := s.sent ++ [Sent.refused] }

/-- GATE_SERVER_PERFORM (14 R326). -/
def execGateServerPerform (op : Nat) (s : State) : Out := .next (s.performGate op).testGates

/-- CREATE (14 R315). -/
def execGateCreate (gate : Nat) (image : BitVec 1024) (s : State) : Out :=
  .next (if 4096 ≤ gate ∨ (s.gates.get gate).isSome then s.refuse
    else match gateOf image with
      | none => s.refuse
      | some g => s.putGate gate { g with level := g.depth, stamp := 0, deferred := 0 })

/-- SETACL (14 R315): the waiting gwait operations are checked again (R323). -/
def execGateSetAcl (gate : Nat) (list : BitVec 64) (s : State) : Out :=
  .next (match s.gates.get gate with
    | none => s.refuse
    | some g =>
      if !aclOk list g.owner then s.refuse
      else
        let g1 := { g with acl := list }
        ((s.gateOps.filter fun _ o => decide (o.gate = gate ∧ o.op = 0xE9) && o.seen && !g1.allows o).rows.foldl
          (fun (s : State) r => s.denyGate r.1 r.2) (s.putGate gate g1)).testGates)

/-- SETRATE (14 R315). -/
def execGateSetRate (gate rate depth : Nat) (s : State) : Out :=
  .next (match s.gates.get gate with
    | none => s.refuse
    | some g =>
      if 2 ^ 16 ≤ rate ∨ 256 ≤ depth ∨ (rate ≠ 0 ∧ depth = 0) then s.refuse
      else (s.putGate gate { g with rate := rate, depth := depth, level := min g.level depth }).thawGate gate)

/-- DESTROY (14 R315): the operations that wait take GATE_DENIED. -/
def execGateDestroy (gate : Nat) (s : State) : Out :=
  .next (match s.gates.get gate with
    | none => s.refuse
    | some g =>
      if g.frozen then s.refuse
      else
        ((s.gateOps.filter fun _ o => decide (o.gate = gate) && o.seen).rows.foldl (fun (s : State) r => s.denyGate r.1 r.2)
          { s with gates := s.gates.del gate }).testGates)

/-- FREEZE (14 R315, R328). -/
def execGateFreeze (gate : Nat) (s : State) : Out :=
  .next (match s.gates.get gate with
    | none => s.refuse
    | some g => if g.frozen then s.refuse else s.putGate gate { g with frozen := true })

/-- The parties of a gate, its owner and those it lists, that no block on cores is of: where the gate is exported they migrate with it (22 R438 steps 2 to 4). -/
def State.migrants (s : State) (g : Gate) : List Nat :=
  g.listed.eraseDups.filter fun p => !s.blocks.rows.any fun r =>
    r.2.onCores && (match s.launches.get r.2.launch with | some l => l.part == p | none => false)

/-- EXPORT (14 R315, R329): the record without its stamp, then the queued signals, addend and partition of each. The gsig that wait for room in the queue are performed again (R328). -/
def execGateExport (gate : Nat) (s : State) : Out :=
  .next (match s.gates.get gate with
    | none => s.refuse
    | some g =>
      if !g.frozen then s.refuse
      else
        let s1 : State := { s with
          gates := s.gates.del gate,
          sent := s.sent ++ [Sent.bytes false ({ g with stamp := 0 } : Gate).bytes,
            Sent.reply (g.queue.flatMap fun q => [q.addend, q.part])] }
        let s2 := (s.migrants g).foldl (fun (s : State) p => s.updPart p fun q => { q with moved := true }) s1
        (s.gateOps.filter fun _ o => decide (o.gate = gate ∧ o.op = 0xE8) && o.seen).keys.foldl State.performGate s2)

/-- The result of a gate operation without the import mark that it carries. -/
def unmarked (d : List Nat) : List Nat := if d.length ≤ 21 then d else d.set 21 0

/-- A fragment whose outcome, if one has come, carries no import mark. -/
def Frag.unmarked (f : Frag) : Frag :=
  match f.pend with
  | .done op d => { f with pend := .done op (Sys2Proof.Machine.unmarked d) }
  | _ => f

/-- A group of a migrated block (14 R329): import mark 0, at its restart point too, and in every result that it is still to take. -/
def Group.arrived (g : Group) : Group :=
  { g with
    mark := 0,
    restart := g.restart.map fun e => { e with mark := 0 },
    replay := g.replay.map fun e => if e.markOf.isSome then { e with data := unmarked e.data } else e,
    frags := g.frags.map fun _ f => f.unmarked,
    saved := g.saved.map fun v => { v with frags := v.frags.map fun _ f => f.unmarked } }

/-- A partition arrives by migration (14 R329): its versions that had received a stamp, and those of others that had received one for it, have stamp 0; its launches and the groups of its blocks, which resume from now on, have import mark 0. -/
def State.arrive (s : State) (part : Nat) : State :=
  let mine := fun (b : Block) => match s.launches.get b.launch with | some l => l.part == part | none => false
  { (s.updPart part fun q => { q with moved := false }) with
    versions := s.versions.map fun v =>
      if v.part = some part then { v with stamps := v.stamps.map fun _ _ => 0 }
      else if (v.stamps.get part).isSome then { v with stamps := v.stamps.put part 0 } else v,
    launches := s.launches.map fun _ l => if l.part = part then { l with mark := 0 } else l,
    groups := s.groups.map fun _ (g : Group) =>
      match s.blocks.get g.block with
      | some b => if mine b && !b.onCores then g.arrived else g
      | none => g }

/-- IMPORT (14 R315, R329). With the gate the parties arrive that an EXPORT has sent away and that have not arrived since: on one device the host has no other step by which a migrated partition leaves or arrives (DEDUCED, log 67). -/
def execGateImport (gate : Nat) (image : BitVec 1024) (queued : List (Nat × Nat)) (s : State) : Out :=
  .next (if 4096 ≤ gate ∨ (s.gates.get gate).isSome ∨ 256 < queued.length then s.refuse
    else match gateOf image with
      | none => s.refuse
      | some g =>
        ((g.listed.eraseDups.filter fun p => (s.part p).moved).foldl State.arrive s).putGate gate { g with
          stamp := 0, frozen := true,
          queue := queued.map fun q => { addend := q.1 % 2 ^ 64, group := 0, part := q.2 % 16 } })

/-- THAW (14 R315, R328). -/
def execGateThaw (gate : Nat) (s : State) : Out :=
  .next (match s.gates.get gate with
    | none => s.refuse
    | some g => if !g.frozen then s.refuse else ((s.putGate gate { g with frozen := false }).thawGate gate).testGates)

/-- DEFERRED_COUNT_CLEAR (14 R314). -/
def execDeferredCountClear (gate : Nat) (s : State) : Out :=
  .next (match s.gates.get gate with
    | none => s.refuse
    | some g => s.putGate gate { g with deferred := 0 })

end Sys2Proof.Machine
end

