-- ==== Sys2Proof/Machine/Place.lean ====
section
/-! DEFINITION. The logical core map (01 R25, R26), placement (07 R185, R186, 01 R14, R27, 06 R141), the admission order (07 R184, 13 R297 to R301, 16 R341), and the start of blocks, tile sets and restarted groups (07 R184, R200). -/

namespace Sys2Proof.Machine
open Sys2Proof

/-! ### Blocks on cores -/

/-- The blocks on a core with their launches. -/
def State.blocksOn (s : State) (core : Nat) : List (Nat × Block × Launch) :=
  s.blocks.rows.filterMap fun r =>
    if r.2.onCores && r.2.cores.contains core then (s.launches.get r.2.launch).map fun l => (r.1, r.2, l) else none

/-! ### The logical core map -/

/-- Whether a core is good and not under test, nor to be (16 R353, R355). -/
def CoreRec.good (r : CoreRec) : Bool := !r.aside && !r.scanFailed && !r.testing

/-- The cores of a package cluster that are in the map, ascending: a core leaves it only after nothing is resident on it (01 R26). -/
def State.clusterCores (s : State) (cl : Nat) : List Nat :=
  ((List.range 4).map fun i => 4 * cl + i).filter fun c => (s.core c).good || !(s.blocksOn c).isEmpty

/-- Whether some block is on a package cluster. -/
def State.clusterBusy (s : State) (cl : Nat) : Bool := (List.range 4).any fun i => !(s.blocksOn (4 * cl + i)).isEmpty

/-- Whether a partition holds a cluster that was lent to it: one under reclaim returns with the last of the partition's blocks on it (13 R303, R304). -/
def State.borrows (s : State) (part cl : Nat) : Bool :=
  let p := s.part part
  p.lent.contains cl && (!p.reclaim.contains cl || (List.range 4).any fun i => (s.blocksOn (4 * cl + i)).any fun x => x.2.2.part == part)

/-- Whether a cluster of a partition's range is lent to another (13 R303). -/
def State.lentAway (s : State) (part cl : Nat) : Bool := s.parts.keys.any fun q => q != part && s.borrows q cl

/-- Whether a package cluster lies in a partition's own range (13 R291). -/
def Part.owns (p : Part) (cl : Nat) : Bool := p.enable && decide (p.base ≤ cl ∧ cl ≤ p.limit)

/-- The package clusters of a partition by logical number: its own with a good core, then those lent to it (01 R25). -/
def State.clusterMap (s : State) (part : Nat) : List Nat :=
  let p := s.part part
  let all := List.range Config.clusters
  let some_ := fun (cl : Nat) => !(s.clusterCores cl).isEmpty
  (all.filter fun cl => p.owns cl && !s.lentAway part cl && some_ cl) ++ (all.filter fun cl => s.borrows part cl && some_ cl)

/-- The partition that holds a cluster: its borrower, or the one whose range it lies in (13 R292). -/
def State.holderOf (s : State) (cl : Nat) : Option Nat :=
  ((s.parts.rows.find? fun r => s.borrows r.1 cl).or (s.parts.rows.find? fun r => r.2.owns cl)).map (·.1)

/-! ### Resources -/

/-- Bytes of core store that k groups of a block and its share on one of n cores take, in units of 128 bytes (01 R17, 07 R185). -/
def Launch.coreBytes (l : Launch) (n k : Nat) : Nat := (k * (l.hdr.vregs * 512 + l.hdr.spill) + l.share n + 127) / 128 * 128

/-- The place, among n cores, of a group of a block: whole groups in ascending runs (01 R14). -/
def Launch.coreOf (l : Launch) (n k : Nat) : Nat := k * n / max l.hdr.groups 1

/-- The groups that the core at a place takes. -/
def Launch.groupsOn (l : Launch) (n i : Nat) : Nat :=
  ((List.range l.hdr.groups).filter fun k => l.coreOf n k == i).length

/-- The groups resident on a core, of a quarter or of all. -/
def State.slotsUsed (s : State) (core : Nat) (quarter : Option Nat) : Nat :=
  (s.groups.filter fun _ g =>
    !g.seq && decide (g.core = core) && decide (g.life ≠ .ended)
      && (match quarter with | some q => g.quarter == q | none => true)
      && (match s.blocks.get g.block with | some b => b.onCores | none => false)).rows.length

/-- The core-store bytes in use on a core. -/
def State.storeUsed (s : State) (core : Nat) : Nat :=
  ((s.blocksOn core).map fun x =>
    let mine := (s.groups.filter fun _ g => !g.seq && decide (g.block = x.1 ∧ g.core = core) && decide (g.life ≠ .ended)).rows.length
    x.2.2.coreBytes x.2.1.cores.length mine).sum

/-- The transaction barriers in use on a core: those of blocks whose share 0 it holds (10 R264). -/
def State.barsUsed (s : State) (core : Nat) : Nat :=
  ((s.blocksOn core).map fun x => if x.2.1.cores.head? = some core then x.2.2.hdr.barriers else 0).sum

/-- Whether the part of a block at place i of n fits a core (07 R185), of one virtual device at a time (13 R297). -/
def State.fits (s : State) (l : Launch) (n i core : Nat) : Bool :=
  let k := l.groupsOn n i
  (s.core core).good && !(s.part l.part).reclaim.contains (core / 4) && ((s.blocksOn core).all fun x => decide (x.2.2.part = l.part ∧ x.2.2.hdr.vdev = l.hdr.vdev))
    && decide (0 < k) && decide (s.slotsUsed core none + k ≤ 96)
    && decide (s.storeUsed core + l.coreBytes n k ≤ 2097152)
    && decide (s.barsUsed core + (if i = 0 then l.hdr.barriers else 0) ≤ 64)

/-- Whether a block would fit n empty cores, each of them holding whole groups of it, one at least (01 R14, DEDUCED, log 33). -/
def Launch.fitsEmpty (l : Launch) (n : Nat) : Bool :=
  (List.range n).all fun i => decide (0 < l.groupsOn n i) && decide (l.coreBytes n (l.groupsOn n i) ≤ 2097152)

/-- Whether some cluster of the partition could hold a block (01 R27, 06 R141, 07 R179). -/
def State.couldFit (s : State) (l : Launch) : Bool :=
  let most := (s.clusterMap l.part).foldl (fun m cl => max m (s.clusterCores cl).length) 0
  if l.hdr.tile ≠ 0 then l.fitsEmpty 1 && decide (0 < most)
  else (List.range most).any fun i => l.fitsEmpty (i + 1)

/-! ### Placement -/

/-- Where a block goes: its physical cores, its logical cluster and logical cores. -/
structure Placed where
  cores : List Nat
  lcluster : Nat
  lcores : List Nat
  deriving DecidableEq, Repr

/-- The choices of n out of a list, in order. -/
def choose {α : Type} : Nat → List α → List (List α)
  | 0, _ => [[]]
  | _ + 1, [] => []
  | n + 1, x :: xs => (choose n xs).map (x :: ·) ++ choose (n + 1) xs

/-- The first set of n cores of a cluster that fits (07 R185). -/
def State.placeN (s : State) (l : Launch) (ok : Nat → Bool) (n : Nat) : Option Placed :=
  (s.clusterMap l.part).zipIdx.findSome? fun x =>
    (choose n (s.clusterCores x.1).zipIdx).findSome? fun cs =>
      if cs.zipIdx.all fun y => ok y.1.1 && s.fits l n y.2 y.1.1 then
        some { cores := cs.map (·.1), lcluster := x.2, lcores := cs.map (·.2) }
      else none

/-- The placement of a block (07 R185): the first core that fits, or for a block too large for one core the first set of fewest cores. -/
def State.place (s : State) (l : Launch) (ok : Nat → Bool) : Option Placed :=
  if l.fitsEmpty 1 then s.placeN l ok 1
  else (s.placeN l ok 2).or ((s.placeN l ok 3).or (s.placeN l ok 4))

/-- Whether a tile set holds its cluster's sequencer: from its formation to its end, but not once it is pre-empted (06 R141, R174), or set back (16 R356). -/
def State.setHolds (s : State) (t : TileSet) : Bool :=
  let bs := t.blocks.filterMap s.blocks.get
  !t.ended && !t.again && (bs.any Block.onCores || !bs.any fun b => decide (b.life = .saved))

/-- The placement of a tile set (06 R141): on the first cluster whose sequencer is free, block i on logical core i; of at most n blocks, or exactly n where the set is formed already. -/
def State.placeSet (s : State) (l : Launch) (ok : Nat → Bool) (n : Nat) (exact : Bool) : Option (Nat × Placed) :=
  (s.clusterMap l.part).zipIdx.findSome? fun x =>
    let cs := s.clusterCores x.1
    let e := min n cs.length
    if (exact && e < n) || s.sets.rows.any (fun r => r.2.cluster == x.1 && s.setHolds r.2) then none
    else if (cs.take e).all fun c => ok c && s.fits l 1 0 c then
      some (x.1, { cores := cs.take e, lcluster := x.2, lcores := List.range e })
    else none

/-- The quarter a group is dealt to (07 R186). -/
def State.quarter (s : State) (core : Nat) : Nat :=
  (List.range 4).foldl (fun q i => if s.slotsUsed core (some i) < s.slotsUsed core (some q) then i else q) 0

/-! ### Work identifiers and checks -/

/-- The work identifier of a block in launch order, field 2 fastest (01 R15, 07 R180). -/
def blockWork (h : Header) (index : Nat) : Nat :=
  ((List.range 4).foldl (fun (a : Nat × Nat) i =>
    let e := max (h.extents.getD i 1) 1
    (a.1 + a.2 % e * 2 ^ (h.widths.take (i + 2)).sum, a.2 / e)) (0, index)).1

/-- The blocks of a launch (07 R180). -/
def Header.blocks (h : Header) : Nat := h.extents.foldl (· * ·) 1

/-- Whether a block is checked (16 R336). -/
def Header.checks (h : Header) (work : Nat) : Bool :=
  let x := mix ((mix work + h.seed.toNat * 2 ^ 32) % 2 ^ 64)
  match h.level with
  | 0 => false
  | 1 => x % 64 == 0
  | 2 => x % 16 == 0
  | 3 => x % 4 == 0
  | _ => true

/-! ### Starting blocks -/

/-- A group placed in a block, its fragments ready from then on (07 R191). -/
def State.addGroup (s : State) (bid : Nat) (g : Group) : State :=
  { s with groups := s.groups.put s.uid { g with block := bid, undef := some s.free, frags := g.frags.map fun _ (f : Frag) => { f with ready := s.tick } },
           blocks := s.blocks.upd bid fun b => if g.seq then b else { b with groups := b.groups ++ [s.uid] },
           uid := s.uid + 1, free := s.free + 1 }

/-- The seed of a group's rounding state (04 R93). -/
def groupSeed (l : Launch) (work k : Nat) : Word := srSeed (workId l.hdr work k 0) l.hdr.seed.toNat

/-- The state in which a group starts (16 R337): the kernel entry. -/
def startPoint (l : Launch) (rnd : Word) (entry : Addr) (mask : Mask) (snap : Nat) : RestartPt :=
  { ks := [], rnd := rnd, mask := mask, pc := entry, blk := noBlock, mark := l.mark, windows := Table.empty, snap := snap }

/-- The fragment of a restart point (07 R200): inside its block, or arriving at the kernel entry or at the fall-through successor of a block whose last word was the rmark. -/
def RestartPt.frag (e : RestartPt) : Frag :=
  let f := { Frag.start e.mask e.pc e.rnd with count := e.count }
  if e.blk.len = 0 ∨ e.pc.toNat = (e.blk.hdr.toNat + 8 * e.blk.len + 8) % 2 ^ 80 then f
  else { f with blk := e.blk, phase := .run, stall := 0 }

/-- Group k of a block starts on a core (07 R184, 09 R231, R243). -/
def State.startGroup (s : State) (bid : Nat) (l : Launch) (work k core : Nat) : State :=
  let snap := (s.part l.part).round
  let e := startPoint l (groupSeed l work k) l.hdr.entry allLanes snap
  s.addGroup bid (Group.start bid k core (s.quarter core) snap l.mark 0 e.frag)

/-- A sequencer starts (06 R143): k0 to k3 zero. -/
def State.startSeq (s : State) (bid : Nat) (l : Launch) (work core : Nat) : State :=
  let snap := (s.part l.part).round
  let e := startPoint l (groupSeed l work 0) l.hdr.tile oneLane snap
  let g := Group.start bid 0 core 0 snap l.mark 0 e.frag
  s.addGroup bid { g with seq := true, sregs := (List.range 4).foldl (fun t i => t.put i 0) Table.empty }

/-- The entry states of a checked block's groups (16 R337). -/
def State.enterGroups (s : State) (key : Nat) (l : Launch) (bid : Nat) : State :=
  (s.groups.filter fun _ g => decide (g.block = bid)).rows.foldl (fun s r =>
    match s.blocks.get bid with
    | none => s
    | some b =>
      let f := (r.2.frags.get 0).getD (Frag.start 0 0 0)
      let c : Ctx := { uid := r.1, fid := 0, g := r.2, f := f, b := b, l := l }
      let e := startPoint l f.rnd (if r.2.seq then l.hdr.tile else l.hdr.entry) f.mask r.2.snap
      { s with checks := s.checks.upd key fun ch => ch.enter c.slot [r.2.core] e }) s

/-- The hold of a block admitted, resumed or restarted while a dump walks its virtual device (21 R425). -/
def State.dumpHold (s : State) (l : Launch) : Option Hold :=
  match (s.part l.part).dumping with
  | some (v, _, _) => if v = l.hdr.vdev then some { cause := 4, bp := 0, code := 0, step := none } else none
  | none => none

/-- A block is admitted (07 R184): resident on its cores, its groups started; held while a dump walks its virtual device (21 R425). -/
def State.admitOne (s : State) (lid : Nat) (l : Launch) (index : Nat) (p : Placed) (check : Option Nat) (set : Option Nat) : State × Nat :=
  let bid := s.uid
  let work := blockWork l.hdr index
  let b := { Block.start lid index work (if check.isSome then 1 else 0) p.cores p.lcluster p.lcores with
             check := check, set := set, hold := s.dumpHold l }
  let s1 : State := { s with blocks := s.blocks.put bid b, uid := s.uid + 1 }
  let s2 := (List.range l.hdr.groups).foldl (fun s k =>
    s.startGroup bid l work k (p.cores.getD (l.coreOf p.cores.length k) 0)) s1
  (s2.noteHeld p.cores (segName l b 0), bid)

/-- The next block of a launch is admitted, with its check where it is checked. -/
def State.admitBlock (s : State) (lid : Nat) (l : Launch) (p : Placed) : State :=
  let index := l.nextBlock
  let checked := l.hdr.checks (blockWork l.hdr index)
  let k := s.uid
  let s0 : State := if checked then { s with uid := s.uid + 1 } else s
  let r := s0.admitOne lid l index p (if checked then some k else none) none
  let s1 := r.1.updLaunch lid fun l => { l with nextBlock := index + 1 }
  if checked then
    ({ s1 with checks := s1.checks.put (checkKey k 0) (Check.start lid index 0 r.2 []) } : State).enterGroups (checkKey k 0) l r.2
  else s1

/-- The next tile set of a launch is admitted (06 R141, R144); the anchor block decides whether it is checked (16 R336). -/
def State.admitSet (s : State) (lid : Nat) (l : Launch) (cluster : Nat) (p : Placed) : State :=
  let index := l.nextBlock
  let checked := l.hdr.checks (blockWork l.hdr index)
  let set := s.uid
  let k := s.uid + 1
  let s0 : State := { s with uid := s.uid + 2 }
  let r := p.cores.zipIdx.foldl (fun (a : State × List Nat) x =>
    let one : Placed := { cores := [x.1], lcluster := p.lcluster, lcores := [x.2] }
    let y := a.1.admitOne lid l (index + x.2) one (if checked then some k else none) (some set)
    (y.1, a.2 ++ [y.2])) (s0, ([] : List Nat))
  let anchor := r.2.headD 0
  let seqr := r.1.uid
  let s1 := (r.1.startSeq anchor l (blockWork l.hdr index) (p.cores.headD 0)).updLaunch lid fun l =>
    { l with nextBlock := index + p.cores.length }
  let s2 : State := { s1 with sets := s1.sets.put set (TileSet.start lid r.2 seqr cluster p.lcluster) }
  if checked then
    r.2.foldl (fun s b => s.enterGroups (checkKey k 0) l b)
      { s2 with checks := s2.checks.put (checkKey k 0) (Check.start lid index 0 anchor p.cores) }
  else s2

/-! ### The admission order -/

/-- The blocks of a virtual device with their launches. -/
def State.blocksOf (s : State) (part vdev : Nat) : List (Nat × Block × Launch) :=
  s.blocks.rows.filterMap fun r =>
    match s.launches.get r.2.launch with
    | some l => if l.part = part ∧ l.hdr.vdev = vdev then some (r.1, r.2, l) else none
    | none => none

/-- The least by a number. -/
def leastBy {α : Type} (key : α → Nat) (xs : List α) : Option α :=
  xs.foldl (fun o x => match o with | none => some x | some y => if key x < key y then some x else some y) none

/-- What the head of a virtual device's admission order is (07 R184, 16 R341). -/
inductive Head where
  | resume (bid : Nat)
  | restart (bid : Nat)
  | run (key kind : Nat)
  | fresh (lid : Nat)
  deriving DecidableEq, Repr

/-- Whether a launch's completion record has been written: it has ended, and no earlier packet of its queue holds its record back (10 R278). -/
def State.recordWritten (s : State) (l : Launch) : Bool :=
  l.recorded && !((s.part l.part).packets.get l.queue).any fun q => (q.ready.get l.slot).isSome

/-- Whether a prerequisite holds (07 R181). -/
def State.prereqHolds (s : State) (part : Nat) (p : Prereq) : Bool :=
  match p.kind with
  | 0 => true
  | 1 => s.launches.rows.any fun r => decide (r.2.part = part ∧ r.2.ident = p.ident) && s.recordWritten r.2
  | 2 => p.held
  | _ => s.blocks.rows.any fun r =>
      (match s.launches.get r.2.launch with
        | some l => decide (l.part = part ∧ l.ident = p.ident) && l.hdr.persistent && !l.recorded
        | none => false)
      && decide (r.2.index = p.value % 2 ^ 32)
      && decide (0 < signed 32 (2 ^ 32 + (r.2.barAt p.barrier).p.toNat - p.value / 2 ^ 32 % 2 ^ 32))

/-- The launch whose block comes next: of the highest priority, then the earliest submitted, passing over those whose prerequisites do not hold (07 R184). A prerequisite on a barrier is tested anew for each block of the launch: 07 R181 does not say that it stays held once it has held (DESIGN CHOICE, log 66). -/
def State.nextLaunch (s : State) (part vdev : Nat) : Option Nat :=
  (leastBy (fun (r : Nat × Launch) => (15 - r.2.hdr.priority) * 2 ^ 64 + r.2.order)
    (s.launches.rows.filter fun r =>
      decide (r.2.part = part ∧ r.2.hdr.vdev = vdev ∧ r.2.nextBlock < r.2.hdr.blocks) && r.2.ended.isNone
        && r.2.hdr.prereqs.all (s.prereqHolds part))).map (·.1)

/-- The pending shadow or keeping run that comes next. -/
def State.nextRun (s : State) (part vdev : Nat) : Option (Nat × Nat) :=
  s.checks.rows.findSome? fun r =>
    match s.launches.get r.2.launch with
    | some l =>
      if l.part = part ∧ l.hdr.vdev = vdev ∧ l.ended.isNone ∧ !r.2.decided then
        (r.2.runs.rows.find? fun x => decide (x.2.life = .pending)).map fun x => (r.1, x.1)
      else none
    | none => none

/-- Whether the unit of a block that has left its cores may come back: after a pre-emption once no block of it is on its cores; an aborted block of a tile set, alone, while its set has not been pre-empted (06 R145). -/
def State.backReady (s : State) (bid : Nat) (life : BlockLife) : Bool :=
  let lives := (s.unit bid).filterMap fun i => (s.blocks.get i).map fun (b : Block) => b.life
  let off := lives.all fun x => match x with
    | .saved | .queued | .waitPage | .ended => true
    | .resident | .quiesced | .closing _ => false
  if life = .saved then off else !lives.any fun x => decide (x = .saved ∨ x = .quiesced)

/-- Whether a partition's version budget is used up, or a fragment of it waits in version pressure, or a fill that its open round or a job needs finds no place (13 R295, 16 R341). -/
def State.pressed (s : State) (part : Nat) : Bool :=
  s.budgetFull part || ((s.part part).roundOpen && (s.closeRound part).isNone) || (s.jobs.rows.any fun r => r.2.part == part && r.2.stuck) || s.groups.rows.any fun r => (r.2.frags.rows.any fun x => x.2.stall == 10) && s.partOf r.1 == some part

/-- The head of a virtual device's admission order. While the version budget has no room, pending runs come ahead of every block (16 R341). -/
def State.head (s : State) (part vdev : Nat) : Option Head :=
  let bs := s.blocksOf part vdev
  let oldestOf := fun (life : BlockLife) =>
    (leastBy (fun (x : Nat × Block × Launch) => x.2.1.order) (bs.filter fun x => decide (x.2.1.life = life) && s.backReady x.1 life)).map (·.1)
  let run := (s.nextRun part vdev).map fun x => Head.run x.1 x.2
  let back := ((oldestOf .saved).map Head.resume).or ((oldestOf .queued).map Head.restart)
  let new := (s.nextLaunch part vdev).map Head.fresh
  if s.pressed part then run.or (back.or new) else back.or (run.or new)

/-- Whether a core keeps a distance from others (16 R340). -/
def apart (distance core : Nat) (others : List Nat) : Bool :=
  others.all fun o =>
    match distance with
    | 0 => core != o
    | 1 => core / 4 != o / 4
    | _ => dieOfCore core != dieOfCore o

/-- Whether every part of a block, or of a set of n blocks, could be placed on empty cores that satisfy a test. -/
def State.holdsPlacement (s : State) (l : Launch) (n : Nat) (ok : Nat → Bool) : Bool :=
  (s.clusterMap l.part).any fun cl =>
    let cs := s.clusterCores cl
    if l.hdr.tile ≠ 0 then decide (n ≤ cs.length) && (cs.take n).all ok
    else (List.range 4).any fun i => l.fitsEmpty (i + 1) && decide (i < (cs.filter ok).length)

/-- The cores that the earlier runs of a check held. -/
def Check.earlierCores (ch : Check) (kind : Nat) : List Nat :=
  (ch.runs.rows.flatMap fun x => if x.1 = kind then [] else x.2.cores).eraseDups

/-- The widest distance, at most the launch's, that the partition can offer a run; none where no placement avoids every core of an earlier run (16 R340). -/
def State.distanceFor (s : State) (l : Launch) (ch : Check) (n kind : Nat) : Option Nat :=
  let used := ch.earlierCores kind
  ((List.range (l.hdr.distance + 1)).reverse).find? fun d => s.holdsPlacement l n fun c => apart d c used

/-- The blocks of the unit that a check's primary ran as. -/
def State.checkUnit (s : State) (ch : Check) : List Nat :=
  match ch.runs.get 1 with
  | some r => s.unit r.block
  | none => []

/-- Where the head of an order would go now; none where it fits nowhere. -/
def State.placeHead (s : State) : Head → Option (Nat × Placed)
  | .resume bid =>
    match s.blocks.get bid with
    | none => none
    | some b =>
      match s.launches.get b.launch with
      | none => none
      | some l =>
        if b.set.isSome then s.placeSet l (fun _ => true) (s.unit bid).length true
        else (s.place l fun _ => true).map fun p => (0, p)
  | .restart bid =>
    match s.blocks.get bid with
    | none => none
    | some b =>
      match s.launches.get b.launch with
      | none => none
      | some l =>
        if (b.set.bind s.sets.get).any (·.again) then s.placeSet l (fun _ => true) (s.unit bid).length true
        else if b.set.isSome then
          if s.fits l 1 0 (b.cores.headD 0) then some (0, { cores := b.cores, lcluster := b.lcluster, lcores := b.lcores }) else none
        else (s.place l fun _ => true).map fun p => (0, p)
  | .run key kind =>
    match s.checks.get key with
    | none => none
    | some ch =>
      match s.launches.get ch.launch with
      | none => none
      | some l =>
        let n := (s.checkUnit ch).length
        match s.distanceFor l ch n kind with
        | none => none
        | some d =>
          let ok := fun (c : Nat) => apart d c (ch.earlierCores kind)
          if l.hdr.tile ≠ 0 then s.placeSet l ok n true else (s.place l ok).map fun p => (0, p)
  | .fresh lid =>
    match s.launches.get lid with
    | none => none
    | some l =>
      if l.hdr.tile ≠ 0 then s.placeSet l (fun _ => true) (l.hdr.blocks - l.nextBlock) false
      else (s.place l fun _ => true).map fun p => (0, p)

/-- What a partition admits next (13 R299, R301): the head of the virtual device with issue allowance, a head that fits, and the greatest balance, the lower number at a tie; under version pressure a pending run of any device first (16 R341). -/
def State.admission (s : State) (part : Nat) : Option (Head × Nat × Placed) :=
  let p := s.part part
  if p.frozen || !p.enable || !s.running then none
  else
    let cs := (List.range 8).filterMap fun v =>
      if p.vdevs.getLsbD v && decide (0 < (p.vd v).balance) then
        (s.head part v).bind fun h => (s.placeHead h).map fun x => ((p.vd v).balance, h, x)
      else none
    let runs := if s.pressed part then cs.filter (fun x => match x.2.1 with | .run _ _ => true | _ => false) else []
    ((if runs.isEmpty then cs else runs).foldl (fun (o : Option (Int × Head × Nat × Placed)) x => match o with
      | none => some x
      | some y => if y.1 < x.1 then some x else some y) none).map (·.2)

/-! ### Restart and resume -/

/-- The cores that hold the groups of a block, and in a tile set its engine, are among those of the runs it is, in every segment that they have a part of and that still runs (16 R340, R351). -/
def State.noteCores (s : State) (bid : Nat) (cores : List Nat) : State :=
  let whole := ((s.blocks.get bid).bind fun (b : Block) => b.set).isSome
  let held := fun (seg : Nat) => if whole then cores
    else (s.groups.filter fun _ g => decide (g.block = bid ∧ g.life ≠ .ended ∧ g.marks = seg)).rows.map fun r => r.2.core
  let more := fun (seg : Nat) (r : SegRun) =>
    if decide (r.life = .running) && (s.unit r.block).contains bid then r.holdOn (held seg) else r
  { s with checks := s.checks.map fun _ ch => { ch with runs := ch.runs.map fun _ r => more ch.seg r } }

/-- What was published above the snapshot of a restart point is the party's own again: a group's, its block's and its jobs'. -/
def State.giveOwn (s : State) (uid bid : Nat) (layer : Option Layer) (own : List OwnPut) : State :=
  let mine := own.map fun o => match o.party with
    | .group _ => { o with party := .group uid }
    | .block _ => { o with party := .block bid }
    | .jobs p _ => { o with party := .jobs p layer, order := 0 }
  { s with ownPuts := mine.foldl (fun os o => if os.contains o then os else os ++ [o]) s.ownPuts }

/-- A block moved to new cores, its groups dealt to them in ascending order (07 R185, R186, 01 R26). -/
def State.moveBlock (s : State) (bid : Nat) (l : Launch) (p : Placed) : State :=
  let mine := (s.groups.filter fun _ g => decide (g.block = bid) && decide (g.life ≠ .ended)).rows
  let life := (s.blocks.get bid).map fun (b : Block) => b.life
  let off : State := { s.updBlock bid (fun b => { b with cores := p.cores, lcluster := p.lcluster, lcores := p.lcores, life := .resident }) with
    groups := s.groups.map fun _ g => if g.block = bid then { g with core := Config.cores } else g }
  let dealt := mine.foldl (fun (s : State) r =>
    let core := if r.2.seq then p.cores.headD 0 else p.cores.getD (l.coreOf p.cores.length r.2.idx) 0
    s.updGroup r.1 fun g => { g with core := core, quarter := if g.seq then 0 else s.quarter core }) off
  (dealt.updBlock bid fun b => { b with life := life.getD b.life }).noteCores bid p.cores

/-- A group at a restart point (07 R200): k0 to k31, rounding state, mask and fragment of the point, everything else of its registers undefined, the import mark of the point, and the snap of a group's start at a number. -/
def Group.restartAt (g : Group) (e : RestartPt) (snap undef now : Nat) : Group :=
  let m := e.mask &&& ~~~g.exited
  { g with
    vregs := Table.empty, masks := Table.empty, undef := some undef, vpoison := Table.empty, spoison := [],
    sregs := (e.ks.zipIdx).foldl (fun t x => t.put x.2 x.1) Table.empty,
    frags := Table.empty.put 0 { e.frag with mask := m, ready := now }, sibs := Table.empty, nextFrag := 1, snap := snap,
    mark := e.mark, flights := [], delivered := [], late := [], pubPoison := none, saved := [], doneMark := false }

/-- A group restarts (07 R200). Its S is the partition's P, never below that of the point, and a checked primary's enters the log: with the entry state of its part where it restarts there, else as a snap. A repeat run takes the number of its log. -/
def State.restartGroup (s : State) (uid : Nat) (g : Group) (b : Block) (l : Launch) : State :=
  let c : Ctx := { uid := uid, fid := 0, g := g, f := Frag.start 0 0 0, b := b, l := l }
  let entry := (c.check.bind s.checks.get).bind fun ch => ch.entries.get c.slot
  let first := startPoint l (groupSeed l b.workid g.idx) l.hdr.entry allLanes 0
  let e0 := g.restart.getD (if c.repeats then entry.getD first else first)
  let e := if g.restart.isNone && decide (e0.blk.len = 0) then { e0 with mark := 0 } else e0
  let now := max g.snap (s.part l.part).round
  let free : State := ({ s with free := s.free + 1 } : State).giveOwn uid g.block c.layer e.own
  if c.repeats then
    let r := g.takeRestartSnap
    free.putGroup uid (r.2.restartAt e (r.1.getD e.snap) s.free s.tick)
  else
    let g1 := g.restartAt e now s.free s.tick
    match c.check with
    | none => free.putGroup uid g1
    | some key =>
      if e.cut = 0 then
        { free.putGroup uid g1 with checks := s.checks.upd key fun ch => { ch with entries := ch.entries.upd c.slot fun x =>
          { x with snap := now, own := x.own.filter fun o => decide (now < o.round) } } }
      else free.putGroup uid (g1.logs { kind := .snap, op := 1, data := [now], digest := 0 })

/-- The windows of a restart point, none of their lines filled (07 R200, 10 R258). -/
def RestartPt.unfilled (e : RestartPt) : Table Window := e.windows.map fun _ w => { w with filled := [], dirty := [] }

/-- The contents of a block's store become undefined (07 R198, R200), and mapped windows refill on touch. -/
def State.loseStore (s : State) (bid : Nat) : State :=
  { s.updBlock bid (fun b => { b with
      store := Table.empty, undef := some s.free, windows := b.windows.map fun _ w => { w with filled := [], dirty := [] } }) with
    free := s.free + 1 }

/-- A block restarts on its new cores (07 R200): every group that has not ended at its latest rmark, or at the kernel entry; barriers clear as at admission. Where the groups' restart points saved different window descriptors, which belong to the block, those of the lowest-numbered group that has one are restored (DESIGN CHOICE, log 71). -/
def State.restartBlock (s : State) (bid : Nat) (l : Launch) (p : Placed) : State :=
  let s1 := (s.moveBlock bid l p).loseStore bid
  let gs := (s1.groups.filter fun _ g => decide (g.block = bid) && !g.seq && decide (g.life = .live)).rows
  match s1.blocks.get bid with
  | none => s1
  | some b0 =>
    let wins := (gs.findSome? fun r => r.2.restart.map RestartPt.unfilled).getD (if b0.run < 2 then Table.empty else b0.windows)
    let b : Block := { b0 with life := .resident, pages := [], bars := Table.empty, captured := none, windows := wins, atoms := Table.empty,
                               hold := if b0.run < 2 then b0.hold.or (s.dumpHold l) else none }
    let s2 : State := { s1 with blocks := s1.blocks.put bid b }
    (gs.foldl (fun s r => s.restartGroup r.1 r.2 b l) s2).noteHeld p.cores (segName l b (s2.segOf bid b))

/-- A pre-empted group resumes (07 R198): at the resume entry as one fragment of all its lanes that have not exited, with the mask registers and the live scalar registers captured but k0 to k31 (02 R35), every other vector and scalar register undefined (log 30), ready from `now` on (07 R191); with no handler its whole state stands. The fragment holds the rounding state of the lowest-numbered one saved: 04 R94 names none (DESIGN CHOICE, log 30). -/
def Group.resumeAt (g : Group) (l : Launch) (undef now : Nat) : Group :=
  if l.hdr.handler = 0 ∨ g.seq ∨ g.life ≠ .live then { g with frags := g.frags.map fun _ (f : Frag) => { f with ready := now } }
  else
    let v := g.saved.headD { frags := Table.empty, ks := [], ms := [] }
    let lanes := v.frags.rows.foldl (fun m (r : Nat × Frag) => m ||| r.2.mask) 0
    let rnd := (v.frags.rows.head?.map fun r => r.2.rnd).getD 0
    { g with
      vregs := Table.empty, undef := some undef, vpoison := Table.empty, spoison := [],
      sregs := ((v.ks.drop 32).zipIdx).foldl (fun t x => t.put (x.2 + 32) x.1) Table.empty, masks := (v.ms.zipIdx).foldl (fun t x => t.put (x.2 + 1) x.1) Table.empty,
      frags := Table.empty.put g.nextFrag { Frag.start (lanes &&& ~~~g.exited) l.hdr.resume rnd with handler := .resume, ready := now },
      nextFrag := g.nextFrag + 1, doneMark := false }

/-- The captured barriers and windows of a block come back, none of the windows' lines filled (07 R198 step 2). -/
def Block.regain (b : Block) : Block :=
  match b.captured with
  | none => b
  | some v => { b with
      bars := v.bars, windows := v.windows.map fun _ w => { w with filled := [], dirty := [] }, captured := none }

/-- A pre-empted block resumes on its new cores (07 R198); held at once where a stop met its pre-emption (21 R417). -/
def State.resumeBlock (s : State) (bid : Nat) (l : Launch) (p : Placed) : State :=
  let s1 := s.moveBlock bid l p
  let s2 := if l.hdr.handler = 0 then s1 else (s1.loseStore bid).updBlock bid Block.regain
  let gs := (s2.groups.filter fun _ g => decide (g.block = bid)).keys
  let s3 := gs.foldl (fun (s : State) u => { s.updGroup u (fun g => g.resumeAt l s.free s.tick) with free := s.free + 1 }) s2
  let isOver := !gs.isEmpty && gs.all fun u => ((s3.groups.get u).map fun (g : Group) => decide (g.life = .ended)).getD true
  let s4 := s3.updBlock bid fun b => { b with
    life := if isOver then .closing 0 else .resident, quiesce := none,
    hold := if b.run < 2 ∧ b.holdAtResume.isNone ∧ !isOver then s.dumpHold l else none }
  let b := (s4.blocks.get bid).getD (Block.start 0 0 0 0 [] 0 [])
  let s5 := s4.noteHeld p.cores (segName l b (s4.segOf bid b))
  match b.holdAtResume with
  | some h => (s5.updBlock bid fun b => { b with holdAtResume := none }).holdBlock bid h.cause h.bp h.code 0
  | none => s5

end Sys2Proof.Machine
end

