-- ==== Sys2Proof/Machine/Launch.lean ====
section
/-! DEFINITION. The command front end: packet queues and their records (10 R275 to R278), launch headers (07 R178 to R181), work queues (07 R182), copy packets, and the end of a launch (07 R179, 16 R343). -/

namespace Sys2Proof.Machine
open Sys2Proof

/-! ### Packet queues (10 R275, R276) -/

/-- A field of a queue's descriptor. -/
def State.queueField (s : State) (q : PacketQueue) (o n : Nat) : Nat := fromBytes (s.hostRead (q.desc + o) n).1

/-- A power of two from 16 to 65,536. -/
def ringSize (n : Nat) : Bool :=
  [16, 32, 64, 128, 256, 512, 1024, 2048, 4096, 8192, 16384, 32768, 65536].contains n

/-- PACKET_QUEUE_REGISTER (10 R275), through the partition's virtual function (22 R427; log 28). -/
def execPacketQueueRegister (part queue address : Nat) (s : State) : Out :=
  let q : PacketQueue := { desc := address, open_ := [], ready := Table.empty, taken := 0, wants := Table.empty }
  let f := s.queueField q
  let ok := decide (queue < 64) && decide (address % 128 = 0) && isDevice address && ringSize (f 0x10 4) && ringSize (f 0x14 4)
    && decide (f 0 16 < 2 ^ 80) && decide (f 0 16 % (64 * max (f 0x10 4) 1) = 0) && decide (f 0x28 16 < 2 ^ 80)
    && decide (f 0x28 16 % (16 * max (f 0x14 4) 1) = 0) && decide (f 0x40 64 = 0)
  s.throughVf part (if ok then s.updPart part fun p => { p with packets := p.packets.put queue q } else s.denied)

/-- The packet a queue's front end may take now: its number, slot and bytes (10 R276, R277). -/
def State.packetAt (s : State) (part queue : Nat) : Option (PacketQueue × Nat × Nat × List Byte) :=
  match (s.part part).packets.get queue with
  | none => none
  | some q =>
    let n := s.queueField q 0x20 8
    let slot := s.queueField q 0 16 + 64 * (n % max (s.queueField q 0x10 4) 1)
    let bs := (s.hostRead slot 64).1
    let flags := fromBytes ((bs.drop 1).take 1)
    if !s.running || !(s.part part).enable || s.queueField q 0x18 8 ≤ n || fromBytes (bs.take 1) = 0
      || (bitAt flags 1 && !q.open_.isEmpty) then none
    else some (q, n, slot, bs)

/-- A packet is taken: its type byte cleared, the read index advanced, the packet open until its record (10 R276). -/
def State.takePacket (s : State) (part queue : Nat) (q : PacketQueue) (n slot : Nat) (wants : Bool) : State :=
  ((s.poke slot [0]).poke (q.desc + 0x20) (toBytes 8 (n + 1))).updPart part fun p =>
    { p with packets := p.packets.upd queue fun q =>
        { q with open_ := q.open_ ++ [n], wants := q.wants.put n wants, taken := n + 1, ident := none } }

/-- A record without its parity: tag, status, code, type, and the eight bytes that follow (10 R278). -/
def packetRecord (tag status code ty tail : Nat) : List Byte :=
  toBytes 4 tag ++ toBytes 1 status ++ toBytes 1 code ++ toBytes 1 ty ++ toBytes 8 tail

/-- Records leave in packet order (10 R278). -/
def State.flushRecords (s : State) (part queue : Nat) : Nat → State
  | 0 => s
  | fuel + 1 =>
    match (s.part part).packets.get queue with
    | none => s
    | some q =>
      match q.open_ with
      | [] => s
      | n :: rest =>
        match q.ready.get n with
        | none => s
        | some r =>
          let c := s.queueField q 0x38 8
          let size := max (s.queueField q 0x14 4) 1
          let full := r.take 7 ++ toBytes 1 (c / size % 2) ++ r.drop 7
          let s1 := if q.wants.getD n false then
              (s.poke (s.queueField q 0x28 16 + 16 * (c % size)) full).poke (q.desc + 0x38) (toBytes 8 (c + 1))
            else s
          let q1 := { q with open_ := rest, ready := q.ready.del n, wants := q.wants.del n }
          (s1.updPart part fun p => { p with packets := p.packets.put queue q1 }).flushRecords part queue fuel

/-- The code pages of launches whose records have been written may be written again (02 R31). -/
def State.freeCode (s : State) : State :=
  { s with codePages := s.codePages.filter fun c => match s.launches.get c.launch with | some l => !s.recordWritten l | none => false }

/-- A packet has completed. -/
def State.completePacket (s : State) (part queue n : Nat) (record : List Byte) : State :=
  match (s.part part).packets.get queue with
  | none => s.freeCode
  | some q =>
    ((s.updPart part fun p => { p with packets := p.packets.put queue { q with ready := q.ready.put n record } }).flushRecords
      part queue (q.open_.length + 1)).freeCode

/-- Whether a packet's fields are as 10 R277 says. -/
def packetOk (bs : List Byte) : Bool :=
  let f := fun (o n : Nat) => fromBytes ((bs.drop o).take n)
  decide (f 1 1 < 4) && decide (f 2 2 = 0) && decide (f 48 16 = 0)
    && (match f 0 1 with
      | 1 => decide (f 8 16 < 2 ^ 80) && decide (f 8 16 % 256 = 0) && decide (f 24 24 = 0)
      | 2 => decide (f 8 16 < 2 ^ 80) && decide (f 24 16 < 2 ^ 80) && decide (1 ≤ f 40 8 ∧ f 40 8 ≤ 2 ^ 40)
      | 3 => decide (f 8 2 < 256) && decide (f 10 6 = 0) && decide (f 24 24 = 0)
      | _ => false)

/-- A packet that breaks its table (10 R277, R278). -/
def State.badPacket (s : State) (part queue : Nat) (q : PacketQueue) (n slot : Nat) (bs : List Byte) : State :=
  let f := fun (o n : Nat) => fromBytes ((bs.drop o).take n)
  (s.takePacket part queue q n slot (bitAt (f 1 1) 0)).completePacket part queue n
    (packetRecord (f 4 4) 0x11 0 (f 0 1) (if f 0 1 = 1 then 0xFFFFFFFF else 0))

/-! ### Launch headers (07 R178, R181) -/

/-- A prerequisite record; none where it breaks 07 R181. One of kind 0 may carry any identifier and value, for which R181 gives no meaning under that kind (DESIGN CHOICE, log 66). -/
def prereqOf (w : Nat) : Option Prereq :=
  let kind := bitsAt w 0 4
  let barrier := bitsAt w 8 8
  let ident := bitsAt w 32 32
  let value := bitsAt w 64 64
  if 3 < kind ∨ bitsAt w 4 4 ≠ 0 ∨ bitsAt w 16 16 ≠ 0 ∨ (kind ≠ 3 ∧ barrier ≠ 0) ∨ 63 < barrier
    ∨ (kind = 2 ∧ 4096 ≤ ident) ∨ (kind = 1 ∧ value ≠ 0) then none
  else some { kind := kind, ident := ident, barrier := barrier, value := value, held := false }

/-- Whether a queue binding is one of 07 R178. An unbound one may carry any number, which nothing reads: R178 gives the number a range only for the other kinds (DESIGN CHOICE, log 66). -/
def bindingOk (b : Nat) : Bool :=
  match b / 4096 with
  | 0 => true
  | 1 => decide (b % 4096 < 256)
  | 2 => decide (1 ≤ b % 4096 ∧ b % 4096 ≤ 5)
  | _ => false

/-- A launch header from its 256 bytes, or the status that refuses it: BAD_HEADER before BAD_FIELDS (07 R178, R179). -/
def headerOf (bs : List Byte) : Except Nat Header :=
  let f := fun (o n : Nat) => fromBytes ((bs.drop o).take n)
  let m := f 0x68 8
  let ws := (List.range 6).map fun i => bitsAt (f 0x40 8) (6 * i) 6
  let es := (List.range 4).map fun i => f (0x48 + 8 * i) 8
  let binds := (List.range 32).map fun i => f (0x80 + 2 * i) 2
  let ps := [prereqOf (f 0xE0 16), prereqOf (f 0xF0 16)]
  let addrs := [f 0 16, f 0x10 16, f 0x20 16, f 0x30 16, f 0xC0 16]
  let groups := bitsAt m 0 8
  let badHeader := f 0 16 % 8 ≠ 0 ∨ addrs.any (fun a => decide (2 ^ 80 ≤ a)) ∨ ((f 0x20 16 = 0) ≠ (f 0x30 16 = 0))
    ∨ bitsAt (f 0x40 8) 36 28 ≠ 0 ∨ groups < 1 ∨ 24 < groups ∨ bitsAt m 8 8 < 1 ∨ 32 < bitsAt m 8 8 ∨ 64 < bitsAt m 16 8
    ∨ 1 < bitsAt m 24 2 ∨ bitsAt m 30 2 ≠ 0 ∨ 4 < bitsAt m 35 3 ∨ bitsAt m 39 2 = 3 ∨ bitsAt m 41 23 ≠ 0
    ∨ f 0x70 4 % 128 ≠ 0 ∨ f 0x74 4 % 64 ≠ 0 ∨ 65536 < f 0x74 4 ∨ !binds.all bindingOk ∨ f 0xC0 16 % 128 ≠ 0
    ∨ f 0xD0 4 % 128 ≠ 0 ∨ f 0xD4 12 ≠ 0 ∨ ps.any (·.isNone)
  let w := fun (i : Nat) => ws.getD i 0
  let badFields := 64 < ws.sum ∨ (w 0 ≠ 0 ∧ w 0 ≠ 7) ∨ (w 1 ≠ 0 ∧ 2 ^ w 1 < groups)
    ∨ (es.zipIdx.any fun e => decide (e.1 < 1 ∨ 2 ^ w (e.2 + 2) < e.1))
  if badHeader then .error 1
  else if badFields then .error 2
  else .ok {
    entry := BitVec.ofNat 80 (f 0 16), tile := BitVec.ofNat 80 (f 0x10 16), handler := BitVec.ofNat 80 (f 0x20 16),
    resume := BitVec.ofNat 80 (f 0x30 16), widths := ws, extents := es, groups := groups, vregs := 8 * bitsAt m 8 8,
    barriers := bitsAt m 16 8, persistent := bitsAt m 24 2 == 1, priority := bitsAt m 26 4, vdev := bitsAt m 32 3,
    level := bitsAt m 35 3, early := bitAt m 38, distance := bitsAt m 39 2, store := f 0x70 4, spill := f 0x74 4,
    seed := toWord (f 0x78 4), patience := f 0x7C 2, budget := f 0x7E 2, bindings := binds,
    ctxBase := BitVec.ofNat 80 (f 0xC0 16), ctxBytes := f 0xD0 4, prereqs := ps.filterMap id }

/-! ### Submission -/

/-- What the front end reads at a virtual address of its partition (10 R277): bytes, a refusal's code, or a page that is absent. -/
inductive FrontRead where
  | bytes (bs : List Byte)
  | refused (code : Code)
  | absent (page : Nat)
  deriving DecidableEq, Repr

/-- The core whose caches the front end's translations use. -/
def State.frontCore (s : State) (part : Nat) : Nat := 4 * (s.part part).base

/-- A read within one line in the context of virtual device 0, at the newest closed version (10 R277). -/
def State.frontRead (s : State) (part va n : Nat) : State × FrontRead :=
  let r := s.translate part 0 (s.frontCore part) va .load
  match r.2 with
  | .ok pa _ =>
    let x := r.1.hostRead pa n
    (r.1, if x.2 then .refused .poison else .bytes x.1)
  | .protect _ => (r.1, .refused .accessProtection)
  | .declined => (r.1, .refused .pageNotResident)
  | .absent page => (r.1, .absent page)

/-- The 256 bytes of a header. -/
def State.readHeader (s : State) (part va : Nat) : State × FrontRead :=
  let a := s.frontRead part va 128
  match a.2 with
  | .bytes x =>
    let b := a.1.frontRead part (va + 128) 128
    match b.2 with
    | .bytes y => (b.1, .bytes (x ++ y))
    | r => (b.1, r)
  | r => (a.1, r)

/-- New work reaches a virtual device's run queue (13 R300): the wake boost after 10 ms or more without any, by the microseconds of the timebase. -/
def State.wakeBoost (s : State) (part vdev : Nat) : State :=
  let cores := ((s.clusterMap part).map fun cl => (s.clusterCores cl).length).sum
  s.updPart part fun p => { p with vdev := p.vdev.upd vdev fun v =>
    if s.timebase < v.idle + 10000000 then { v with idle := s.timebase }
    else { v with idle := s.timebase, balance := max v.balance 0 + (v.boost * cores : Nat) } }

/-- What is kept of a launch whose header is refused, which has no blocks: its identifier, by which a prerequisite may name it (07 R181). -/
def Header.refused : Header :=
  { entry := 0, tile := 0, handler := 0, resume := 0, widths := [], extents := [0], groups := 0, vregs := 0, barriers := 0,
    persistent := false, priority := 0, vdev := 0, level := 0, early := false, distance := 0, store := 0, spill := 0, seed := 0,
    patience := 0, budget := 0, bindings := [], ctxBase := 0, ctxBytes := 0, prereqs := [] }

/-- A launch packet takes the next identifier before its header is read (07 R180): at once where it has none yet, and it keeps it while the header's page is awaited. -/
def State.takeIdent (s : State) (part queue : Nat) (q : PacketQueue) : State × Nat :=
  match q.ident with
  | some i => (s, i)
  | none =>
    let i := (s.part part).nextLaunch
    (s.updPart part fun p => { p with
      nextLaunch := if i = 0xFFFFFFFE then 0 else i + 1, packets := p.packets.upd queue fun q => { q with ident := some i } }, i)

/-- A launch is submitted under its identifier (07 R179, R180): the header's status or a place among the launches. -/
def State.submit (s : State) (part queue n tag ident : Nat) (wants host : Bool) (head : Except (Nat × Nat) Header) : State :=
  let refuse := fun (t : State) (status code : Nat) =>
    let l := { Launch.start Header.refused part ident host queue tag wants n t.uid with ended := some (status, code), recorded := true }
    ({ t with launches := t.launches.put t.uid l, uid := t.uid + 1 } : State).completePacket part queue n (packetRecord tag status code 1 ident)
  match head with
  | .error (st, code) => refuse s st code
  | .ok h =>
    let l := Launch.start h part ident host queue tag wants n s.uid
    if !(s.part part).vdevs.getLsbD h.vdev then refuse s 0x04 0
    else if !s.couldFit l then refuse s 0x03 0
    else
      let s1 := s.wakeBoost part h.vdev
      { s1 with launches := s1.launches.put s1.uid l, uid := s1.uid + 1 }.testLaunch s1.uid

/-- LAUNCH_PACKET (10 R277, 07 R178, R180): the front end takes a launch packet, which takes its identifier; a header on a page that is not resident suspends the queue until the pager answers. -/
def execLaunchPacket (part queue : Nat) (host : Bool) (s : State) : Out :=
  .next (match s.packetAt part queue with
    | none => s
    | some (q, n, slot, bs) =>
      let f := fun (o n : Nat) => fromBytes ((bs.drop o).take n)
      if f 0 1 = 2 ∨ f 0 1 = 3 then s
      else if !packetOk bs then s.badPacket part queue q n slot bs
      else
        let x := s.takeIdent part queue q
        let r := x.1.readHeader part (f 8 16)
        let go := fun (head : Except (Nat × Nat) Header) =>
          (r.1.takePacket part queue q n slot (bitAt (f 1 1) 0)).submit part queue n (f 4 4) x.2 (bitAt (f 1 1) 0) host head
        match r.2 with
        | .absent page => (r.1.requestPage part 0 page 0 x.2 0xFFFFFFFF).1
        | .refused code => go (.error (1, codeNum code))
        | .bytes h => go (match headerOf h with | .ok h => .ok h | .error e => .error (e, 0)))

/-- WORK_ITEM_PACKET (10 R277, 07 R182): held while the work queue is full. -/
def execWorkItemPacket (part queue : Nat) (s : State) : Out :=
  .next (match s.packetAt part queue with
    | none => s
    | some (q, n, slot, bs) =>
      let f := fun (o n : Nat) => fromBytes ((bs.drop o).take n)
      if f 0 1 = 1 ∨ f 0 1 = 2 then s
      else if !packetOk bs then s.badPacket part queue q n slot bs
      else
        match (s.part part).queues.get (f 8 2) with
        | none => s
        | some w =>
          if w.cap ≤ w.items.length then s
          else
            let w1 := { w with items := w.items ++ [BitVec.ofNat 64 (f 16 8)] }
            ((s.takePacket part queue q n slot (bitAt (f 1 1) 0)).putQueue part (f 8 2) w1).completePacket part queue n
              (packetRecord (f 4 4) 0 0 3 0))

/-- WORK_QUEUE_CAPACITY (07 R182), through the partition's virtual function (22 R427; log 28). -/
def execWorkQueueCapacity (part queue items : Nat) (s : State) : Out :=
  s.throughVf part (if 256 ≤ queue ∨ items < 64 ∨ 65536 < items then s.denied
    else
      let w := (s.part part).queues.getD queue { cap := items, items := [], waiters := [] }
      s.putQueue part queue { w with cap := items })

/-! ### Copy packets -/

/-- COPY_PACKET (10 R277): a job whose footprint is its source and destination. -/
def execCopyPacket (part queue : Nat) (s : State) : Out :=
  .next (match s.packetAt part queue with
    | none => s
    | some (q, n, slot, bs) =>
      let f := fun (o n : Nat) => fromBytes ((bs.drop o).take n)
      if f 0 1 = 1 ∨ f 0 1 = 3 then s
      else if !packetOk bs then s.badPacket part queue q n slot bs
      else
        let src := f 8 16
        let dst := f 24 16
        let len := f 40 8
        let j : Job := { Job.card .hostCopy [src, len, dst, queue, n, f 4 4] none none none [globalRange src len] [globalRange dst len] with
          part := part, flight := s.uid }
        let s1 := s.takePacket part queue q n slot (bitAt (f 1 1) 0)
        { s1 with jobs := s1.jobs.put s1.uid j, uid := s1.uid + 1 })

/-- What a copy packet has moved so far. -/
structure HostCopy where
  s : State
  written : Nat
  fault : Option Code
  absent : Option Nat

/-- One piece of a copy packet: read at the newest closed version, written as a store of identifier 1,024; a destination page that is not resident takes the bytes in the bounce buffer. -/
def HostCopy.piece (h : HostCopy) (part va : Nat) (bs : List Byte) : HostCopy :=
  if h.fault.isSome then h
  else
    let core := h.s.frontCore part
    let r := h.s.translate part 0 core va .store
    match r.2 with
    | .ok pa _ =>
      if r.1.codeProtected pa then { h with s := r.1, fault := some .accessProtection }
      else { h with s := r.1.hostWriteLine pa bs, written := h.written + bs.length }
    | .absent _ =>
      { h with s := r.1.bounceLine core part 0 (va / 128 * 128) (byteMask (va % 128) bs.length) (lineWith (va % 128) bs) false 0xFFFFFFFF 0xFFFFFFFF none,
               written := h.written + bs.length }
    | .protect _ => { h with s := r.1, fault := some .accessProtection }
    | .declined => { h with s := r.1, fault := some .pageNotResident }

/-- The source bytes of a copy packet, up to a fault or an absent page. -/
def State.hostSource (s : State) (part : Nat) : List (Nat × Nat) → State × List Byte × Option Code × Option Nat
  | [] => (s, [], none, none)
  | (va, k) :: rest =>
    let r := s.frontRead part (va % 2 ^ 80) k
    match r.2 with
    | .bytes bs =>
      let t := r.1.hostSource part rest
      (t.1, bs ++ t.2.1, t.2.2)
    | .refused code => (r.1, [], some code, none)
    | .absent page => (r.1, [], none, some page)

/-- A copy packet performs (10 R277): suspended for a source page that is not resident, or while the bounce buffer has no room for what it writes (13 R311), and stopped at a fault. -/
def State.performHostCopy (s : State) (id : Nat) (j : Job) : State :=
  let v := fun (i : Nat) => j.vals.getD i 0
  let src := s.hostSource j.part (pieces (v 1 / 128 + 2) (v 0) (v 1))
  match src.2.2.2 with
  | some page => (src.1.requestPage j.part 0 page 0 0xFFFFFFFF 0xFFFFFFFF).1
  | none =>
    let parts := splitLines (src.2.1.length / 128 + 2) (v 2) src.2.1
    if !src.1.roomFor j.part 0 (src.1.frontCore j.part) (parts.map fun x => x.1 % 2 ^ 80) then src.1 else
    let h := parts.foldl (fun h x => h.piece j.part (x.1 % 2 ^ 80) x.2)
      ({ s := src.1, written := 0, fault := none, absent := none } : HostCopy)
    let round := if (h.s.part j.part).roundOpen then (h.s.part j.part).round + 1 else 0
    { h.s with jobs := h.s.jobs.put id { j with
        life := .performed round, written := h.written, fault := (h.fault.or src.2.2.1).map fun c => (c, 0) } }

/-- The end of a copy packet (10 R278). -/
def State.endHostCopy (s : State) (id : Nat) (j : Job) : State :=
  let v := fun (i : Nat) => j.vals.getD i 0
  let s1 : State := { s with jobs := s.jobs.del id }
  s1.completePacket j.part (v 3) (v 4) (packetRecord (v 5) (if j.fault.isSome then 0x10 else 0)
    (match j.fault with | some (c, _) => codeNum c | none => 0) 2 j.written)

/-! ### The end of a launch -/

/-- Whether a partition holds resident or queued work (07 R202, R203). -/
def State.hasWork (s : State) (part : Nat) : Bool :=
  s.launches.rows.any fun r => r.2.part == part && !r.2.recorded

/-- Whether a group is one of a launch's. -/
def State.groupIn (s : State) (launch uid : Nat) : Bool :=
  ((s.groups.get uid).bind fun (g : Group) => s.blocks.get g.block).any fun b => b.launch == launch

/-- Whether every block of a launch has exited and every check is decided, with the round closed in which its last stores leave, fired greenware among them (07 R179, 16 R343). -/
def State.launchDone (s : State) (id : Nat) (l : Launch) : Bool :=
  decide (l.hdr.blocks ≤ l.nextBlock)
    && (s.blocks.rows.all fun r => r.2.launch != id || decide (r.2.life = .ended))
    && (s.checks.rows.all fun r => r.2.launch != id || r.2.decided)
    && !(s.jobs.rows.any fun r => s.groupIn id r.2.group)
    && !(s.handed.any fun h => s.groupIn id h.group)

/-- A launch's record is written (10 R278), its blocks and groups are gone, and its code pages may then be written again (02 R31). -/
def State.recordLaunch (s : State) (id : Nat) (l : Launch) (status code : Nat) : State :=
  let mine := (s.blocks.filter fun _ b => decide (b.launch = id)).keys
  let kilns := (s.checks.filter fun _ c => decide (c.launch = id)).keys.map checkOf
  let s1 : State := { s with
    launches := s.launches.put id { l with ended := some (status, code), recorded := true },
    groups := s.groups.filter fun _ g => !mine.contains g.block,
    blocks := s.blocks.filter fun _ b => b.launch != id,
    sets := s.sets.filter fun _ t => t.launch != id,
    green := s.green.filter fun h => !h.checkIn kilns,
    past := s.past.filter fun h => !h.checkIn kilns,
    checks := s.checks.filter fun _ c => c.launch != id }
  let s2 := s1.completePacket l.part l.queue l.slot (packetRecord l.tag status code 1 l.ident)
  if s2.hasWork l.part then s2
  else s2.updPart l.part fun p => { p with clusterFires := Table.empty, frontFires := 0, lastFired := [] }

/-- LAUNCH_COMPLETE (07 R179, R195, 16 R343). -/
def execLaunchComplete (launch : Nat) (s : State) : Out :=
  .next (match s.launches.get launch with
    | none => s
    | some l =>
      if l.recorded then s
      else
        match l.ended with
        | some (st, code) => s.recordLaunch launch l st code
        | none => if s.launchDone launch l then s.recordLaunch launch l 0 0 else s)

/-! ### Admission -/

/-- BLOCK_ADMISSION (07 R184, R185): the next block, or tile set, of the launch whose turn it is. -/
def execBlockAdmission (part : Nat) (s : State) : Out :=
  .next (match s.admission part with
    | some (.fresh lid, cl, p) =>
      match s.launches.get lid with
      | none => s
      | some l => if l.hdr.tile ≠ 0 then s.admitSet lid l cl p else s.admitBlock lid l p
    | _ => s)

/-- The partition and launch of a block. -/
def State.launchOf (s : State) (bid : Nat) : Option Launch := (s.blocks.get bid).bind fun b => s.launches.get b.launch

/-- A block of a pre-empted unit comes back: resumed, or restarted where its page has come meanwhile (07 R184, 06 R174). -/
def State.backBlock (s : State) (bid : Nat) (l : Launch) (p : Placed) : State :=
  match (s.blocks.get bid).map fun (b : Block) => b.life with
  | some .saved => s.resumeBlock bid l p
  | some .queued => s.restartBlock bid l p
  | _ => s.moveBlock bid l p

/-- A unit on new cores: a block alone, or the blocks of a set one to a core with the set's cluster. -/
def State.moveUnit (s : State) (bid : Nat) (l : Launch) (cl : Nat) (p : Placed) (h : State → Nat → Launch → Placed → State) : State :=
  match (s.blocks.get bid).bind (·.set) with
  | none => h s bid l p
  | some t =>
    let s1 := (s.unit bid).zipIdx.foldl (fun s x =>
      h s x.1 l { cores := [p.cores.getD x.2 0], lcluster := p.lcluster, lcores := [x.2] }) s
    { s1 with sets := s1.sets.upd t fun x => { x with cluster := cl, lcluster := p.lcluster } }

/-- The sequencer of a tile set that is formed anew starts again (06 R143, 16 R356); it holds its cluster from then on. -/
def State.restartSeq (s : State) (t : TileSet) (l : Launch) : State :=
  match s.groups.get t.seqr, s.blocks.get (t.blocks.headD 0) with
  | some g, some b =>
    let now := max g.snap (s.part l.part).round
    let e := { startPoint l (groupSeed l b.workid 0) l.hdr.tile oneLane now with ks := List.replicate 4 0 }
    { s with
      groups := s.groups.put t.seqr { (g.restartAt e now s.free s.tick) with core := b.cores.headD g.core },
      sets := s.sets.map fun _ x => if x.seqr = t.seqr then { x with again := false } else x,
      checks := match b.check with
        | some k => s.checks.upd (checkKey k 0) fun ch => { ch with entries := ch.entries.upd 31 fun x => { x with snap := now } }
        | none => s.checks,
      free := s.free + 1 }
  | _, _ => s

/-- BLOCK_RESTART (07 R199, R200), and of a tile set that has been set back (16 R356). -/
def execBlockRestart (block : Nat) (s : State) : Out :=
  .next (match s.launchOf block with
    | none => s
    | some l =>
      match s.admission l.part with
      | some (.restart b, cl, p) =>
        if b ≠ block then s
        else
          match (s.blocks.get block).bind fun (x : Block) => x.set.bind s.sets.get with
          | some t => if t.again then (s.moveUnit block l cl p State.restartBlock).restartSeq t l else s.restartBlock block l p
          | none => s.restartBlock block l p
      | _ => s)

/-- RESUME (07 R198, 06 R174). -/
def execResume (block : Nat) (s : State) : Out :=
  .next (match s.launchOf block with
    | none => s
    | some l =>
      match s.admission l.part with
      | some (.resume b, cl, p) => if b = block then s.moveUnit block l cl p State.backBlock else s
      | _ => s)

end Sys2Proof.Machine
end

