-- ==== Sys2Proof/Machine/TileMath.lean ====
section
/-! DEFINITION. The arithmetic of the matrix engines: pairings (06 R146, R147), the unfolding of A (R149 to R151), the layout of B (R153), the step sums and accumulation (R155), and the fused chain (R159, R160, R439). -/

namespace Sys2Proof.Machine
open Sys2Proof

/-! ### Pairings -/

/-- The kinds of pairing of 06 R147: plain floating point, int48, n8 or n4 with scales, BF16 by n4. -/
inductive PairKind where
  | float (a b : Fmt)
  | int (sa sb : Bool)
  | quant (wb : Nat)
  | mixed
  deriving DecidableEq, Repr

/-- The floating-point format of a tile type code (06 R146). -/
def tileFmt : Nat → Option Fmt
  | 0 => some fmtB16
  | 1 => some fmt16
  | 2 => some fmtE4
  | 3 => some fmtE5
  | 8 => some fmt32
  | _ => none

/-- The pairing of a tcfg's codes (06 R147), none where it is not accepted. -/
def pairKind (p : Nat × Nat × Nat) : Option PairKind :=
  let (a, b, g) := p
  if g = 0 then
    if (a = b ∧ (a = 0 ∨ a = 1 ∨ a = 8)) ∨ ((a = 2 ∨ a = 3) ∧ (b = 2 ∨ b = 3)) then
      match tileFmt a, tileFmt b with
      | some x, some y => some (.float x y)
      | _, _ => none
    else if (a = 6 ∨ a = 7) ∧ (b = 6 ∨ b = 7) then some (.int (a == 6) (b == 6))
    else none
  else if 4 ≤ g then none
  else if a = 4 ∧ b = 4 then some (.quant 8)
  else if a = 4 ∧ b = 5 then some (.quant 4)
  else if a = 0 ∧ b = 5 then some .mixed
  else none

/-- Whether a pairing accumulates in int48. -/
def pairInt (p : Nat × Nat × Nat) : Bool := match pairKind p with | some (.int _ _) => true | _ => false

/-- Whether A is group-quantised. -/
def pairQuantA (p : Nat × Nat × Nat) : Bool := match pairKind p with | some (.quant _) => true | _ => false

/-- The bytes of an element of A. -/
def aBytes (p : Nat × Nat × Nat) : Nat := match p.1 with | 0 => 2 | 1 => 2 | 8 => 4 | _ => 1

/-- The group size of a pairing (06 R147). -/
def groupSize (p : Nat × Nat × Nat) : Nat := match p.2.2 with | 1 => 32 | 2 => 64 | _ => 128

/-- The elements of an accumulation step (06 R147). -/
def stepLen (p : Nat × Nat × Nat) : Nat :=
  if p.2.2 ≠ 0 then groupSize p
  else match p.1 with | 0 => 16 | 1 => 16 | 8 => 8 | _ => 32

/-- The stride of a step of B (06 R153). -/
def stepStride (p : Nat × Nat × Nat) : Nat :=
  if p.2.2 = 0 then 1024 else 128 + 32 * groupSize p * (if p.2.1 = 5 then 4 else 8) / 8

/-! ### A -/

/-- The fields of an unfolding descriptor (06 R149). -/
structure Shape where
  c : Nat
  w : Nat
  h : Nat
  n : Nat
  kh : Nat
  kw : Nat
  sh : Nat
  sw : Nat
  dh : Nat
  dw : Nat
  pt : Nat
  pl : Nat
  pb : Nat
  pr : Nat
  pad : Nat
  scale : Nat
  zero : Nat
  deriving DecidableEq, Repr

/-- The descriptor's registers read as fields. -/
def shapeOf (ws : List Word) : Shape :=
  let f := fun (i lo k : Nat) => bitsAt (ws.getD i 0).toNat lo k
  { c := f 0 0 16, w := f 0 16 16, h := f 1 0 16, n := f 1 16 16, kh := f 2 0 8, kw := f 2 8 8, sh := f 2 16 4,
    sw := f 2 20 4, dh := f 2 24 4, dw := f 2 28 4, pt := f 3 0 8, pl := f 3 8 8, pb := f 3 16 8, pr := f 3 24 8,
    pad := f 4 0 32, scale := f 5 0 32, zero := f 6 0 32 }

/-- An output extent (06 R149). -/
def outExtent (size before after dil ker stride : Nat) : Int :=
  ((size : Int) + before + after - (dil : Int) * ((ker : Int) - 1) - 1) / (stride : Int) + 1

def Shape.oh (u : Shape) : Nat := (outExtent u.h u.pt u.pb u.dh u.kh u.sh).toNat
def Shape.ow (u : Shape) : Nat := (outExtent u.w u.pl u.pr u.dw u.kw u.sw).toNat

/-- Whether every field of a descriptor is within its limits (06 R149). -/
def Shape.ok (u : Shape) : Bool :=
  u.c != 0 && u.w != 0 && u.h != 0 && u.n != 0 && u.kh != 0 && u.kw != 0 && u.sh != 0 && u.sw != 0
    && u.dh != 0 && u.dw != 0 && decide (1 ≤ outExtent u.h u.pt u.pb u.dh u.kh u.sh)
    && decide (1 ≤ outExtent u.w u.pl u.pr u.dw u.kw u.sw)

/-- The rows and columns of A. -/
def Shape.rows (u : Shape) : Nat := u.n * u.oh * u.ow
def Shape.cols (u : Shape) : Nat := u.kh * u.kw * u.c

/-- The groups of a row of A. -/
def Shape.groups (u : Shape) (g : Nat) : Nat := (u.cols + g - 1) / g

/-- The byte arrays that unf checks against a window's length (06 R150): where each ends. -/
def Shape.ends (u : Shape) (p : Nat × Nat × Nat) : List Nat :=
  let t := u.n * u.h * u.w * u.c * aBytes p
  if pairQuantA p then
    [t, u.scale + 2 * (u.rows * u.groups (groupSize p)), u.zero + u.rows * u.groups (groupSize p)]
  else [t]

/-- The index of the tensor element that A(m, k) reads, none in the padding (06 R151); m and k within A. -/
def Shape.elem (u : Shape) (m k : Nat) : Option Nat :=
  let n := m / (u.oh * u.ow)
  let oh := m / u.ow % u.oh
  let ow := m % u.ow
  let kh := k / (u.kw * u.c)
  let kw := k / u.c % u.kw
  let h : Int := (oh * u.sh : Int) - u.pt + kh * u.dh
  let w : Int := (ow * u.sw : Int) - u.pl + kw * u.dw
  if h < 0 ∨ (u.h : Int) ≤ h ∨ w < 0 ∨ (u.w : Int) ≤ w then none
  else some (((n * u.h + h.toNat) * u.w + w.toNat) * u.c + k % u.c)

/-- The bytes of a window that one element of A reads: offset and length. -/
def Shape.bytes (u : Shape) (p : Nat × Nat × Nat) (m k : Nat) : Option (Nat × Nat) :=
  if u.rows ≤ m ∨ u.cols ≤ k then none else (u.elem m k).map fun i => (i * aBytes p, aBytes p)

/-- The code of A(m, k) with m and k within A, from a reader of window bytes. -/
def Shape.code (u : Shape) (p : Nat × Nat × Nat) (rd : Nat → Nat → Nat) (m k : Nat) : Nat :=
  match u.elem m k with
  | none => u.pad % 2 ^ (8 * aBytes p)
  | some i => rd (i * aBytes p) (aBytes p)

/-- The scale's and zero point's window offsets of a row's group (06 R150). -/
def Shape.scaleAt (u : Shape) (p : Nat × Nat × Nat) (m g : Nat) : Nat := u.scale + 2 * (m * u.groups (groupSize p) + g)
def Shape.zeroAt (u : Shape) (p : Nat × Nat × Nat) (m g : Nat) : Nat := u.zero + m * u.groups (groupSize p) + g

/-- The window bytes that rows row0 to row0 + 31 read in a step, as offsets and lengths (06 R155: none of a step wholly outside A). -/
def Shape.touched (u : Shape) (p : Nat × Nat × Nat) (row0 s : Nat) : List (Nat × Nat) :=
  let ks := stepLen p
  (List.range 32).flatMap fun i =>
    let m := row0 + i
    if u.rows ≤ m ∨ u.cols ≤ s * ks then []
    else
      ((List.range ks).filterMap fun t => u.bytes p m (s * ks + t))
        ++ (if pairQuantA p then [(u.scaleAt p m s, 2), (u.zeroAt p m s, 1)] else [])

/-! ### B -/

/-- The bits of an element of B. -/
def bBits (p : Nat × Nat × Nat) : Nat :=
  match p.2.1 with | 0 => 16 | 1 => 16 | 8 => 32 | 5 => 4 | _ => 8

/-- Element k of column j of the step at a buffer offset, from a reader of buffer bytes (06 R153). -/
def bCode (p : Nat × Nat × Nat) (rd : Nat → Nat → Nat) (off j k : Nat) : Nat :=
  let w := bBits p
  let base := if p.2.2 = 0 then off else off + 128
  let i := j * stepLen p + k
  if w = 4 then rd (base + i / 2) 1 / 2 ^ (4 * (i % 2)) % 16 else rd (base + i * (w / 8)) (w / 8)

/-- Scale and zero point of a column (06 R153). -/
def bParams (p : Nat × Nat × Nat) (rd : Nat → Nat → Nat) (off j : Nat) : Nat × Nat :=
  (rd (off + 2 * j) 2, rd (off + 64 + j) 1 % 2 ^ (if bBits p = 4 then 4 else 8))

/-! ### Step sums -/

/-- The exact sum of a list of values, first to last (04 R85). -/
def sumXR : List XR → XR
  | [] => .fin false 0 1
  | x :: xs => xs.foldl (XR.add false) x

/-- step_sum of 06 R155 for row m and column j, from readers of the window and of the buffer. A row beyond A and a step wholly outside it give +0. -/
def stepSum (u : Shape) (p : Nat × Nat × Nat) (a b : Nat → Nat → Nat) (m j s off : Nat) : XR :=
  let ks := stepLen p
  let ts := (List.range ks).map fun t => (t, s * ks + t)
  if u.rows ≤ m ∨ u.cols ≤ s * ks then .fin false 0 1
  else
    match pairKind p with
    | none => .fin false 0 1
    | some (.float fa fb) =>
      sumXR (ts.map fun t =>
        XR.mul (if u.cols ≤ t.2 then .fin false 0 1 else fa.value (u.code p a m t.2)) (fb.value (bCode p b off j t.1)))
    | some (.int sa sb) =>
      xrInt ((ts.map fun t =>
        if u.cols ≤ t.2 then (0 : Int) else intVal 8 sa (u.code p a m t.2) * intVal 8 sb (bCode p b off j t.1)).sum)
    | some (.quant _) =>
      let za := a (u.zeroAt p m s) 1
      let (sb, zb) := bParams p b off j
      let pg := (ts.map fun t =>
        if u.cols ≤ t.2 then (0 : Int)
        else ((u.code p a m t.2 : Int) - za) * ((bCode p b off j t.1 : Int) - zb)).sum
      XR.mul (XR.mul (xrInt pg) (fmt16.value (a (u.scaleAt p m s) 2))) (fmt16.value sb)
    | some .mixed =>
      let (sb, zb) := bParams p b off j
      let pg := sumXR (ts.map fun t =>
        XR.mul (if u.cols ≤ t.2 then .fin false 0 1 else fmtB16.value (u.code p a m t.2)) (xrInt ((bCode p b off j t.1 : Int) - zb)))
      XR.mul pg (fmt16.value sb)

/-- An integer as an exact value holds it. -/
def xrToInt : XR → Int
  | .fin s n d => (if s then -1 else 1) * ((n / d : Nat) : Int)
  | .nan => 0
  | .inf _ => 0

/-- accumulate of 06 R155. -/
def accumulate (int : Bool) (acc : Nat) (p : XR) : Nat :=
  if int then wrap 48 (satInt 48 true (signed 48 acc + xrToInt p)) else roundRne fmtAcc (XR.add false (fmtAcc.value acc) p)

/-- The steps of an mma in ascending order on one element (06 R155). -/
def accSteps (u : Shape) (p : Nat × Nat × Nat) (a b : Nat → Nat → Nat) (m j : Nat) : Nat → Nat → Nat → Nat → Nat
  | 0, _, _, acc => acc
  | n + 1, s, off, acc =>
    accSteps u p a b m j n (s + 1) ((off + stepStride p) % 65536) (accumulate (pairInt p) acc (stepSum u p a b m j s off))

/-! ### The chain -/

/-- The entry of the activation table that t falls in (06 R158, R159). -/
def actIndex : XR → Nat
  | .nan => 0
  | .inf s => if s then 0 else 63
  | .fin s n d => (max 0 (min 63 (((if s then -1 else 1) * (n : Int) + 8 * d) * 4 / (d : Int)))).toNat

/-- The activation of 06 R159 on t, as an FP32 code. -/
def activate (entry : Nat) (t : XR) : Nat :=
  let slope := fmt16.value (entry % 2 ^ 16)
  let icpt := fmt16.value (entry / 2 ^ 16 % 2 ^ 16)
  match t with
  | .nan => fmt32.qnan
  | .fin _ _ _ => if slope.isNan || icpt.isNan then fmt32.qnan else roundRne fmt32 (XR.add false (XR.mul slope t) icpt)
  | .inf st =>
    if slope.isNan || icpt.isNan then fmt32.qnan
    else if slope.isZero then convFF fmt16 fmt32 .rne false 0 (entry / 2 ^ 16 % 2 ^ 16)
    else
      let neg := fmt16.neg (entry % 2 ^ 16) != st
      match icpt with
      | .inf s => if s = neg then fmt32.signed neg fmt32.top else fmt32.qnan
      | .fin _ _ _ => fmt32.signed neg fmt32.top
      | .nan => fmt32.qnan

/-- An output element: its code, whether it is a NaN, whether it was pinned (06 R439). -/
structure DrainOut where
  code : Nat
  nan : Bool
  clamped : Bool
  deriving DecidableEq, Repr

/-- The n8 output (04 R99, 06 R439). -/
def drainN8 (mode : Rnd) (rnd scale z y : Nat) : DrainOut :=
  let plain := fun (q : Nat) (cl : Bool) => ({ code := q, nan := false, clamped := cl } : DrainOut)
  match fmt32.value y, fmt32.value scale with
  | .nan, _ => plain z false
  | _, .nan => plain z false
  | _, .inf _ => plain z false
  | .inf s, .fin t m _ => plain (if (if m = 0 then s else s != t) then 0 else 255) true
  | .fin s n d, .fin t m e =>
    if m = 0 then (if n = 0 then plain z false else plain (if s then 0 else 255) true)
    else
      let k := roundInt mode rnd (s != t) (n * e) (d * m) + (z : Int)
      plain (max 0 (min k 255)).toNat (decide (k < 0 ∨ 255 < k))

/-- The E4M3 output (06 R159, R439). -/
def drainE4 (mode : Rnd) (rnd scale y : Nat) : DrainOut :=
  match fmt32.value y, fmt32.value scale with
  | .nan, _ => { code := 0x7F, nan := true, clamped := false }
  | _, .nan => { code := 0x7F, nan := true, clamped := false }
  | _, .inf _ => { code := 0x7F, nan := true, clamped := false }
  | v, .fin t m e =>
    if m = 0 then { code := 0x7F, nan := true, clamped := false }
    else
      let q := XR.div v (.fin t m e)
      { code := roundF fmtE4 mode true rnd q, nan := false, clamped := fmtE4.isNan (roundF fmtE4 mode false rnd q) }

/-- The random word of a drained element (06 R160). -/
def drainRnd (seed work d core e : Nat) : Nat :=
  mix (seed ^^^ mix (work ^^^ (d * 2 ^ 16) ^^^ (core * 2 ^ 10) ^^^ e)) % 2 ^ 32

/-- One element through the chain (06 R159). -/
def drainElem (func : Nat) (int : Bool) (acc bias entry scale z rnd : Nat) : DrainOut :=
  let a : XR := if int then xrInt (signed 48 acc) else fmtAcc.value acc
  let b : XR := if bitAt func 2 then fmt32.value bias else .fin false 0 1
  let t := XR.add false a b
  let y := if bitAt func 3 then activate entry t else roundRne fmt32 t
  let mode : Rnd := if bitAt func 6 then .sr else .rne
  match func / 16 % 4 with
  | 0 => { code := y, nan := fmt32.isNan y, clamped := false }
  | 1 => drainN8 mode rnd scale z y
  | 2 => drainE4 mode rnd scale y
  | _ =>
    let v := satInt 32 true (signed 48 acc)
    { code := wrap 32 v, nan := false, clamped := decide (v ≠ signed 48 acc) }

end Sys2Proof.Machine
end

