-- ==== Sys2Proof/Machine/Tile.lean ====
section
/-! DEFINITION. Tile and expert instructions, opcodes 0xC0 to 0xCB, 0xD8 and 0xD9 (06 R141 to R176): what each checks and captures at issue, and what the queued ones do when they execute in the engines. -/

namespace Sys2Proof.Machine
open Sys2Proof

/-! ### The broadcast buffer -/

/-- A number read from bytes of the broadcast buffer, wrapping at its end (06 R152). Bytes that no load has written since the set's start read as zero (DESIGN CHOICE, log 76: the buffer is empty then, and no rule says what a read of it gives). -/
def TileSet.buf (t : TileSet) (o n : Nat) : Nat :=
  fromBytes ((List.range n).map fun i => t.buffer.getD ((o + i) % 65536) 0)

/-- The 64-byte units of the buffer that bytes lie in. -/
def unitsOf (o n : Nat) : List Nat :=
  if n = 0 then []
  else if 65536 ≤ n then List.range 1024
  else ((List.range (n / 64 + 2)).filterMap fun i =>
    let u := o / 64 + i
    if 64 * u < o + n then some (u % 1024) else none).eraseDups

/-- Bytes written to the buffer; `fb` says that they come from an expert's fallback (06 R166). -/
def TileSet.load (t : TileSet) (o : Nat) (bs : List Byte) (fb : Bool) : TileSet :=
  let us := unitsOf o bs.length
  { t with
    buffer := bs.zipIdx.foldl (fun m x => m.put ((o + x.2) % 65536) x.1) t.buffer,
    fellback := (t.fellback.filter fun u => !us.contains u) ++ (if fb then us else []) }

/-- The footprint space of a set's buffer. -/
def bufferSpace (set : Nat) : Nat := 2 ^ 64 + set

/-- Bytes of the buffer as a footprint, in two ranges where they wrap. -/
def bufferRanges (set o n : Nat) : List Range :=
  if n = 0 then []
  else if o + n ≤ 65536 then [{ space := bufferSpace set, lo := o, len := n }]
  else [{ space := bufferSpace set, lo := o, len := 65536 - o }, { space := bufferSpace set, lo := 0, len := min (o + n - 65536) 65536 }]

/-- The buffer bytes a queued instruction reads (06 R170). -/
def TileCmd.reads (k : TileCmd) (set : Nat) : List Range :=
  match k.op with
  | 0xC4 => bufferRanges set (64 * (k.vals.getD 2 0)) (k.vals.getD 3 0 * (k.pairing.map stepStride).getD 0)
  | 0xC8 => if bitAt k.func 2 then bufferRanges set (64 * (k.vals.getD 0 0)) 128 else []
  | 0xC9 => bufferRanges set (64 * (k.vals.getD 0 0)) 256
  | _ => []

/-- Whether a queued instruction may read the buffer: no earlier load that writes the bytes is outstanding (06 R170). -/
def State.bufferReady (s : State) (set : Nat) (k : TileCmd) : Bool :=
  !(s.jobs.rows.any fun r => decide (r.1 < k.flight) && r.2.writes.any fun x => (k.reads set).any x.meets)

/-- Whether an instruction queued before a load still has to read bytes that the load writes (06 R170). -/
def State.readBefore (s : State) (id : Nat) (j : Job) : Bool :=
  s.sets.rows.any fun r => r.2.queue.any fun k => decide (k.flight < id) && (k.reads r.1).any fun x => j.writes.any x.meets

/-- Whether a load of the buffer may perform: the job table admits it, and no reader is queued before it. -/
def State.loadReady (s : State) (id : Nat) (j : Job) : Bool := s.jobReady id j && !s.readBefore id j

/-! ### Issue -/

/-- The entries of a set's command queue that are taken (06 R169): those of instructions that have not executed, and of loads of the buffer, which run alongside, until they have performed. -/
def State.entries (s : State) (i : Nat) (t : TileSet) : Nat :=
  t.queue.length + (s.jobs.filter fun _ j => decide ((j.kind = .bload ∨ j.kind = .xfetch) ∧ j.vals.getD 3 0 = i)).rows.length

/-- The context of a tile instruction with its set; a sequencer always has one (06 R141). It waits at the limit of its class, and while the command queue of 32 entries is full (06 R169). -/
def tileInstr (s : State) (f : FormG) (dsts srcs : List (Nat × Opnd)) (k : Ctx → Nat → TileSet → Act) : Out :=
  sysInstr s f.g dsts srcs fun c _ =>
    match s.setOf c with
    | some (i, t) => if c.g.full 3 then .wait 5 s else if 32 ≤ s.entries i t then .wait 9 s else k c i t
    | none => .trap (faultAt .illegalEncoding c.f.pc 0)

/-- A tile instruction enters the command queue with its operand values (06 R169), changing what the sequencer tracks at issue. -/
def State.queueTile (s : State) (c : Ctx) (i : Nat) (t : TileSet) (k : TileCmd) (h : TileSet → TileSet) : Act :=
  let k1 : TileCmd := { k with pairing := t.pairing, ord := t.drains, pc := c.f.pc, flight := s.uid }
  let t1 := h t
  .done { (s.fly c (Flight.plain s.uid 3 c.f.pc 0)) with sets := s.sets.put i { t1 with queue := t1.queue ++ [k1] } }

/-- A command with its opcode, func and values. -/
def TileCmd.mk' (op func : Nat) (vals : List Nat) (windows : List Window) (u : Option Unfold) : TileCmd :=
  { op := op, func := func, vals := vals, windows := windows, pairing := none, unfold := u, ord := 0, pc := 0, flight := 0 }

/-- The window of a number in every engine's block, in order, none where one is unset. -/
def State.engineWindows (s : State) (t : TileSet) (n : Nat) : Option (List Window) :=
  t.blocks.mapM fun b => (s.blocks.get b).bind fun (x : Block) => x.windows.get n

/-- The kind a zeroed tile takes at issue (06 R157). -/
def TileSet.zeroKind (t : TileSet) : Bool := (t.pairing.map pairInt).getD false

/-- The kinds of the tiles with those of a list changed. -/
def TileSet.setKinds (t : TileSet) (on : Nat → Bool) (k : Bool) : TileSet :=
  { t with kinds := t.kinds.zipIdx.map fun x => if on x.2 then k else x.1 }

/-- TCFG (06 R146 to R148): the pairing is checked, then every earlier tile instruction awaited. -/
def execTcfg (f : FormG) (s : State) : Out :=
  tileInstr s f [] [] fun c i t =>
    let w := f.func.toNat
    let p := (w % 16, w / 16 % 16, w / 256 % 4)
    if (pairKind p).isNone then .trap (faultAt .illegalEncoding c.f.pc 0)
    else if c.g.counter 3 ≠ 0 then .wait 9 s
    else
      let s1 : State := { s with sets := s.sets.put i { t with pairing := some p, unfold := none } }
      .done (s1.pass c 3)

/-- The registers of unf's descriptor within k255: the sequencer has no other. -/
def unfUsed (f : FormG) : List (Nat × Opnd) := [(max 1 (min 8 (256 - opndIdx f.x)), f.x)]

/-- UNF (06 R149, R150): its checks in order; then the descriptor and the windows are captured. A descriptor that reaches beyond k255 is its own first check (06 R176), an operand field beyond it that of decoding (02 R54). -/
def execUnf (f : FormG) (s : State) : Out :=
  tileInstr s f [] (unfUsed f) fun c i t =>
    let ws := c.g.scalars (opndIdx f.x) 8
    let u := shapeOf ws
    match t.pairing with
    | none => .trap (faultAt (if 256 < opndIdx f.x + 8 then .badHandle else .illegalEncoding) c.f.pc 0)
    | some p =>
      if 256 < opndIdx f.x + 8 then .trap (faultAt .badHandle c.f.pc 0)
      else if !u.ok then .trap (faultAt .illegalEncoding c.f.pc 0)
      else if pairQuantA p && u.scale % 2 == 1 then .trap (faultAt .misaligned c.f.pc 0)
      else
        match s.engineWindows t f.handle.toNat with
        | none => .trap (faultAt .badHandle c.f.pc 0)
        | some wins =>
          if wins.any fun w => (u.ends p).any fun e => decide (w.len < e) then .trap (faultAt .accessBounds c.f.pc 0)
          else
            let s1 : State := { s with sets := s.sets.put i { t with
              unfold := some { desc := ws, win := f.handle.toNat, windows := wins } } }
            .done (s1.pass c 3)

/-- MMA (06 R155, R157): valid pairing and unfolding, and a tile of the pairing's kind. -/
def execMma (f : FormG) (s : State) : Out :=
  tileInstr s f [] [(2, f.x), (1, f.y)] fun c i t =>
    let k := fun (n : Nat) => (c.g.sreg n).toNat
    let y := k (opndIdx f.y)
    match t.pairing, t.unfold with
    | some p, some u =>
      if t.kinds.getD (f.func.toNat % 4) false != pairInt p then .trap (faultAt .illegalEncoding c.f.pc 0)
      else
        s.queueTile c i t (TileCmd.mk' 0xC4 f.func.toNat
          [k (opndIdx f.x), k (opndIdx f.x + 1), y % 1024, y / 65536] u.windows (some u)) id
    | _, _ => .trap (faultAt .illegalEncoding c.f.pc 0)

/-- ACCZ (06 R157). -/
def execAccz (f : FormG) (s : State) : Out :=
  tileInstr s f [] [] fun c i t =>
    s.queueTile c i t (TileCmd.mk' 0xC5 f.func.toNat [] [] none) fun t => t.setKinds (bitAt f.func.toNat) t.zeroKind

/-- The checks of accld and accst (06 R157): of an offset that is misaligned and a window that is unset the first is reported (DESIGN CHOICE, log 66: the spec gives the checks no order). -/
def accInstr (s : State) (f : FormG) (op : Nat) (h : TileSet → TileSet) : Out :=
  tileInstr s f [] [(1, f.x)] fun c i t =>
    let off := (c.g.sreg (opndIdx f.x)).toNat
    if off % 128 ≠ 0 then .trap (faultAt .misaligned c.f.pc 0)
    else
      match s.engineWindows t f.handle.toNat with
      | none => .trap (faultAt .badHandle c.f.pc 0)
      | some wins =>
        if wins.any fun w => decide (w.len < off + 8192) then .trap (faultAt .accessBounds c.f.pc 0)
        else s.queueTile c i t (TileCmd.mk' op f.func.toNat [off, f.handle.toNat] wins none) h

/-- ACCLD (06 R157). -/
def execAccld (f : FormG) (s : State) : Out :=
  accInstr s f 0xC6 fun t => t.setKinds (· == f.func.toNat % 4) (bitAt f.func.toNat 2)

/-- ACCST (06 R157). -/
def execAccst (f : FormG) (s : State) : Out := accInstr s f 0xC7 id

/-- DRAIN (06 R159): its combinations checked against the tile's kind at issue; the bias offset, scale and zero point captured. -/
def execDrain (f : FormG) (s : State) : Out :=
  let w := f.func.toNat
  let quant := w / 16 % 4 == 1 || w / 16 % 4 == 2
  tileInstr s f [] ((if bitAt w 2 then [(1, f.x)] else []) ++ (if quant then [(2, f.y)] else [])) fun c i t =>
    let out := w / 16 % 4
    let int := t.kinds.getD (w % 4) false
    if out = 3 ∧ (!int ∨ bitAt w 2 ∨ bitAt w 3 ∨ bitAt w 6) then .trap (faultAt .illegalEncoding c.f.pc 0)
    else if out = 0 ∧ bitAt w 6 then .trap (faultAt .illegalEncoding c.f.pc 0)
    else
      let k := fun (n : Nat) => (c.g.sreg n).toNat
      let bias := if bitAt w 2 then k (opndIdx f.x) % 1024 else 0
      let scale := if quant then k (opndIdx f.y) else 0
      let zp := if quant then k (opndIdx f.y + 1) % 256 else 0
      s.queueTile c i t (TileCmd.mk' 0xC8 w [bias, scale, zp] [] none) fun t =>
        let t1 := { t with drains := t.drains + 1 }
        if bitAt w 7 then t1.setKinds (· == w % 4) t.zeroKind else t1

/-- CHAIN (06 R158). -/
def execChain (f : FormG) (s : State) : Out :=
  tileInstr s f [] [(1, f.x)] fun c i t =>
    s.queueTile c i t (TileCmd.mk' 0xC9 0 [(c.g.sreg (opndIdx f.x)).toNat % 1024] [] none) id

/-! ### tsync and tsig -/

/-- The wait for every earlier tile instruction, with the oldest fault delivered by one (06 R171, R173). -/
def tileWait (s : State) (c : Ctx) (k : Act) : Act :=
  if c.g.counter 3 ≠ 0 then .wait 9 s
  else
    match takeDelivered (c.g.delivered.filter fun d => d.cls == 3) c.g with
    | some (t, g) => .placed ((s.putGroup c.uid g).takeTrap { c with g := g } t)
    | none => k

/-- TSYNC (06 R171): the fallback marks are cleared and the sequencer snaps (09 R231). -/
def execTsync (f : FormG) (s : State) : Out :=
  sysInstr s f.g [] [] fun c _ =>
    tileWait s c <|
      let s1 : State := match s.setOf c with
        | some (i, t) => { s with sets := s.sets.put i { t with marks := [] } }
        | none => s
      .done (s1.snapNow c)

/-- TSIG (06 R171): one arrival at the barrier of every block of the set, and a snap; an overrun goes to the sequencer. -/
def execTsig (f : FormG) (s : State) : Out :=
  sysFull s f.g (fun _ => false) (badBar f.handle) [] [] fun c _ =>
    tileWait s c <|
      match s.setOf c with
      | some (_, t) =>
        let n := f.handle.toNat
        let s1 := t.blocks.foldl (fun s b =>
          s.changeBar b n c.uid (overrun s.uid 3 (c.g.ordOf 3) n c.f.pc c.f.blk) fun x => x.credit 0 1) s
        .done (({ s1 with uid := s.uid + 1 } : State).snapNow c)
      | none => .trap (faultAt .illegalEncoding c.f.pc 0)

/-! ### Loads of the buffer -/

/-- BLOAD (06 R154). Of a length that is too long and no multiple of 64 the second is reported (DESIGN CHOICE, log 66: the spec gives the checks no order). -/
def execBload (f : FormG) (s : State) : Out :=
  tileInstr s f [] [(3, f.x), (1, f.y)] fun c i _ =>
    let va := c.g.pointer (opndIdx f.x)
    let n := (c.g.sreg (opndIdx f.y)).toNat
    let o := 64 * (f.func.toNat % 1024)
    if va % 64 ≠ 0 ∨ n % 64 ≠ 0 then .trap (faultAt .misaligned c.f.pc 0)
    else if 65536 < n then .trap (faultAt .accessBounds c.f.pc 0)
    else if n = 0 then .done (s.pass c 3)
    else .done (s.enterJob c 3 (Job.card .bload [va, n, o, i] none none none [globalRange va n] (bufferRanges i o n)))

/-- An expert table entry (06 R164), invalid where the host has written none. -/
def Part.expert (p : Part) (x : Nat) : Expert :=
  p.experts.getD x { valid := false, primary := 0, kind := 0, len := 0, fallback := 0, routed := 0, fetched := 0, fell := 0 }

/-- The decision of a primary's xfetch that its repeat run follows, by the number of the instruction among the tile instructions of the part (06 R168, 16 R346). -/
def State.loggedFetch (s : State) (c : Ctx) : Option (Nat × State) :=
  (s.takeOwn c.uid fun e => decide (e.kind = .xfetch ∧ e.data.getD 0 0 = c.g.partOrd 3 (c.g.ordOf 3 + 1))).map fun x => (x.1.data.getD 1 0, x.2)

/-- The decision of an xfetch enters the log of a checked primary. -/
def State.logFetch (s : State) (c : Ctx) (ord decision : Nat) : State :=
  if c.b.check.isSome && !c.repeats then s.record c.uid .xfetch 0xC3 [c.g.partOrd 3 ord, decision] 0 else s

/-- XFETCH (06 R166, R168): the fallback is chosen at issue where the expert is marked; a repeat run takes its primary's decision, and diverges where the log has none. In `aux`: 0 undecided, 1 fallback without a count, 2 primary without a count. Where several of its checks fail, an invalid expert is reported before a misalignment and that before a range (DESIGN CHOICE, log 66: the spec gives them no order). -/
def execXfetch (f : FormG) (s : State) : Out :=
  tileInstr s f [] [(2, f.x), (2, f.y)] fun c i t =>
    let k := fun (n : Nat) => (c.g.sreg n).toNat
    let x := k (opndIdx f.x)
    let off := k (opndIdx f.x + 1)
    let n := k (opndIdx f.y)
    let e := (s.part c.l.part).expert x
    let o := 64 * (f.func.toNat % 1024)
    if 4096 ≤ x ∨ !e.valid then .trap (faultAt .badHandle c.f.pc 0)
    else if off % 64 ≠ 0 ∨ n % 64 ≠ 0 then .trap (faultAt .misaligned c.f.pc 0)
    else if e.len < off + n ∨ 65536 < n then .trap (faultAt .accessBounds c.f.pc 0)
    else if n = 0 then .done (s.pass c 3)
    else
      let first := e.primary.toNat + off
      let second := e.fallback.toNat + off
      let go := fun (s : State) (aux : Nat) =>
        s.enterJob c 3 { Job.card .xfetch [first, n, o, i, second, x, k (opndIdx f.y + 1)] none none none
          [globalRange first n, globalRange second n] (bufferRanges i o n) with aux := [aux] }
      if c.repeats then
        match s.loggedFetch c with
        | none => .placed (s.stopRun c none)
        | some (d, t) => .done (go t (if d = 0 then 2 else 1))
      else if t.marks.contains x then .done ((go s 1).logFetch c (c.g.ordOf 3 + 1) 1)
      else .done (go s 0)

/-- A load of the buffer from a location (06 R154, R166, R173): its fault is delivered and leaves the range undefined; a page that is not resident suspends it. -/
def State.performLoad (s : State) (id : Nat) (j : Job) (c : Ctx) (va : Nat) (fb : Bool) : State :=
  let n := j.vals.getD 1 0
  let got := (Got.start s j).global c j va n
  if got.waits then got.s
  else
    let bs := if got.fault.isSome then freeBytes got.s.free n else got.bytes
    let s1 : State := { got.s with free := got.s.free + 1,
                                   sets := got.s.sets.upd (j.vals.getD 3 0) fun t => t.load (j.vals.getD 2 0) bs fb }
    (s1.jobFault j 3 (got.fault.map fun x => (x.1, BitVec.ofNat 64 j.pc.toNat))).jobOver id j

/-- A counter of an expert raised, saturating (06 R164). -/
def State.bumpExpert (s : State) (part x : Nat) (h : Expert → Expert) : State :=
  s.updPart part fun p => { p with experts := p.experts.put x (h (p.expert x)) }

/-- An xfetch is decided for the fallback (06 R166): counted and marked once. -/
def State.fallBack (s : State) (id : Nat) (j : Job) (c : Ctx) : State :=
  let x := j.vals.getD 5 0
  let s1 := s.bumpExpert j.part x fun e => { e with fell := min (e.fell + 1) (2 ^ 32 - 1) }
  let s2 : State := { s1 with
    sets := s1.sets.upd (j.vals.getD 3 0) fun t => { t with marks := if t.marks.contains x then t.marks else x :: t.marks },
    jobs := s1.jobs.upd id fun j => { j with aux := [1] } }
  s2.logFetch c (c.g.ordFor j.flight) 1

/-- What an xfetch has of its primary location (06 R166). -/
def State.primaryRead (s : State) (j : Job) (c : Ctx) : Got := (Got.none s).global c j (j.vals.getD 0 0) (j.vals.getD 1 0)

/-- Every primary byte of an xfetch has landed (06 R166): none where a read faults or its page is not resident. -/
def State.landed (s : State) (id : Nat) (j : Job) (c : Ctx) : Option State :=
  let n := j.vals.getD 1 0
  let got := s.primaryRead j c
  if got.waits || got.fault.isSome then none
  else
    let s1 : State := { got.s with sets := got.s.sets.upd (j.vals.getD 3 0) fun t => t.load (j.vals.getD 2 0) got.bytes false }
    let s2 := if c.repeats then s1
      else
        (s1.bumpExpert j.part (j.vals.getD 5 0) fun e => { e with fetched := min (e.fetched + n) (2 ^ 48 - 1) }).logFetch c (c.g.ordFor j.flight) 0
    some (s2.jobOver id j)

/-! ### Expert counters -/

/-- ECNT (06 R165, R168): a repeat run compares identifiers and counts nothing. -/
def execEcnt (f : FormG) (s : State) : Out :=
  sysInstr s f.g [] [(1, f.x)] fun c m =>
    if c.g.full 4 then .wait 5 s
    else
      let ids := (lanesOf m).map fun j => (j, c.g.lane f.x j)
      let digest := opDigest 0xD8 (ids.map fun x => (x.1, 0, [x.2]))
      match (if c.b.check.isSome then s.consult c .digest 0xD8 digest else .perform) with
      | .diverged t => .placed t
      | .replay _ t => .done (t.pass c 4)
      | .perform =>
        let s1 := ids.foldl (fun (s : State) x =>
          if x.2 < 4096 ∧ ((s.part c.l.part).expert x.2).valid then
            s.bumpExpert c.l.part x.2 fun e => { e with routed := min (e.routed + 1) (2 ^ 48 - 1) }
          else s) s
        .done ((if c.b.check.isSome then s1.record c.uid .digest 0xD8 [] digest else s1).pass c 4)

/-- XSTAT (06 R167, R168): read, and with func bit 2 zeroed, in one action; the pair is written at completion. -/
def execXstat (f : FormG) (s : State) : Out :=
  let fld := f.func.toNat % 4
  let clr := bitAt f.func.toNat 2
  sysInstr s f.g [(2, f.x)] [(1, f.y)] fun c m =>
    let x := (c.g.sreg (opndIdx f.y)).toNat
    if fld = 3 ∧ clr then .trap (faultAt .illegalEncoding c.f.pc 0)
    else if 4096 ≤ x then .trap (faultAt .badHandle c.f.pc 0)
    else if c.g.full 4 then .wait 5 s
    else
      let e := (s.part c.l.part).expert x
      let v := if !e.valid then 0 else match fld with | 0 => e.routed | 1 => e.fetched | 2 => e.fell | _ => 1
      let digest := opDigest 0xD9 [(0, 0, [x])]
      let put := fun (t : State) (v : Nat) =>
        Act.done (t.fly c { Flight.plain t.uid 4 c.f.pc m with writes := sclWrites (opndIdx f.x) (toWords 2 v) })
      match s.consult c .xstat 0xD9 digest with
      | .diverged t => .placed t
      | .replay d t => put t (d.getD 0 0)
      | .perform =>
        let s1 := if clr && e.valid then s.bumpExpert c.l.part x fun e =>
            match fld with | 0 => { e with routed := 0 } | 1 => { e with fetched := 0 } | _ => { e with fell := 0 }
          else s
        put (s1.record c.uid .xstat 0xD9 [v] digest) v

end Sys2Proof.Machine
end

