-- ==== Sys2Proof/Machine/TileExec.lean ====
section
/-! DEFINITION. The matrix engines at work (06 R155 to R162, R169, R173): the oldest queued tile instruction executes in every engine of its set; and the two ends of an undecided xfetch (06 R166). -/

namespace Sys2Proof.Machine
open Sys2Proof

/-! ### Tiles -/

/-- The code of an element of a tile (06 R144): +0 where nothing was accumulated, undefined after a poisoned read (06 R173, log 4). -/
def Tile.elem (t : Tile) (i : Nat) : Nat :=
  match t.acc.get i with
  | some v => v.toNat
  | none =>
    match t.undef with
    | some d => (Config.freeWord d 131072 i).toNat + 2 ^ 32 * ((Config.freeWord d 131073 i).toNat % 2 ^ 16)
    | none => 0

/-- A tile with the codes given by a function. -/
def Tile.fill (t : Tile) (f : Nat → Nat) : Tile :=
  { t with acc := ⟨(List.range 1024).map fun i => (i, BitVec.ofNat 48 (f i))⟩, undef := none }

/-- A zeroed tile of a kind (06 R157). -/
def Tile.zeroed (int : Bool) : Tile := { acc := Table.empty, int := int, fallback := false, undef := none }

/-- A tile of undefined contents. -/
def Tile.lost (t : Tile) (seed : Nat) : Tile := { t with acc := Table.empty, undef := some seed }

/-- A tile of an engine. -/
def Engine.tile (e : Engine) (n : Nat) : Tile := e.tiles.getD n (Tile.zeroed false)

/-- An engine with one tile replaced. -/
def Engine.putTile (e : Engine) (n : Nat) (t : Tile) : Engine := { e with tiles := e.tiles.put n t }

/-! ### Windows at the engines -/

/-- The sequencer's context as an engine of a block uses it. -/
def Ctx.atBlock (c : Ctx) (bid : Nat) (b : Block) : Ctx :=
  { c with b := b, g := { c.g with block := bid, core := b.cores.headD c.g.core } }

/-- What an engine read of windows finds first: a page that is not resident or a slice with no place, for which it is suspended, or faults. -/
structure EngineRead where
  s : State
  waits : Bool
  fault : Option (Code × BitVec 64)

/-- The lines of mapped windows that a tile instruction touches are filled in every engine's block (06 R151, R145). -/
def State.engineFill (s : State) (c : Ctx) (blocks : List Nat) (n : Nat) (wins : List Window) (lines : List Nat) : EngineRead :=
  (blocks.zip wins).foldl (fun r x =>
    match r.s.blocks.get x.1 with
    | none => r
    | some b =>
      if r.waits || !x.2.mapped then r
      else
        let f := r.s.fillLines (c.atBlock x.1 b) n x.2 (onLane0 lines)
        match f.2 with
        | .ok none => { r with s := f.1 }
        | .ok (some va) => { r with s := f.1, fault := r.fault.or (some (.poison, BitVec.ofNat 64 va)) }
        | .error (.fault code _) => { r with s := f.1, fault := r.fault.or (some (code, c.f.pc.setWidth 64)) }
        | .error (.absent page access) =>
          { r with s := (f.1.requestPage c.l.part c.l.hdr.vdev page access c.l.ident b.index).1, waits := true }
        | .error .room | .error .gone => { r with s := f.1, waits := true })
    { s := s, waits := false, fault := none }

/-- Whether an engine's block holds a poisoned word among bytes of its window. -/
def State.enginePoison (s : State) (blocks : List Nat) (wins : List Window) (rs : List (Nat × Nat)) : Bool :=
  (blocks.zip wins).any fun x =>
    match s.blocks.get x.1 with
    | none => false
    | some b => (b.store.rows.any fun w => w.2.poison) && rs.any fun r => (b.poisonIn (x.2.off + r.1) r.2).isSome

/-- A reader of a window's bytes in a block. -/
def Block.reader (b : Block) (w : Window) (o n : Nat) : Nat := fromBytes (b.bytes (w.off + o) n)

/-! ### The instructions -/

/-- The engines with their blocks' stores and windows. -/
def State.onEngines (s : State) (t : TileSet) (wins : List Window) (h : Nat → Engine → Block → Window → Engine) : TileSet :=
  let none_ : Window := { off := 0, len := 0, mode := 0, mapped := false, base := 0, filled := [], dirty := [] }
  { t with engines := t.engines.zipIdx.map fun x =>
      match s.blocks.get x.1.block with
      | some b => h x.2 x.1 b (wins.getD x.2 none_)
      | none => x.1 }

/-- One accumulation step of an mma in every engine (06 R155): step t of the instruction, with the bytes that the windows hold now. -/
def State.doStep (s : State) (t : TileSet) (k : TileCmd) (u : Unfold) (p : Nat × Nat × Nat) : TileSet :=
  let v := fun (i : Nat) => k.vals.getD i 0
  let sh := shapeOf u.desc
  let n := k.func % 4
  let off := (64 * v 2 + t.steps * stepStride p) % 65536
  let fb := (unitsOf off (stepStride p)).any fun x => t.fellback.contains x
  s.onEngines t k.windows fun _ e b w =>
    let x := e.tile n
    e.putTile n { x.fill (fun i =>
      accSteps sh p (b.reader w) t.buf (v 0 + i / 32) (i % 32) 1 (v 1 + t.steps) off (x.elem i)) with
        fallback := x.fallback || fb }

/-- accld in every engine (06 R157). -/
def State.doAccld (s : State) (t : TileSet) (k : TileCmd) : TileSet :=
  s.onEngines t k.windows fun _ e b w =>
    e.putTile (k.func % 4) ((Tile.zeroed (bitAt k.func 2)).fill fun i => b.reader w (k.vals.getD 0 0 + 8 * i) 6)

/-- accst in every engine (06 R157): each code in its 64-bit slot. -/
def State.doAccst (s : State) (t : TileSet) (k : TileCmd) (uid : Nat) : State :=
  (t.engines.zip k.windows).foldl (fun s x =>
    let tile := x.1.tile (k.func % 4)
    let bs := (List.range 1024).flatMap fun i => toBytes 8 (tile.elem i)
    let j := { Job.card .copy [] none none none [] [] with block := x.1.block, group := uid, pc := k.pc, flight := k.flight }
    s.jobWindow j (k.vals.getD 1 0) x.2 (k.vals.getD 0 0) bs) s

/-- The output elements of a drain in one engine (06 R159, R160). -/
def drainAll (t : TileSet) (e : Engine) (k : TileCmd) (core seed work : Nat) : List DrainOut :=
  let v := fun (i : Nat) => k.vals.getD i 0
  let x := e.tile (k.func % 4)
  (List.range 1024).map fun i =>
    let a : XR := XR.add false (if x.int then xrInt (signed 48 (x.elem i)) else fmtAcc.value (x.elem i))
      (if bitAt k.func 2 then fmt32.value (t.buf (64 * v 0 + 4 * (i % 32)) 4) else .fin false 0 1)
    drainElem k.func x.int (x.elem i) (t.buf (64 * v 0 + 4 * (i % 32)) 4)
      ((e.act.getD (actIndex a) 0).toNat) (v 1) (v 2) (drainRnd seed work k.ord core i)

/-- Chunks of 128 words (06 R161). -/
def chunksOf : Nat → List Nat → List Chunk
  | 0, _ => []
  | n + 1, ws => mkLanes (fun j => toWord (ws.getD j 0)) :: chunksOf n (ws.drop 128)

/-- The chunks a drain pushes (06 R161, R162). -/
def drainChunks (k : TileCmd) (core : Nat) (fb : Bool) (os : List DrainOut) : List Chunk :=
  let out := k.func / 16 % 4
  let data :=
    if out = 0 ∨ out = 3 then chunksOf 8 (os.map (·.code))
    else chunksOf 2 ((List.range 256).map fun i => fromBytes (((os.drop (4 * i)).take 4).map fun o => BitVec.ofNat 8 o.code))
  let status := k.ord % 2 ^ 25 * 2 ^ 7 + core * 2 ^ 5 + k.func % 4 * 2 ^ 3 + (if os.any (·.nan) then 4 else 0)
    + (if os.any (·.clamped) then 2 else 0) + (if fb then 1 else 0)
  data ++ (if bitAt k.func 8 then chunksOf 1 [status] else [])

/-- The chunks of a drain, counted. -/
def drainSize (func : Nat) : Nat :=
  (if func / 16 % 4 = 0 ∨ func / 16 % 4 = 3 then 8 else 2) + (if bitAt func 8 then 1 else 0)

/-- drain in every engine (06 R159). -/
def TileSet.doDrain (t : TileSet) (k : TileCmd) (seed work : Nat) : TileSet :=
  { t with engines := t.engines.zipIdx.map fun x =>
      let e := x.1
      let os := drainAll t e k x.2 seed work
      let e1 := { e with results := e.results ++ drainChunks k x.2 (e.tile (k.func % 4)).fallback os }
      if bitAt k.func 7 then e1.putTile (k.func % 4) (Tile.zeroed ((k.pairing.map pairInt).getD false)) else e1 }

/-- accz in every engine (06 R157). -/
def TileSet.doAccz (t : TileSet) (k : TileCmd) : TileSet :=
  { t with engines := t.engines.map fun e =>
      (List.range 4).foldl (fun e n =>
        if bitAt k.func n then e.putTile n (Tile.zeroed ((k.pairing.map pairInt).getD false)) else e) e }

/-- chain in every engine (06 R158). -/
def TileSet.doChain (t : TileSet) (k : TileCmd) : TileSet :=
  { t with engines := t.engines.map fun e =>
      { e with act := ⟨(List.range 64).map fun i => (i, toWord (t.buf (64 * k.vals.getD 0 0 + 4 * i) 4))⟩ } }

/-! ### Completion -/

/-- A tile instruction has executed: it leaves the queue and its class falls (06 R169); a fault of an engine's read goes to the sequencer (06 R173). -/
def State.tileOver (s : State) (i : Nat) (t : TileSet) (k : TileCmd) (fault : Option (Code × BitVec 64)) : State :=
  let s1 : State := { s with sets := s.sets.put i { t with queue := t.queue.drop 1 } }
  let s2 : State := match fault with
    | some x =>
      s1.jobFault { Job.card .bload [] none none none [] [] with group := t.seqr, pc := k.pc, flight := k.flight } 3
        (some (x.1, k.pc.setWidth 64))
    | none => s1
  s2.updGroup t.seqr fun g => g.complete k.flight

/-- A tile whose contents a poisoned read leaves undefined, in every engine (06 R173). -/
def TileSet.loseTile (t : TileSet) (n seed : Nat) : TileSet :=
  { t with engines := t.engines.zipIdx.map fun x => x.1.putTile n ((x.1.tile n).lost (seed + x.2)) }

/-- An instruction, or a step of it, that reads windows: fills, poison, which ends the instruction, then its effect and what comes after. -/
def State.windowed (s : State) (c : Ctx) (i : Nat) (t : TileSet) (k : TileCmd) (win : Nat) (rs : List (Nat × Nat))
    (act : State → TileSet → TileSet) (after : State → TileSet → State) : State :=
  let lines := if k.windows.any (·.mapped) then linesOf 1 (rs.flatMap fun r => (List.range r.2).map fun x => r.1 + x) else []
  let r := s.engineFill c t.blocks win k.windows lines
  if r.waits then r.s
  else
    let bad := r.fault.or (if r.s.enginePoison t.blocks k.windows rs then some (.poison, 0) else none)
    if bad.isSome then
      ({ r.s with free := r.s.free + 4 } : State).tileOver i { t.loseTile (k.func % 4) r.s.free with steps := 0 } k bad
    else after r.s (act r.s t)

/-- The next accumulation step of an mma (06 R155, R172): it reads the windows as they stand at its fetch. The last one completes the instruction; between steps the set may be quiesced (06 R174). -/
def State.stepMma (s : State) (i : Nat) (t : TileSet) (k : TileCmd) (c : Ctx) (u : Unfold) (p : Nat × Nat × Nat) : State :=
  let v := fun (n : Nat) => k.vals.getD n 0
  if v 3 ≤ t.steps then s.tileOver i { t with steps := 0 } k none
  else
    s.windowed c i t k u.win ((shapeOf u.desc).touched p (v 0) (v 1 + t.steps)) (fun s t => s.doStep t k u p) fun s x =>
      if v 3 ≤ t.steps + 1 then s.tileOver i { x with steps := 0 } k none
      else { s with sets := s.sets.put i { x with steps := t.steps + 1 } }

/-- The oldest queued instruction of a set executes (06 R169), an mma step by step. -/
def State.runTile (s : State) (i : Nat) (t : TileSet) (k : TileCmd) (c : Ctx) : State :=
  let v := fun (n : Nat) => k.vals.getD n 0
  match k.op with
  | 0xC4 =>
    match k.pairing, k.unfold with
    | some p, some u => s.stepMma i t k c u p
    | _, _ => s
  | 0xC5 => s.tileOver i (t.doAccz k) k none
  | 0xC6 => s.windowed c i t k (v 1) [(v 0, 8192)] (fun s t => s.doAccld t k) fun s t => s.tileOver i t k none
  | 0xC7 =>
    let r := s.engineFill c t.blocks (v 1) k.windows (linesOf 8192 [v 0])
    if r.waits then r.s else (r.s.doAccst t k t.seqr).tileOver i t k r.fault
  | 0xC8 =>
    if t.engines.any fun e => decide (32 < e.results.length + drainSize k.func) then s
    else s.tileOver i (t.doDrain k c.l.hdr.seed.toNat (workId c.l.hdr c.b.workid 0 0)) k none
  | _ => s.tileOver i (t.doChain k) k none

/-- Whether a block has quiesced or left its cores, so that its tile set does nothing (06 R174). -/
def Block.off (b : Block) : Bool :=
  b.quiesce.isSome || (match b.life with
    | .quiesced | .saved => true
    | .resident | .closing _ | .waitPage | .queued | .ended => false)

/-- TILE_INSTRUCTION_COMPLETE (06 R169). The engines of a held set stand still after the step they were at (21 R413). -/
def execTileInstructionComplete (set : Nat) (s : State) : Out :=
  match s.sets.get set with
  | none => .next s
  | some t =>
    match t.queue, s.groupCtx t.seqr with
    | k :: _, some c => if t.ended || c.b.off || c.b.hold.isSome || !s.bufferReady set k then .next s else .next (s.runTile set t k c)
    | _, _ => .next s

/-- The xfetch job of a number that is still undecided, with its context, once the table admits it. -/
def State.openFetch (s : State) (job : Nat) : Option (Job × Ctx) :=
  match s.jobs.get job with
  | none => none
  | some j =>
    if j.kind = .xfetch ∧ j.life = .queued ∧ j.aux = [0] ∧ s.loadReady job j then (s.groupCtx j.group).map fun c => (j, c)
    else none

/-- XFETCH_DEADLINE (06 R166): what has landed is discarded and the fallback fills the range. -/
def execXfetchDeadline (job : Nat) (s : State) : Out :=
  match s.openFetch job with
  | none => .next s
  | some (j, c) => .next ((s.fallBack job j c).performLoad job { j with aux := [1] } c (j.vals.getD 4 0) true)

/-- XFETCH_PRIMARY_LANDED (06 R166): within a deadline above 0, with every byte read. A page of the primary that is not resident is asked for, and suspends the read (06 R154). -/
def execXfetchPrimaryLanded (job : Nat) (s : State) : Out :=
  match s.openFetch job with
  | none => .next s
  | some (j, c) =>
    if j.vals.getD 6 0 = 0 then .next s
    else
      match s.landed job j c with
      | some t => .next t
      | none => .next (if (s.primaryRead j c).waits then (s.primaryRead j c).s else s)

end Sys2Proof.Machine
end

