-- ==== Sys2Proof/Machine/Preempt.lean ====
section
/-! DEFINITION. Pre-emption (07 R197, 06 R174, 21 R417), the pager's answers (13 R310), the watchdog tree and the progress monitor (07 R201 to R203), the time-allowance scheduler (13 R298, R299), the passing of a microsecond (14 R317), and lending (13 R302 to R304). -/

namespace Sys2Proof.Machine
open Sys2Proof

/-! ### Ordering a pre-emption -/

/-- The hold of a unit ends by a pre-emption (21 R417): a trace record of kind 3 for each block. -/
def State.endHold (s : State) (bid : Nat) : State :=
  (s.unit bid).foldl (fun t i =>
    match t.blocks.get i with
    | none => t
    | some b =>
      if b.hold.isNone then t
      else
        match t.launches.get b.launch with
        | none => t
        | some l => (t.trace b l (t.segOf i b) 0 3 0 0 0 none).updBlock i fun y => { y with hold := none }) s

/-- Whether a block on its cores is not being pre-empted yet. -/
def Block.preemptible (b : Block) : Bool := decide (b.life = .resident) && b.quiesce.isNone

/-- Step 1 of 07 R197 for a block and those that run as one with it: no fragment issues further, and waits end without effect. For a held block, triggers 0 and 1 are deferred until release, and the others end the hold (21 R417). -/
def State.orderPreempt (s : State) (bid trigger : Nat) : State :=
  match s.blocks.get bid with
  | none => s
  | some b =>
    if !b.preemptible || (b.hold.isSome && decide (trigger ≤ 1)) then s
    else
      let s1 := if b.hold.isSome then s.endHold bid else s
      (s1.unit bid).foldl (fun s i => s.updBlock i fun b => { b with quiesce := if b.life = .ended then none else some trigger })
        (s1.endWaits bid)

/-- Every block of a list is pre-empted. -/
def State.orderAll (s : State) (bids : List Nat) (trigger : Nat) : State := bids.foldl (fun s i => s.orderPreempt i trigger) s

/-- Whether a higher-priority launch, or a pending run while a block waits for version room, wants the place of a block (07 R197, 16 R341). -/
def State.outranked (s : State) (bid : Nat) (b : Block) (l : Launch) : Bool :=
  (List.range 8).any fun v =>
    match s.head l.part v with
    | some (.fresh lid) =>
      (match s.launches.get lid with
        | some k => decide (l.hdr.priority < k.hdr.priority)
        | none => false) && (s.placeHead (.fresh lid)).isNone && decide (0 < ((s.part l.part).vd v).balance)
    | some (.run key kind) =>
      b.run == 1 && s.pressed l.part && (s.placeHead (.run key kind)).isNone
        && s.groups.rows.any fun r => r.2.block == bid && r.2.frags.rows.any fun x => x.2.stall == 10
    | _ => false

/-- Whether a trigger of 07 R197 that is a condition holds for a block: 0 allowance, 1 priority, 3 a core to be tested or set aside. -/
def State.triggered (s : State) (bid trigger : Nat) (b : Block) (l : Launch) : Bool :=
  match trigger with
  | 0 => decide (((s.part l.part).vd l.hdr.vdev).balance ≤ 0)
  | 1 => s.outranked bid b l
  | 3 => b.cores.any fun c => !(s.core c).good
  | _ => false

/-! ### Capture -/

/-- The jobs of a unit that stay in the command queue as it quiesces, since a tile instruction queued before them has yet to read what they write, or since they have to wait for such a job (06 R169, R174). -/
def State.queuedLoads (s : State) (us : List Nat) : List Nat :=
  s.jobs.rows.foldl (fun held r =>
    let behind := s.readBefore r.1 r.2 || s.jobs.rows.any fun x => decide (x.1 < r.1) && held.contains x.1 && r.2.conflicts x.2
    if us.contains r.2.block && decide (r.2.life = .queued) && behind then held ++ [r.1] else held) []

/-- The jobs of a unit that a pre-emption does not wait for: collectives, whose results are delivered at resume (07 R197), and those in the command queue. -/
def State.lasting (s : State) (us : List Nat) : List (Nat × Job) :=
  s.jobs.rows.filter fun r => us.contains r.2.block && (decide (r.2.kind = JobKind.coll) || (s.queuedLoads us).contains r.1)

/-- The operations of a unit's groups that stay under way across a pre-emption: those jobs, and queued tile instructions, which are saved with their set (06 R174). -/
def State.stays (s : State) (bid : Nat) : List Nat :=
  ((s.lasting (s.unit bid)).map fun r => r.2.flight)
    ++ (match (s.blocks.get bid).bind fun (b : Block) => b.set.bind s.sets.get with
      | some t => t.queue.map fun k => k.flight
      | none => [])

/-- Whether everything that has to land before the capture has landed (07 R197 step 2); a group whose lanes have exited finishes its publish first (08 R210). -/
def State.landedAll (s : State) (bid : Nat) : Bool :=
  let us := s.unit bid
  let keep := s.stays bid
  let last := (s.lasting us).map (·.1)
  let uids := (s.groups.filter fun _ g => us.contains g.block).keys
  !(s.jobs.rows.any fun r => us.contains r.2.block && !last.contains r.1)
    && !(s.gateOps.rows.any fun r => uids.contains r.2.group && !r.2.seen)
    && (s.groups.rows.all fun r => !us.contains r.2.block
        || ((r.2.flights.all fun f => f.done || keep.contains f.id)
            && (match r.2.life with | .leaving | .publishing _ => false | .live | .ended => true)))
    && (us.all fun i => match s.blocks.get i with
        | some b => (match b.life with | .closing _ => s.blockClosed b | _ => true)
        | none => true)

/-- The scalar registers live at a pre-emption (02 R35): those the marks of the blocks name that the group's fragments stand in, or in a handler have come from; k0 to k31 are captured in any case (07 R197 step 3). -/
def Group.liveScalars (g : Group) : Nat :=
  g.frags.rows.foldl (fun m r => max m (max (4 * r.2.blk.smark) (if r.2.handler = .none then 0 else 4 * r.2.tblk.smark))) 32

/-- The capture of one group (07 R197 steps 2 to 4): its fragments, its live scalar registers, its mask registers, its collectives in flight (19 R406) and its faults still to be delivered (17 R364) are saved, and it enters the handler as one fragment of its lanes that have not exited, with the resume point of its lowest-numbered fragment, and with that one's rounding state, for which 04 R94 names no fragment (DESIGN CHOICE, log 30). -/
def Group.capture (g : Group) (handler : Addr) (trigger : Nat) : Group :=
  match g.frags.rows with
  | [] => g
  | (_, f) :: _ =>
    let t : Trap := { kind := 3, code := .preempt, pc := f.pc, info := BitVec.ofNat 64 trigger }
    let h := (({ f with mask := g.liveLanes, reconv := none, sib := none, onChip := true } : Frag).enter t handler .preempt)
    { g with
      saved := { frags := g.frags, ks := g.scalars 0 g.liveScalars, ms := g.maskRegs, flights := g.flights, delivered := g.delivered } :: g.saved,
      flights := [], delivered := [], frags := Table.empty.put g.nextFrag h, nextFrag := g.nextFrag + 1, doneMark := false }

/-- The capture of a block: its groups enter the handler, or, with no handler, hardware saves everything and the block leaves its cores (07 R197). A block that is not on its cores, or has ended, stays as it is. -/
def State.captureBlock (s : State) (bid trigger : Nat) : State :=
  match s.blocks.get bid with
  | none => s
  | some b =>
    match s.launches.get b.launch, b.life with
    | some l, .resident | some l, .closing _ =>
      let s1 := s.trace b l (s.segOf bid b) 0 4 0 0 0x370 none
      let s2 : State := { s1 with groups := s1.groups.map fun _ g =>
        if g.block = bid ∧ !g.seq ∧ g.life = .live ∧ l.hdr.handler ≠ 0 then g.capture l.hdr.handler trigger else g }
      let s3 := s2.updBlock bid fun b => { b with
        life := .quiesced, quiesce := none, trigger := trigger,
        captured := if l.hdr.handler = 0 then none else some { bars := b.bars, windows := b.windows } }
      if l.hdr.handler = 0 then { s3.updBlock bid (fun b => { b with life := .saved, order := s3.uid }) with uid := s3.uid + 1 }
      else s3.saveIfDone bid
    | _, _ => s.updBlock bid fun b => { b with quiesce := none }

/-- The xfetches of a unit that are undecided as it quiesces fall back (06 R174). -/
def State.settleFetches (s : State) (bid : Nat) : State :=
  s.jobs.keys.foldl (fun s id =>
    match s.jobs.get id with
    | none => s
    | some j =>
      if (s.unit bid).contains j.block ∧ j.kind = .xfetch ∧ j.aux = [0] then
        match s.groupCtx j.group with
        | some c => s.fallBack id j c
        | none => s
      else s) s

/-- PREEMPTION (07 R197): ordered where its trigger holds; captured once everything has landed. -/
def execPreemption (block trigger : Nat) (s : State) : Out :=
  .next (match s.blocks.get block, s.launchOf block with
    | some b, some l =>
      let s1 := if b.preemptible && s.triggered block trigger b l then s.orderPreempt block trigger else s
      match (s1.blocks.get block).bind fun (b : Block) => if b.hold.isSome then none else b.quiesce with
      | none => s
      | some t =>
        let s2 := s1.settleFetches block
        if s2.landedAll block then (s2.unit block).foldl (fun s i => s.captureBlock i t) s2 else s2
    | _, _ => s)

/-- PREEMPT_TIMEOUT (07 R197): the handler budget has passed before every pdone. -/
def execPreemptTimeout (block : Nat) (s : State) : Out :=
  .next (match s.blocks.get block with
    | some b => if b.life = .quiesced then s.endLaunch b.launch 0x05 (codeNum .preemptTimeout) else s
    | none => s)

/-- HOST_PREEMPT (07 R197): refused for a block that is not on its cores. -/
def execHostPreempt (block : Nat) (s : State) : Out :=
  .next (match s.blocks.get block with
    | some b => if b.preemptible then s.orderPreempt block 5 else s.denied
    | none => s.denied)

/-! ### The pager's answers -/

/-- Requests that waited in the front end are posted while the ring has room (13 R309, R310). -/
def State.postPages (s : State) (part : Nat) : Nat → State
  | 0 => s
  | fuel + 1 =>
    let p := s.part part
    match p.pageRing, p.pageReqs.rows.find? fun r => !r.2.posted with
    | some r, some (n, q) =>
      if (p.pageReqs.filter fun _ r => r.posted).rows.length < r.entries then
        let s1 := (s.updPart part fun p => { p with
          pageReqs := p.pageReqs.put n { q with posted := true }, pageCount := min (p.pageCount + 1) (2 ^ 32 - 1) }).poke
            (r.base + 32 * (n % r.entries)) q.bytes
        s1.postPages part fuel
      else s
    | _, _ => s

/-- An answer to a page request (13 R310): blocks aborted for it are queued again. -/
def State.answerPage (s : State) (part seq : Nat) (declined : Bool) : State :=
  match (s.part part).pageReqs.get seq with
  | none => s.denied
  | some q =>
    let s1 := s.updPart part fun p => { p with pageReqs := p.pageReqs.del seq }
    let mine := (s1.blocks.filter fun _ b => decide (b.life = .waitPage) && b.pages.contains seq
      && (match s1.launches.get b.launch with | some l => l.part == part | none => false)).keys
    let s2 := mine.foldl (fun (s : State) i =>
      { s.updBlock i (fun b =>
          let ps := b.pages.filter (· != seq)
          { b with pages := ps, life := if ps.isEmpty then .queued else .waitPage, order := s.uid,
                   declined := if declined then q.va :: b.declined else b.declined }) with uid := s.uid + 1 }) s1
    s2.postPages part (s2.part part).pageReqs.rows.length

/-- RESIDENT (13 R310). -/
def execResident (part seq : Nat) (s : State) : Out := .next (s.answerPage part seq false)

/-- DECLINED (13 R310). -/
def execDeclined (part seq : Nat) (s : State) : Out := .next (s.answerPage part seq true)

/-- PAGE_REQUEST_RING_REGISTER (13 R309): 16 to 4,096 records. -/
def execPageRequestRingRegister (part base entries : Nat) (s : State) : Out :=
  .next (if entries < 16 ∨ 4096 < entries then s.denied
    else
      let s1 := s.updPart part fun p =>
        { p with pageRing := some { desc := 0, base := base, entries := entries, windex := 0, dropped := 0 } }
      s1.postPages part (s1.part part).pageReqs.rows.length)

/-! ### The watchdog tree (07 R201, R202) -/

/-- Whether a block of a partition is held. -/
def State.anyHeld (s : State) (part : Nat) : Bool :=
  s.blocks.rows.any fun r => r.2.hold.isSome && (match s.launches.get r.2.launch with | some l => l.part == part | none => false)

/-- Whether the power controller or the bandwidth regulator withholds a core's issue in the present microsecond (07 R201, 13 R299). Nothing says when they do: a free value (log 42). -/
def State.withheld (s : State) (core : Nat) : Bool := (Config.freeWord s.free 131074 (Config.cores * s.timebase + core)).getLsbD 0

/-- Whether a group's watchdog may count (07 R201, 21 R416): resident, neither idle nor in gate wait nor held, with entitled time; waits on other blocks do not count while one of the partition is held. A group that has exited and waits for its publish is resident until that is made (08 R210). -/
def State.watchable (s : State) (g : Group) (b : Block) (l : Launch) : Bool :=
  let held := s.anyHeld l.part
  let reconv := fun (f : Frag) => decide (f.phase = .reconv) && decide (2 ≤ b.run)
  b.onCores && b.hold.isNone && !(s.part l.part).frozen
    && decide (0 < ((s.part l.part).vd l.hdr.vdev).balance)
    && (match g.life with
      | .live => g.frags.rows.any fun x => (x.2.stall != 14 || reconv x.2) && x.2.stall != 11
          && !(held && [5, 6, 7, 8, 10].contains x.2.stall)
      | .leaving | .publishing _ => !held
      | .ended => false)

/-- Whether it counts: its core's issue is not withheld as well (07 R201). -/
def State.watched (s : State) (g : Group) (b : Block) (l : Launch) : Bool := s.watchable g b l && !s.withheld g.core

/-- The blocks of a partition's launches that are on their cores. -/
def State.resident (s : State) (part : Nat) : List Nat :=
  (s.blocks.filter fun _ b => b.onCores && (match s.launches.get b.launch with | some l => l.part == part | none => false)).keys

/-- The error entry of a scheduler's event about a block (17 R374). -/
def schedEntry (ty code : Nat) (l : Launch) (b : Block) : ErrEntry :=
  { ty := ty, code := code, unit := 8, owner := some (l.part, l.hdr.vdev), core := b.cores.headD 0, bank := 0, line := 0,
    launch := l.ident, block := b.index }

/-- The front end's escalation (07 R202): every block of the partition is pre-empted, and WATCHDOG is reported with the blocks whose groups fired last. -/
def State.watchdogFront (s : State) (part : Nat) : State :=
  let named := (s.part part).lastFired.filterMap fun i => (s.blocks.get i).bind fun b => (s.launches.get b.launch).map fun l => (b, l)
  let s1 := named.foldl (fun (s : State) x => s.logError (schedEntry 0x0A (codeNum .watchdog) x.2 x.1)) s
  (s1.orderAll (s1.resident part) 4).updPart part fun p => { p with frontFires := 0, lastFired := [] }

/-- A cluster whose count has reached its threshold escalates, and the front end with it (07 R202). -/
def State.escalate (s : State) (part cl : Nat) : State :=
  let p := s.part part
  if p.clusterFires.getD cl 0 < p.wdCluster then s
  else
    let s1 := s.updPart part fun p => { p with clusterFires := p.clusterFires.put cl 0, frontFires := p.frontFires + 1 }
    if (s1.part part).frontFires < (s1.part part).wdFront then s1 else s1.watchdogFront part

/-- GROUP_WATCHDOG_FIRING (07 R201, R202): recorded, traced and escalated; the group continues. -/
def execGroupWatchdogFiring (group : Nat) (s : State) : Out :=
  .next (match s.groupCtx group with
    | none => s
    | some c =>
      if !s.watched c.g c.b c.l then s
      else
        let cl := c.g.core / 4
        let s1 := (s.logError { schedEntry 0x09 0 c.l c.b with core := c.g.core }).traceOf c 1 0 0 0 none
        (s1.updPart c.l.part fun p => { p with
          clusterFires := p.clusterFires.put cl (p.clusterFires.getD cl 0 + 1),
          lastFired := (p.lastFired.filter (· != c.g.block)) ++ [c.g.block] }).escalate c.l.part cl)

/-! ### The progress monitor (07 R203) -/

/-- Whether a partition holds work that counts for the progress monitor: launches waiting for admission or on prerequisites of kinds 1 and 3, blocks off their cores, suspended jobs, and resident groups that are not idle in deq; not a group in gwait or with a gate in migration, nor a launch that waits on a gate (07 R181), even where it waits on a prerequisite of kind 1 or 3 as well (DESIGN CHOICE, log 71). -/
def State.monitored (s : State) (part : Nat) : Bool :=
  let mine := fun (id : Nat) => match s.launches.get id with | some l => l.part == part && l.ended.isNone | none => false
  let gated := fun (f : Frag) => match f.pend with
    | .gate k => (match s.gateOps.get k with
        | some o => o.op == 0xE9 || (match s.gates.get o.gate with | some g => g.frozen | none => true)
        | none => true)
    | _ => false
  (s.launches.rows.any fun r => r.2.part == part && r.2.ended.isNone && decide (r.2.nextBlock < r.2.hdr.blocks)
      && !(r.2.hdr.prereqs.any fun p => p.kind == 2 && !p.held))
    || (s.blocks.rows.any fun r => mine r.2.launch && !r.2.onCores && decide (r.2.life ≠ .ended))
    || (s.jobs.rows.any fun r => r.2.part == part)
    || (s.groups.rows.any fun r => decide (r.2.life ≠ .ended) && (match s.blocks.get r.2.block with
        | some b => mine b.launch && b.onCores
        | none => false)
      && (r.2.frags.rows.isEmpty || r.2.frags.rows.any fun x =>
        (match x.2.pend with | .deq _ => false | _ => true) && !gated x.2))

/-- The snapshot of a stall (07 R203): the issue states, split tables and barriers of every block of the partition. -/
def State.snapshot (s : State) (part : Nat) : List Byte :=
  s.blocks.rows.flatMap fun r =>
    match s.launches.get r.2.launch with
    | some l => if l.part = part ∧ r.2.life ≠ .ended then s.stopRecord r.1 r.2 l 0 0 0 else []
    | none => []

/-- Whether the microsecond is entitled time of a partition (07 R201, R203): a virtual device of it has issue allowance, and some core of its clusters is not withheld. -/
def State.entitled (s : State) (part : Nat) : Bool :=
  let p := s.part part
  ((List.range 8).any fun v => p.vdevs.getLsbD v && decide (0 < (p.vd v).balance))
    && (s.clusterMap part).any fun cl => (s.clusterCores cl).any fun c => !s.withheld c

/-- STALL (07 R203): a window of entitled time has passed; the partition is frozen and the host told. The window does not advance while a block is held (21 R416). -/
def execStall (part : Nat) (s : State) : Out :=
  .next (if (s.part part).frozen || s.anyHeld part || !s.entitled part || !s.monitored part then s
    else
      let s1 := s.updPart part fun p => { p with frozen := true }
      let s2 := s1.logError { ty := 0x0B, code := codeNum .stall, unit := 8, owner := some (part, 0), core := s.frontCore part,
                              bank := 0, line := 0, launch := 0xFFFFFFFF, block := 0xFFFFFFFF }
      { s2 with sent := s2.sent ++ [Sent.bytes false (s.snapshot part)] })

/-- PARTITION_RESUME (07 R203): its fragments are ready from then on (07 R191). -/
def execPartitionResume (part : Nat) (s : State) : Out :=
  .next (if !(s.part part).frozen then s.denied
    else
      let t := s.updPart part fun p => { p with frozen := false }
      { t with groups := t.groups.map fun k (g : Group) =>
          if s.partOf k = some part then { g with frags := g.frags.map fun _ (f : Frag) => { f with ready := s.tick } } else g })

/-! ### The time-allowance scheduler (13 R298, R299) -/

/-- The logical cores of a partition. -/
def State.logicalCores (s : State) (part : Nat) : Nat := ((s.clusterMap part).map fun cl => (s.clusterCores cl).length).sum

/-- Whether a virtual device has resident or queued work. -/
def State.active (s : State) (part v : Nat) : Bool :=
  s.launches.rows.any fun r => decide (r.2.part = part ∧ r.2.hdr.vdev = v) && r.2.ended.isNone && !r.2.recorded

/-- The shares of 13 R298 as fractions: rounds that hold every device above its limit at the limit, then the rest by weight. Each row is a device, its weight and its limit; an answer is a device with the numerator and denominator of its share. -/
def shares : Nat → Nat → List (Nat × Nat × Nat) → List (Nat × Nat × Nat)
  | 0, _, _ => []
  | fuel + 1, r, as =>
    let w := (as.map fun a => a.2.1).sum
    let high := fun (a : Nat × Nat × Nat) => decide (a.2.2 * w < r * a.2.1)
    if as.isEmpty then []
    else if !as.any high then as.map fun a => (a.1, r * a.2.1, w)
    else
      ((as.filter high).map fun a => (a.1, a.2.2, 1))
        ++ shares fuel (r - ((as.filter high).map fun a => a.2.2).sum) (as.filter fun a => !high a)

/-- A balance at a period's start: the old one and the share, exact, at most the limit, truncated to whole core-µs. -/
def newBalance (old : Int) (num den limit : Nat) : Int := min ((old * den + num).tdiv den) limit

/-- ALLOWANCE_PERIOD (13 R298). -/
def execAllowancePeriod (part : Nat) (s : State) : Out :=
  let p := s.part part
  let cores := s.logicalCores part
  let vs := (List.range 8).filter fun v => p.vdevs.getLsbD v
  let act := vs.filter fun v => s.active part v
  let limit := fun (v : Nat) => (p.vd v).cap * cores * 10
  let sh := shares 9 (cores * 1000) (act.map fun v => (v, (p.vd v).weight, limit v))
  .next (vs.foldl (fun (s : State) v =>
    s.updPart part fun p =>
      let d := p.vd v
      let d1 : Vdev := match sh.find? fun x => x.1 == v with
        | some (_, num, den) => { d with balance := newBalance d.balance num den (limit v) }
        | none => d
      { p with vdev := p.vdev.put v d1 }) s)

/-- ALLOWANCE_EXHAUSTED (13 R299): every block of a device whose balance has fallen to 0 is pre-empted, trigger 0. -/
def execAllowanceExhausted (part vdev : Nat) (s : State) : Out :=
  .next (if 0 < ((s.part part).vd vdev).balance then s
    else s.orderAll (((s.blocksOf part vdev).filter fun x => x.2.1.preemptible).map fun x => x.1) 0)

/-- A microsecond of 13 R299: each core that holds blocks, and whose issue is not withheld, charges their virtual device 1 core-µs. -/
def State.chargeCores (s : State) : State :=
  let held := (List.range Config.cores).filterMap fun c =>
    ((s.blocksOn c).head?).map fun x => (x.2.2.part, x.2.2.hdr.vdev, if s.withheld c then 0 else 1)
  held.foldl (fun (s : State) x => s.updPart x.1 fun p =>
    let d := p.vd x.2.1
    { p with vdev := p.vdev.put x.2.1 { d with balance := max (d.balance - x.2.2) (-(2 ^ 31)) } })
    { s with free := s.free + 1 }

/-- The virtual devices that have work are seen with it (13 R300). -/
def State.noteActive (s : State) : State :=
  { s with parts := s.parts.map fun k (p : Part) => { p with
      vdev := p.vdev.map fun v d => if s.active k v then { d with idle := s.timebase } else d } }

/-- BUCKET_TICK (14 R317, 16 R360, 13 R299): a microsecond passes on the device timebase; every rated gate's bucket is refilled, queued signals that waited for a token are performed, cores charge the devices whose blocks they hold, and those that have work are noted. -/
def execBucketTick (s : State) : Out :=
  let s1 : State := { s with
    timebase := s.timebase + 1000,
    gates := s.gates.map fun _ g => if g.rate = 0 then g else { g with level := min (g.level + g.rate) g.depth } }
  .next ((s1.gates.keys.foldl (fun s gate =>
    match s.gates.get gate with
    | some g => if !g.frozen && !g.queue.isEmpty then s.thawGate gate else s
    | none => s) s1).testGates).chargeCores.noteActive

/-! ### Lending (13 R302 to R304) -/

/-- The partition with a cluster no longer lent to it. -/
def Part.unlend (p : Part) (cl : Nat) : Part :=
  { p with lent := p.lent.filter (· != cl), reclaim := p.reclaim.filter (· != cl) }

/-- The state with a cluster lent to nobody. -/
def State.unlend (s : State) (cl : Nat) : State := { s with parts := s.parts.map fun _ p => p.unlend cl }

/-- What a partition has queued, wherever it stands in its virtual device's order and whether or not its prerequisites hold: blocks off their cores, pending runs, and launches with blocks to come. -/
def State.queuedWork (s : State) (part : Nat) : List Head :=
  let mine := fun (id : Nat) => match s.launches.get id with | some l => l.part == part && l.ended.isNone | none => false
  (s.blocks.rows.filterMap fun r =>
      if !mine r.2.launch then none
      else match r.2.life with
        | .saved => some (.resume r.1)
        | .queued | .waitPage => some (.restart r.1)
        | .resident | .quiesced | .closing _ | .ended => none)
    ++ (s.checks.rows.flatMap fun r =>
      if mine r.2.launch && !r.2.decided then
        (r.2.runs.rows.filter fun x => decide (x.2.life = .pending)).map fun x => .run r.1 x.1
      else [])
    ++ (s.launches.rows.filterMap fun r => if mine r.1 && decide (r.2.nextBlock < r.2.hdr.blocks) then some (.fresh r.1) else none)

/-- Whether a queued block of a partition could be admitted only on a cluster (13 R302). -/
def State.needs (s : State) (part cl : Nat) : Bool :=
  let away : State := { s with parts := s.parts.put 16 { Part.reset with lent := [cl] } }
  (s.queuedWork part).any fun h => (s.placeHead h).isSome && (away.placeHead h).isNone

/-- LEND (13 R303): the lender names an idle cluster of its own, which joins the borrower's map. -/
def execLend (part cluster : Nat) (s : State) : Out :=
  let p := s.part part
  .next (if !p.lendOn || !p.owns cluster || s.lentAway part cluster || p.lendTo == part || !(s.part p.lendTo).enable
      || s.clusterBusy cluster || s.needs part cluster then s.denied
    else (s.unlend cluster).updPart p.lendTo fun q => { q with lent := q.lent ++ [cluster] })

/-- A reclaim begins (13 R304): the borrower's blocks on the cluster are pre-empted, trigger 2; the cluster is the lender's again, zeroed, with the last of them. -/
def State.startReclaim (s : State) (part cl : Nat) : State :=
  let on := ((s.parts.rows.filter fun r => r.1 != part && r.2.lent.contains cl).map (·.1))
  let s1 := on.foldl (fun (s : State) q => s.updPart q fun p => { p with
    reclaim := if p.reclaim.contains cl then p.reclaim else p.reclaim ++ [cl] }) s
  let bids := ((List.range 4).flatMap fun i => (s1.blocksOn (4 * cl + i)).map fun x => x.1).eraseDups
  let s2 := s1.orderAll bids 2
  if s2.clusterBusy cl then s2 else s2.unlend cl

/-- RECLAIM (13 R304). -/
def execReclaim (part cluster : Nat) (s : State) : Out :=
  .next (if (s.part part).owns cluster && s.lentAway part cluster then s.startReclaim part cluster else s.denied)

/-- AUTO_RECLAIM (13 R304): the head block fits none of the present clusters and would fit a lent one, once the borrower's blocks there are off their cores. -/
def execAutoReclaim (part : Nat) (s : State) : Out :=
  let p := s.part part
  let lent := (List.range Config.clusters).filter fun cl => p.owns cl && s.lentAway part cl
  let heads := (List.range 8).filterMap fun v => s.head part v
  let pick := heads.findSome? fun h =>
    if (s.placeHead h).isSome then none
    else lent.find? fun cl =>
      (((({ s with blocks := s.blocks.filter fun _ b => !(b.onCores && b.cores.any fun c => c / 4 == cl) } : State).unlend cl)).placeHead h).isSome
  .next (if !p.autoReclaim then s else match pick with | some cl => s.startReclaim part cl | none => s)

end Sys2Proof.Machine
end

