-- ==== Sys2Proof/Machine/System.lean ====
section
/-! DEFINITION. System instructions, opcodes 0xF0 to 0xF7: system registers (17 R377), clk and runk (16 R359 to R361), brk, mark, sampctl and svc with its ring (17 R378 to R383). -/

namespace Sys2Proof.Machine
open Sys2Proof

/-! ### System registers (17 R377) -/

/-- Whether a guest may read a register. -/
def sysGuestReads (n : Nat) : Bool := n < 0x040

/-- The value a system register reads as, for a partition and virtual device. -/
def State.sysRead (s : State) (part vdev n : Nat) : Nat :=
  let p := s.part part
  let v := p.vd vdev
  match n with
  | 0x020 => v.clamp
  | 0x021 => wrap 32 v.balance
  | 0x022 => s.occupancy part vdev
  | 0x030 => p.wdGroup
  | 0x031 => p.wdCluster
  | 0x032 => p.wdFront
  | 0x033 => p.progWin
  | 0x040 => p.budget
  | 0x041 => s.rotation
  | 0x042 => s.abortPrio
  | _ => if 0x010 ≤ n ∧ n ≤ 0x01D then p.errs.getD (n - 0x010) 0 else 0

/-- Every cluster and front-end count of a partition held against its thresholds (07 R202). -/
def State.escalateAll (s : State) (part : Nat) : State :=
  let s1 := (s.part part).clusterFires.keys.foldl (fun s cl => s.escalate part cl) s
  if 0 < (s1.part part).frontFires ∧ (s1.part part).wdFront ≤ (s1.part part).frontFires then s1.watchdogFront part else s1

/-- A write of a system register; a value outside the register's range is ignored. -/
def State.sysWrite (s : State) (part vdev n x : Nat) : State :=
  let inRange := fun (lo hi : Nat) => decide (lo ≤ x ∧ x ≤ hi)
  match n with
  | 0x020 =>
    if x = 0 then s.updPart part fun p => { p with vdev := p.vdev.upd vdev fun (v : Vdev) => { v with clamp := 0 } } else s
  | 0x030 => if inRange 1 (2 ^ 32 - 1) then s.updPart part fun p => { p with wdGroup := x } else s
  | 0x031 => if inRange 1 255 then (s.updPart part fun p => { p with wdCluster := x }).escalateAll part else s
  | 0x032 => if inRange 1 255 then (s.updPart part fun p => { p with wdFront := x }).escalateAll part else s
  | 0x033 => if inRange 10 1000000 then s.updPart part fun p => { p with progWin := x } else s
  | 0x040 =>
    if inRange 0 ((setBits (s.part part).colours).length * 64 * 16 * 320 * 3 / 4) then
      s.updPart part fun p => { p with vbudget := some x }
    else s
  | 0x041 => if inRange 1 3600 then { s with rotation := x } else s
  | 0x042 => if inRange 0 15 then { s with abortPrio := x } else s
  | _ =>
    if 0x010 ≤ n ∧ n ≤ 0x01F ∧ x = 0 then s.updPart part fun p => { p with errs := p.errs.put (n - 0x010) 0 } else s

/-- SYSRD (17 R377, R383). Its operand digest is over the register's number for an address (16 R349). -/
def execSysrd (f : FormG) (s : State) : Out :=
  let n := f.func.toNat
  sysFull s f.g (fun c => !c.l.host && !sysGuestReads n) (fun _ => false) [(2, f.x)] [] fun c _ =>
    let put := fun (t : State) (v : Nat) => t.writeRegs c.uid (sclWrites (opndIdx f.x) (toWords 2 v))
    let digest := opDigest 0xF0 [(0, n, [])]
    match s.consult c .sysrd 0xF0 digest with
    | .diverged t => .placed t
    | .replay d t => .done (put t (d.getD 0 0))
    | .perform =>
      let v := s.sysRead c.l.part c.l.hdr.vdev n
      .done (put (s.record c.uid .sysrd 0xF0 [v] digest) v)

/-- SYSWR (17 R377, R383): no register is written by a guest. -/
def execSyswr (f : FormG) (s : State) : Out :=
  let n := f.func.toNat
  sysFull s f.g (fun c => !c.l.host) (fun _ => false) [] [(2, f.y)] fun c _ =>
    let x := c.g.pair (opndIdx f.y)
    let digest := opDigest 0xF1 [(0, n, (toWords 2 x).map (·.toNat))]
    match s.consult c .sysrd 0xF1 digest with
    | .diverged t => .placed t
    | .replay _ t => .done t
    | .perform => .done ((s.record c.uid .sysrd 0xF1 [] digest).sysWrite c.l.part c.l.hdr.vdev n x)

/-! ### Checks -/

/-- CLK (16 R360). -/
def execClk (f : FormG) (s : State) : Out :=
  sysInstr s f.g [(2, f.x)] [] fun c _ =>
    let put := fun (t : State) (v : Nat) => t.writeRegs c.uid (sclWrites (opndIdx f.x) (toWords 2 v))
    let digest := opDigest 0xF2 [(0, 0, [])]
    match s.consult c .clk 0xF2 digest with
    | .diverged t => .placed t
    | .replay d t => .done (put t (d.getD 0 0))
    | .perform => .done (put (s.record c.uid .clk 0xF2 [s.now] digest) s.now)

/-- RUNK (16 R361): the runs named add one term to their register sums; a run in the place of a disregarded primary is the primary (R356). -/
def execRunk (f : FormG) (s : State) : Out :=
  sysFull s f.g (fun c => !c.l.host) (fun _ => false) [] [] fun c _ =>
    let named := (c.b.runName == 1 && f.func.getLsbD 0) || (c.b.runName == 2 && f.func.getLsbD 1)
    .done (match c.check with
      | none => s
      | some k =>
        if !named then s
        else
          let s1 := s.addTerms c true [mix (2 ^ 64 - c.b.runName)]
          { s1 with checks := s1.checks.upd k fun ch => { ch with
            runs := ch.runs.upd c.b.run fun r => { r with injected := true } } })

/-! ### Debug, trace and sampling -/

/-- BRK (17 R378, R383, 21 R413): it retires before the stop. A repeat run does not stop here; a DEBUG_STOP of its log it has taken at the boundary. -/
def execBrk (f : FormG) (s : State) : Out :=
  sysInstr s f.g [] [] fun c _ =>
    if c.repeats then .done s
    else if s.stops c.l.part then
      .placed ((s.advance c.uid c.fid).holdBlock c.g.block 0 0 f.func.toNat c.f.pc c.g.name)
    else if c.g.seq then .done s
    else .trap (faultAt .debugStop c.f.pc f.func.toNat)

/-- MARK (17 R379, 21 R421). -/
def execMark (f : FormD) (s : State) : Out :=
  let valued := f.func.getLsbD 4
  sysInstr s f.g [] (if valued then [(1, f.dst)] else []) fun c _ =>
    .done (if c.repeats then s
      else s.traceOf c 0 (f.func.toNat % 16) c.f.pc f.imm.toNat (if valued then some (c.g.lane f.dst 0) else none))

/-- SAMPCTL (17 R380, 21 R418). -/
def execSampctl (f : FormG) (s : State) : Out :=
  let on := f.func.getLsbD 0
  sysInstr s f.g [] (if on then [(1, f.y)] else []) fun c _ =>
    .done (if c.repeats || ((s.part c.l.part).sampleRings.get c.l.hdr.vdev).isNone then s
      else
        s.setSampling c.l.part c.l.hdr.vdev (if on then some (c.g.lane f.y 0) else none))

/-! ### Services (17 R381, R382) -/

/-- The record of a service request. -/
def svcRecord (l : Launch) (b : Block) (g : Group) (valued : Bool) (n a seq : Nat) : List Byte :=
  toBytes 4 l.ident ++ toBytes 4 b.index ++ toBytes 1 (if g.seq then 0 else g.idx) ++ toBytes 1 (if valued then 1 else 0)
    ++ toBytes 1 l.hdr.vdev ++ toBytes 1 0 ++ toBytes 4 n ++ toBytes 4 a ++ toBytes 4 seq ++ toBytes 8 0

/-- The operand digest of svc (17 R383). -/
def svcDigest (n a : Nat) : Nat := opDigest 0xF7 [(0, n, [a])]

/-- The function and argument of a request. -/
def SvcReq.words (q : SvcReq) : Nat × Nat := (fromBytes ((q.record.drop 12).take 4), fromBytes ((q.record.drop 16).take 4))

/-- A request posted before an abort, whose reply is still to come: the restart that makes it again takes it up (07 R200). -/
def State.pendingSvc (s : State) (c : Ctx) (n a : Nat) : Option Nat :=
  (((s.part c.l.part).svcs.filter fun k q => decide (q.group = c.uid ∧ q.words = (n, a)) && !c.g.waits q.frag (.svc k)).keys).head?

/-- SVC (17 R381): with no ring 0xFFFF_FFFF at once; with a full ring the request waits for a slot; once posted it waits for its reply. -/
def execSvc (f : FormC) (s : State) : Out :=
  let valued := f.func.getLsbD 0
  sysInstr s f.g [(1, f.dst)] (if valued then [(1, f.a)] else []) fun c _ =>
    let n := f.imm.toNat
    let a := if valued then c.g.lane f.a 0 else 0
    let put := fun (t : State) (v : Nat) => Act.done (t.writeRegs c.uid [.sca (opndIdx f.dst) (toWord v)])
    let p := s.part c.l.part
    match c.f.pend with
    | .svc _ => .wait 14 s
    | .done _ d => put (s.record c.uid .svc 0xF7 (d.take 1) (svcDigest n a)) (d.getD 0 0)
    | _ =>
      match s.consult c .svc 0xF7 (svcDigest n a) with
      | .diverged t => .placed t
      | .replay d t => put t (d.getD 0 0)
      | .perform =>
        match s.pendingSvc c n a with
        | some k =>
          .wait 14 ((s.updPart c.l.part fun p => { p with svcs := p.svcs.upd k fun q => { q with frag := c.fid } }).updFrag c.uid c.fid fun z => { z with pend := .svc k })
        | none =>
        match p.svcRing with
        | none => put (s.record c.uid .svc 0xF7 [0xFFFFFFFF] (svcDigest n a)) 0xFFFFFFFF
        | some r =>
          if r.entries ≤ r.windex - fromBytes (Memory.readN s.mem (r.desc + 0x20) 8) then .wait 14 s
          else
            let rec_ := svcRecord c.l c.b c.g valued n a p.svcSeq
            let x := ringPut s.mem r 32 rec_
            let q : SvcReq := { group := c.uid, frag := c.fid, record := rec_ }
            let s1 : State := (s.updPart c.l.part fun p => { p with
              svcRing := some x.2, svcSeq := (p.svcSeq + 1) % 2 ^ 32, svcs := p.svcs.put p.svcSeq q }).pokes x.1
            .wait 14 (s1.updFrag c.uid c.fid fun z => { z with pend := .svc p.svcSeq })

/-- REPLY (17 R381): refused where no request of the number waits; a request that an abort has overtaken is answered in the log for the restart (07 R200). -/
def execReply (part seq : Nat) (value : Word) (s : State) : Out :=
  .next (match (s.part part).svcs.get seq with
    | none => s.denied
    | some q =>
      let s1 := s.updPart part fun p => { p with svcs := p.svcs.del seq }
      match s.groups.get q.group with
      | none => s1.denied
      | some g =>
        if g.life ≠ .live then s1.denied
        else
          let digest := svcDigest q.words.1 q.words.2
          if g.waits q.frag (.svc seq) then s1.answer q.group q.frag (.svc seq) (.done 0xF7 [value.toNat, digest])
          else s1.putGroup q.group { g with replay := g.replay ++ [{ kind := .svc, op := 0xF7, data := [value.toNat], digest := digest }] })

/-- A ring descriptor of 17 R382 at an address in host or device memory; none where it breaks the rules. -/
def State.ringAt (s : State) (a : Nat) : Option Ring :=
  let f := fun (o n : Nat) => fromBytes ((s.hostRead (a + o) n).1)
  let base := f 0 16
  let n := f 0x10 4
  let ok := decide (a % 64 = 0) && (isHost a || isDevice a) && [16, 32, 64, 128, 256, 512, 1024, 2048, 4096, 8192, 16384, 32768, 65536].contains n
    && decide (base < 2 ^ 80) && decide (base % (32 * max n 1) = 0) && decide (f 0x28 24 = 0)
  if ok then some { desc := a, base := base, entries := n, windex := f 0x18 8, dropped := f 0x14 4 } else none

/-- SERVICE_RING_REGISTER (17 R382), through the partition's virtual function (22 R427). -/
def execServiceRingRegister (part address : Nat) (s : State) : Out :=
  s.throughVf part (match s.ringAt address with
    | none => s.denied
    | some r => s.updPart part fun p => { p with svcRing := some r })

/-- ADMIN_QUEUE_REGISTER (17 R382). -/
def execAdminQueueRegister (address : Nat) (s : State) : Out :=
  .next (match s.ringAt address with
    | none => s.denied
    | some r => { s with adminRing := some r })

end Sys2Proof.Machine
end

