-- ==== Sys2Proof/Machine/Partition.lean ====
section
/-! DEFINITION. What the host and the drivers write (chapter 13): partition records (R291 to R293), range tables (R306), region attribute files (R305), invalidations (R308), counters (R296), tenant keys (R312), the expert table (06 R164) and the check area (16 R344); and the retirement of versions (09 R232). -/

namespace Sys2Proof.Machine
open Sys2Proof

/-! ### Refusal and reduction -/

/-- The command status of a front end (13 R291). -/
def State.accepted (s : State) (part : Nat) (ok : Bool) : State := s.updPart part fun p => { p with status := ok }

/-- A command that the front end refuses: nothing changes but its status. -/
def State.refusedBy (s : State) (part : Nat) : State := s.denied.accepted part false

/-- Whether a partition holds a resident block, a queued block or a pending job (13 R293). -/
def State.partBusy (s : State) (part : Nat) : Bool :=
  (s.launches.rows.any fun r => r.2.part == part && r.2.ended.isNone) || (s.jobs.rows.any fun r => r.2.part == part)
    || !(s.resident part).isEmpty

/-- The groups of a partition. -/
def State.partGroups (s : State) (part : Nat) : List Nat :=
  (s.groups.filter fun _ g => match s.blocks.get g.block with
    | some b => (match s.launches.get b.launch with | some l => l.part == part | none => false)
    | none => false).keys

/-- What a partition has handed to its open round is in DRAM, as the writes of the host to its ranges (13 R293 step 2), and so are its closed versions: none of its own snapshots is left to need an older one (09 R232). A line that another partition has versions of keeps them all, by which that one's groups see only what a gate has announced (09 R243). -/
def State.writeBack (s : State) (part : Nat) : State :=
  let s1 := if (s.part part).roundOpen then (s.closeLines part).1 else s
  let held := fun (line : Nat) => s1.versions.any fun v => decide (v.line = line ∧ v.part.isSome ∧ v.part ≠ some part)
  let own := fun (line : Nat) => s1.versions.any fun v => decide (v.line = line ∧ v.part = some part)
  { s1 with versions := s1.versions.filter fun v => held v.line || !own v.line }

/-- The reduction of 13 R293: unpublished stores, greenware, update-only copies and pending lines are discarded, dirty lines are in DRAM, and the lines of the removed colours and every translation of the partition are invalidated. What a removed cluster held is gone with its blocks; where the partition is disabled (`off`), so is what waits for its pages. -/
def State.reduce (s : State) (part : Nat) (gone : BitVec 16) (off : Bool) : State :=
  let us := s.partGroups part
  let s := (s.dropPrivate fun h => h.part == part).writeBack part
  { s with
    buffer := s.buffer.filter fun b => !us.contains b.group,
    updates := s.updates.filter fun u => !us.contains u.group,
    green := s.green.filter fun h => h.part != part,
    bounce := s.bounce.filter fun b => !(off && b.part == part),
    usedPages := s.usedPages.filter fun e => e.part != part,
    l2 := s.l2.map fun _ ls => ls.filter fun e => !(e.part == part && gone.getLsbD (e.set / 64)),
    tlbCore := s.tlbCore.map fun _ es => es.filter fun e => e.part != part,
    tlbDie := s.tlbDie.map fun _ es => es.filter fun e => e.part != part }

/-! ### Partition records -/

/-- The rules of 13 R291 on a record's own fields, and on those of every virtual device. -/
def confOk (c : PartConfig) : Bool :=
  decide (c.base ≤ c.limit ∧ c.limit ≤ 79) && decide (c.colours ≠ 0) && c.vdevs.getLsbD 0 && decide (c.lendTo < 16)
    && (List.range 8).all fun v =>
      decide (1 ≤ c.weights.getD v 0 ∧ c.weights.getD v 0 ≤ 255) && decide (1 ≤ c.caps.getD v 0 ∧ c.caps.getD v 0 ≤ 100)
        && decide (c.boosts.getD v 0 ≤ 65535) && decide (c.ways.getD v 0 ≠ 0)

/-- Whether two range entries of different partitions may stand together (13 R306): not overlapping in one kind but where each names the other, and never one DRAM position under two placements (01 R22). -/
def rangesAgree (p q : Nat) (a b : RangeEntry) : Bool :=
  let meets := decide (a.kind = b.kind) && decide (a.base ≤ b.limit) && decide (b.base ≤ a.limit)
  (!meets || (a.share.getLsbD q && b.share.getLsbD p)) && !(decide (a.kind = 0 ∧ b.kind = 0) && a.local_ != b.local_ && crosses a b)
where
  /-- whether granules lo to hi of a die, hashed, hold a position of a channel -/
  hashedHits (lo hi ch pos : Nat) : Bool :=
    let g := 80 * pos + (ch + 80 - (pos ^^^ (pos >>> 5) ^^^ (pos >>> 11)) % 80) % 80
    decide (lo ≤ g ∧ g ≤ hi)
  /-- whether a hashed and a die-local range of one die reach one position -/
  crosses (a b : RangeEntry) : Bool :=
    let h := if a.local_ then b else a
    let l := if a.local_ then a else b
    let gr := fun (x : Nat) => x % dieStride / 512
    if h.base / dieStride ≠ l.base / dieStride then false
    else
      let lo := gr h.base
      let hi := gr h.limit
      (List.range 80).any fun ch =>
        let first := max (gr l.base) (3145728 * ch) - 3145728 * ch
        let last := min (gr l.limit) (3145728 * ch + 3145727)
        if last < 3145728 * ch ∨ 3145728 * ch + 3145727 < gr l.base then false
        else
          let last := last - 3145728 * ch
          decide (max first ((lo + 79) / 80) < min (last + 1) ((hi + 1) / 80))
            || [lo / 80, hi / 80].any fun pos => decide (first ≤ pos ∧ pos ≤ last) && hashedHits lo hi ch pos

/-- Whether an entry is clear of the partition's other entries (13 R306: overlap is permitted only between partitions; DEDUCED, log 64): no address of one partition has two placements. -/
def Part.rangeClear (p : Part) (index : Nat) (e : RangeEntry) : Bool :=
  p.ranges.rows.all fun x => x.1 == index || !x.2.valid || decide (x.2.limit < e.base) || decide (e.limit < x.2.base)

/-- Whether an entry agrees with those of every other enabled partition. -/
def State.rangeFits (s : State) (part : Nat) (e : RangeEntry) : Bool :=
  s.parts.rows.all fun r => r.1 == part || !r.2.enable || r.2.ranges.rows.all fun x => !x.2.valid || rangesAgree part r.1 e x.2

/-- The rules of 13 R291 between partitions. -/
def State.confFits (s : State) (part : Nat) (c : PartConfig) : Bool :=
  !c.enable || (decide (s.dev ≠ .maintenance)
    && (s.parts.rows.all fun r => r.1 == part || !r.2.enable
      || ((decide (c.limit < r.2.base) || decide (r.2.limit < c.base)) && decide (c.colours &&& r.2.colours = 0)))
    && (s.part part).ranges.rows.all fun x => !x.2.valid || s.rangeFits part x.2)

/-- A record with the values of a write. -/
def Part.configured (p : Part) (c : PartConfig) : Part :=
  { p with
    enable := c.enable, base := c.base, limit := c.limit, colours := c.colours, vdevs := c.vdevs, lendOn := c.lendOn,
    lendTo := c.lendTo, autoReclaim := c.autoReclaim,
    vdev := (List.range 8).foldl (fun (t : Table Vdev) v =>
      t.put v { (t.getD v Vdev.reset) with
        weight := c.weights.getD v 0, cap := c.caps.getD v 0, boost := c.boosts.getD v 0, ways := c.ways.getD v 0 }) p.vdev }

/-- PARTITION_CONFIG_WRITE (13 R291, R293, R312). -/
def execPartitionConfigWrite (part : Nat) (conf : PartConfig) (s : State) : Out :=
  let p := s.part part
  let moves := conf.base != p.base || conf.limit != p.limit || conf.colours != p.colours || (p.enable && !conf.enable)
  .next (if 15 < part || !confOk conf || !s.confFits part conf || (moves && s.partBusy part) then s.refusedBy part
    else
      let off := p.enable && !conf.enable
      let gone := if off then p.colours else p.colours &&& ~~~conf.colours
      let shrinks := off || decide (gone ≠ 0) || decide (p.base < conf.base) || decide (conf.limit < p.limit)
      let s1 := if p.enable && shrinks then s.reduce part gone off else s
      let s2 : State := { s1 with
        parts := s1.parts.put part ((s1.part part).configured conf),
        keys := s1.keys.filter fun k _ => !(k / 8 == part && (!conf.enable || !conf.vdevs.getLsbD (k % 8))) }
      s2.accepted part true)

/-! ### Range tables -/

/-- Whether a range lies in what its kind may reach (13 R306, 01 R21): DRAM of one die below its bounce buffer, the host's aperture, or that of the peer it names. -/
def RangeEntry.inPlace (e : RangeEntry) : Bool :=
  match e.kind with
  | 0 => decide (e.base / dieStride = e.limit / dieStride) && isDevice e.limit && !isBounce e.limit
  | 1 => isHost e.base && isHost e.limit
  | _ => decide (peerOf e.base = some e.peer ∧ peerOf e.limit = some e.peer)

/-- The newest data of lines that a partition gains become its own present version (09 R238); not of a line that the range of another enabled partition holds, whose versions it sees by their gate stamps alone (R243). -/
def State.gainRange (s : State) (part : Nat) (e : RangeEntry) : State :=
  let p := s.part part
  let others := fun (line : Nat) => s.parts.rows.any fun r => r.1 != part && r.2.enable && !(r.2.rangesOver (128 * line)).isEmpty
  let lines := ((s.versions.filter fun v =>
    decide (e.base / 128 ≤ v.line ∧ v.line ≤ e.limit / 128) && !others v.line
      && !s.versions.any fun w => w.line == v.line && decide (w.part = some part)).map fun v => v.line).eraseDups
  lines.foldl (fun (s : State) line =>
    let n := s.newest line
    let v : Version := { line := line, part := some part, round := p.round, seq := s.vseq + 1, data := n.1,
                         poison := n.2, share := 0, stamps := Table.empty, vdev := 0 }
    { s with versions := v :: s.versions, vseq := s.vseq + 1 }) s

/-- RANGE_TABLE_WRITE (13 R306, R293). -/
def execRangeTableWrite (part index : Nat) (entry : BitVec 128) (s : State) : Out :=
  .next (match rangeOf entry with
    | none => s.refusedBy part
    | some e =>
      let old := (s.part part).ranges.get index
      if 15 < part || 15 < index || s.partBusy part || (e.valid && (!e.inPlace || !(s.part part).rangeClear index e || !s.rangeFits part e)) then s.refusedBy part
      else
        let had := match old with | some o => o.valid | none => false
        let s1 := if had && decide (old ≠ some e) then s.reduce part 0 false else s
        let s2 := s1.updPart part fun p => { p with ranges := p.ranges.put index e }
        (if e.valid then s2.gainRange part e else s2).accepted part true)

/-! ### Region attribute files and invalidations -/

/-- REGION_ATTRIBUTE_WRITE (13 R305), through the partition's virtual function (22 R427): in effect from the invalidation that names the region. -/
def execRegionAttributeWrite (part vdev index : Nat) (entry : BitVec 128) (s : State) : Out :=
  s.throughVf part (match regionOf entry with
    | none => s.refusedBy part
    | some r =>
      if 7 < vdev ∨ 15 < index then s.refusedBy part
      else (s.updPart part fun p => { p with vdev := p.vdev.put vdev { (p.vd vdev) with
        written := (p.vd vdev).written.put index r } }).accepted part true)

/-- The readers that a repeat run of a segment can be (09 R232): at each snapshot number, with each import mark, that its entry states and the logs of its parts, over or still running, record. Private layers lie over what they read and keep nothing. -/
def State.loggedReaders (s : State) (k : Nat) (ch : Check) (part : Nat) : List Reader :=
  let running := (s.groups.rows.filter fun r => match s.blocks.get r.2.block with | some b => b.check == some k && b.run == 1 | none => false)
  let logs := (ch.logs.rows.flatMap (·.2)) ++ running.flatMap fun r => r.2.log
  let snaps := (ch.entries.rows.map (·.2.snap) ++ logs.filterMap LogEntry.snapOf).eraseDups
  let marks := (ch.entries.rows.map (·.2.mark) ++ logs.filterMap LogEntry.markOf).eraseDups
  snaps.flatMap fun n => marks.map fun m => { party := .jobs 17 none, part := part, snap := n, mark := m, layer := none, seg := 0 }

/-- The readers that live snapshots, and snapshots still to be taken, stand for (09 R232, R243): groups and jobs that have not ended, the log of a run not yet checked, and groups to come at the newest closed round with any mark a gate can give, or that a launch, or a gate's result that is still to be taken, holds. -/
def State.readers (s : State) : List Reader :=
  let live := s.groups.rows.filterMap fun r =>
    if r.2.life = .ended then none
    else (s.groupCtx r.1).map fun c => c.reader
  let saved := s.groups.rows.filterMap fun r =>
    (s.groupCtx r.1).bind fun c => r.2.restart.map fun e => { c.reader with mark := e.mark }
  let jobs := s.jobs.rows.filterMap fun r =>
    (s.groupCtx r.2.group).map fun c => c.jobReader r.2
  let logged := s.checks.rows.flatMap fun r =>
    match s.launches.get r.2.launch with
    | some l => if r.2.decided then [] else s.loggedReaders (checkOf r.1) r.2 l.part
    | none => []
  let queued := s.launches.rows.map fun r => r.2.mark
  let given := s.groups.rows.flatMap fun r =>
    (r.2.frags.rows.filterMap fun x => match x.2.pend with | .done _ d => d[21]? | _ => none) ++ r.2.replay.filterMap LogEntry.markOf
  let marks := (0 :: (s.gates.rows.map fun g => g.2.stamp) ++ live.map (fun r => r.mark) ++ queued ++ given).eraseDups
  let future := s.parts.rows.flatMap fun p => marks.map fun m =>
    ({ party := .jobs 17 none, part := p.1, snap := p.2.round, mark := m, layer := none, seg := 0 } : Reader)
  live ++ saved ++ jobs ++ logged ++ future

/-- Whether a running launch fetches the words of a page as a version has them (02 R31). -/
def State.fetches (s : State) (v : Version) : Bool :=
  s.codePages.any fun c => decide (c.frame ≤ 128 * v.line ∧ 128 * v.line < c.frame + 2 ^ c.shift)
    && decide (s.versions.find? (fun w => decide (w.line = v.line ∧ w.seq ≤ c.seq)) = some v)

/-- VERSION_RETIRE (09 R232): a version that no live snapshot can reach, and no fetch, is retired. -/
def execVersionRetire (part line round : Nat) (s : State) : Out :=
  .next (match s.versions.find? fun v => decide (v.line = line ∧ v.part = some part ∧ v.round = round) with
    | none => s
    | some v =>
      let newest := match s.versions.find? fun w => decide (w.line = line) with
        | some w => decide (w = v)
        | none => true
      if newest || s.fetches v || s.readers.any fun rd => decide (s.versionFor rd line = some v) then s
      else { s with versions := s.versions.filter fun w => decide (w ≠ v) })

/-- Whether a page is named by an invalidation (13 R308): a region with a start and a length within it, or the whole context. -/
def pageNamed (range : Option (Nat × Nat × Nat)) (page shift : Nat) : Bool :=
  match range with
  | none => true
  | some (region, start, len) =>
    decide (page / 2 ^ 76 % 16 = region) && decide (start < page % 2 ^ 76 + 2 ^ shift) && decide (page % 2 ^ 76 < start + len)

/-- Whether an access of a virtual device that was translated through some pages is in flight (13 R308): of its groups or of its jobs. -/
def State.inFlight (s : State) (part vdev : Nat) (olds : List TlbEntry) : Bool :=
  let ofDev := fun (uid : Nat) => match s.groupCtx uid with | some c => decide (c.l.part = part ∧ c.l.hdr.vdev = vdev) | none => false
  let meets := fun (lo len : Nat) => olds.any fun e => decide (e.page < lo + len ∧ lo < e.page + 2 ^ e.shift)
  (s.groups.rows.any fun r => ofDev r.1 && r.2.flights.any fun f => !f.done && f.vas.any fun a => meets a 1)
    || s.jobs.rows.any fun r => r.2.part == part && (ofDev r.2.group || (decide (r.2.kind = JobKind.hostCopy) && vdev == 0))
      && decide (r.2.life ≠ .done) && (r.2.reads ++ r.2.writes).any fun x => x.space == 0 && meets x.lo x.len

/-- Whether the old frames of an invalidation have drained (13 R308): no access in flight, no unpublished store, pending line or greenware of the partition in them, and no live snapshot that needs a version other than the newest. -/
def State.drained (s : State) (part vdev : Nat) (range : Option (Nat × Nat × Nat)) : Bool :=
  let olds := s.usedPages.filter fun e => decide (e.part = part ∧ e.vdev = vdev) && pageNamed range e.page e.shift
  let inFrame := fun (line : Nat) => olds.any fun e => decide (e.frame ≤ 128 * line ∧ 128 * line < e.frame + 2 ^ e.shift)
  let us := s.partGroups part
  let needed := (s.versions.filter fun v => inFrame v.line).any fun v =>
    match s.versions.find? fun w => decide (w.line = v.line) with
    | some w => decide (w ≠ v) && s.readers.any fun rd => rd.part == part && decide (s.versionFor rd v.line = some v)
    | none => false
  !s.inFlight part vdev olds
    && !(s.buffer.any fun b => us.contains b.group && inFrame b.line) && !(s.updates.any fun u => us.contains u.group && inFrame (u.addr / 128))
    && !(s.green.any fun h => h.part == part && inFrame h.line) && !(s.handed.any fun h => h.part == part && inFrame h.line)
    && !((s.blocksOf part vdev).any fun x => x.2.1.pending.any fun w => olds.any fun e => w.va / 2 ^ e.shift * 2 ^ e.shift == e.page)
    && !needed

/-- TLB_INVALIDATION (13 R305, R308): the step at which the command completes; before that nothing of it can be seen. -/
def execTlbInvalidation (part vdev : Nat) (range : Option (Nat × Nat × Nat)) (s : State) : Out :=
  .next (if !s.drained part vdev range then s
    else
      let keep := fun (e : TlbEntry) => !(decide (e.part = part ∧ e.vdev = vdev) && pageNamed range e.page e.shift)
      let s1 : State := { s with
        tlbCore := s.tlbCore.map fun _ es => es.filter keep, tlbDie := s.tlbDie.map fun _ es => es.filter keep,
        usedPages := s.usedPages.filter keep }
      let named := fun (k : Nat) => match range with | none => true | some (r, _, _) => r == k
      (s1.updPart part fun p =>
        let d := p.vd vdev
        { p with vdev := p.vdev.put vdev { d with
          regions := (d.written.filter fun k _ => named k).rows.foldl (fun t x => t.put x.1 x.2) d.regions,
          written := d.written.filter fun k _ => !named k } }).accepted part true)

/-! ### Expert table, check area, counters, keys -/

/-- The location fields of an expert entry (06 R164); none where the write breaks its rules. -/
def expertOf (e : BitVec 512) (old : Expert) : Option Expert :=
  let f := fun (o n : Nat) => bitsAt e.toNat (8 * o) (8 * n)
  if f 56 8 ≠ 0 ∨ 1 < f 52 4 ∨ f 46 2 ≠ 0 ∨ f 38 2 ≠ 0 ∨ f 26 2 ≠ 0 ∨ f 10 2 = 3 ∨ 3 < f 10 2 ∨ f 12 4 % 64 ≠ 0 ∨ f 28 4 ≠ f 12 4 then none
  else some { old with valid := f 52 4 == 1, primary := BitVec.ofNat 80 (f 0 10), kind := f 10 2, len := f 12 4,
                       fallback := BitVec.ofNat 80 (f 16 10) }

/-- Whether a virtual address of a partition is device-resident: it lies in a region of kind device of one of its virtual devices, in effect or written (06 R164, 13 R305; DEDUCED, log 47). -/
def Part.deviceResident (p : Part) (va : Nat) : Bool :=
  p.vdev.rows.any fun v => [v.2.regions, v.2.written].any fun t => match t.get (va / 2 ^ 76) with
    | some r => r.valid && r.kind == 0
    | none => false

/-- EXPERT_TABLE_WRITE (06 R164): the location fields, the fallback's device-resident; the counters keep their values. -/
def execExpertTableWrite (part index : Nat) (entry : BitVec 512) (s : State) : Out :=
  .next (match expertOf entry ((s.part part).expert index) with
    | none => s.refusedBy part
    | some e =>
      if 4095 < index ∨ (e.valid ∧ !(s.part part).deviceResident e.fallback.toNat) then s.refusedBy part
      else (s.updPart part fun p => { p with experts := p.experts.put index e }).accepted part true)

/-- CHECK_AREA_REGISTER (16 R344): DRAM inside the partition's ranges, from 64 MiB upward. -/
def execCheckAreaRegister (part base bytes : Nat) (s : State) : Out :=
  let p := s.part part
  let unit := 2 ^ 26
  let inside := fun (pa : Nat) => (p.rangesOver pa).any fun e => decide (e.kind = 0)
  let ok := decide (unit ≤ bytes) && inside base && inside (base + bytes - 1)
    && (List.range (bytes / unit + 1)).all fun i => decide (bytes ≤ i * unit) || inside (base + i * unit)
  .next (if ok then (s.updPart part fun p => { p with checkBase := base, checkBytes := bytes }).accepted part true
    else s.refusedBy part)

/-- What the host reads of a counter (13 R296, 06 R164, 17 R377), which changes nothing: the registers of 17 R377 by their numbers, and the others by numbers of the model's (log 45): 0x022 with index virtual device + 8 × slice for occupancy, 0x050 for page requests, 0x051 with the die for bounce lines, 0x060 to 0x062 with the expert for its routed tokens, fetched bytes and fallbacks. -/
def State.counterRead (s : State) (part register index : Nat) : Nat :=
  match register with
  | 0x022 => s.occupancyIn (index / 8) part (index % 8)
  | 0x050 => (s.part part).pageCount
  | 0x051 => (s.bounce.filter fun b => b.counted && b.die == index).length
  | 0x060 => ((s.part part).expert index).routed
  | 0x061 => ((s.part part).expert index).fetched
  | 0x062 => ((s.part part).expert index).fell
  | n => s.sysRead part (index % 8) n

/-- COUNTER_WRITE (13 R296, 07 R202, 12 R288, 17 R377), of a counter by the number that it is read by, through the partition's virtual function (22 R427; log 28). A write of zero clears a counter; others are ignored. -/
def execCounterWrite (part register index value : Nat) (s : State) : Out :=
  let expert := fun (h : Expert → Expert) => s.updPart part fun p => { p with experts := p.experts.upd index h }
  s.throughVf part (match register with
    | 0x022 =>
      if value = 0 then
        { s with l2 := s.l2.upd (index / 8) fun ls => ls.map fun e => if e.part = part ∧ e.vdev = index % 8 then { e with vdev := 8 } else e }
      else s
    | 0x050 => if value = 0 then s.updPart part fun p => { p with pageCount := 0 } else s
    | 0x051 => if value = 0 then { s with bounce := s.bounce.map fun b => if b.die = index then { b with counted := false } else b } else s
    | 0x060 => if value = 0 then expert fun e => { e with routed := 0 } else s
    | 0x061 => if value = 0 then expert fun e => { e with fetched := 0 } else s
    | 0x062 => if value = 0 then expert fun e => { e with fell := 0 } else s
    | n => s.sysWrite part (index % 8) n value)

/-- TENANT_KEY_LOAD (13 R312): the slot of a configured virtual device. -/
def execTenantKeyLoad (part vdev : Nat) (key : BitVec 256) (s : State) : Out :=
  let p := s.part part
  .next (if 15 < part ∨ 7 < vdev ∨ !p.enable ∨ !p.vdevs.getLsbD vdev then s.denied
    else { s with keys := s.keys.put (8 * part + vdev) key })

/-- TENANT_KEY_CLEAR (13 R312). -/
def execTenantKeyClear (part vdev : Nat) (s : State) : Out := .next { s with keys := s.keys.del (8 * part + vdev) }

end Sys2Proof.Machine
end

