-- ==== Sys2Proof/Machine/Kiln.lean ====
section
/-! DEFINITION. Redundant execution (chapter 16): the start of shadow and keeping runs, and of those in place of a disregarded one (R339 to R341, R356), the kiln's decision (R350, R351), the restart of a primary that lost (R352), demerits and setting aside (R353), and the cone test rotation (R355, R356). -/

namespace Sys2Proof.Machine
open Sys2Proof

/-! ### Starting a repeat run -/

/-- A group of a repeat run at its entry state (16 R337, R345): k0 to k31 and the fragment of the point, the rest undefined, and its primary's log to follow. -/
def RestartPt.repeats (e : RestartPt) (bid idx core quarter seg : Nat) (seq : Bool) (log : List LogEntry) : Group :=
  let g := Group.start bid idx core quarter e.snap e.mark 0 e.frag
  let ks := if seq ∧ e.ks.isEmpty then List.replicate 4 0 else e.ks
  { g with
    seq := seq, sregs := (ks.zipIdx).foldl (fun t x => t.put x.2 x.1) Table.empty, exited := allLanes &&& ~~~e.mask, marks := seg,
    replay := log.filter fun x => !x.isKeyed, keyed := log.filter fun x => x.isKeyed }

/-- One block of a repeat run, on its cores, with the groups that have a part in the segment. -/
def State.startRunBlock (s : State) (ch : Check) (k kind i : Nat) (l : Launch) (set : Option Nat) (p : Placed) : State × Nat :=
  let bid := s.uid
  let index := ch.index + i
  let lo := if set.isSome then 32 * i else 0
  let mine := ch.present.filter fun x => decide (lo ≤ x ∧ x < lo + 31)
  let wins := (mine.findSome? fun x => (ch.entries.get x).map RestartPt.unfilled).getD Table.empty
  let b := { Block.start ch.launch index (blockWork l.hdr index) kind p.cores p.lcluster p.lcores with
             check := some k, set := set, seg := ch.seg, windows := wins, undef := if ch.seg = 0 then none else some s.free }
  let s1 : State := { s with blocks := s.blocks.put bid b, uid := s.uid + 1, free := s.free + 1 }
  let s2 := mine.foldl (fun (s : State) x =>
    match ch.entries.get x with
    | none => s
    | some e =>
      let core := p.cores.getD (l.coreOf p.cores.length (x - lo)) 0
      (s.addGroup bid (e.repeats bid (x - lo) core (s.quarter core) ch.seg false (ch.logs.getD x []))).giveOwn s.uid bid
        (some { check := k, run := kind, index := index }) e.own) s1
  (s2.noteHeld p.cores { segName l b ch.seg with check := some (checkKey k ch.seg) }, bid)

/-- A pending run is admitted (16 R339, R340): the blocks of the unit, and in a tile set its sequencer. A placement nearer than the launch's distance is counted. -/
def State.startRun (s : State) (key kind cl : Nat) (ch : Check) (l : Launch) (p : Placed) : State :=
  let k := checkOf key
  let n := (s.checkUnit ch).length
  let near := match s.distanceFor l ch n kind with | some d => decide (d < l.hdr.distance) | none => false
  let s0 := if near then s.count 12 1 (some l.part) else s
  let cores := if l.hdr.tile ≠ 0 then p.cores
    else (ch.present.map fun x => p.cores.getD (l.coreOf p.cores.length x) 0).eraseDups
  let run := fun (bid : Nat) => ({ SegRun.idle with life := .running, block := bid, cores := cores } : SegRun)
  if l.hdr.tile = 0 then
    let r := s0.startRunBlock ch k kind 0 l none p
    { r.1 with checks := r.1.checks.upd key fun c => { c with runs := c.runs.put kind (run r.2) } }
  else
    let set := s0.uid
    let r := (List.range n).foldl (fun (a : State × List Nat) i =>
      let one : Placed := { cores := [p.cores.getD i 0], lcluster := p.lcluster, lcores := [i] }
      let y := a.1.startRunBlock ch k kind i l (some set) one
      (y.1, a.2 ++ [y.2])) (({ s0 with uid := s0.uid + 1 } : State), ([] : List Nat))
    let anchor := r.2.headD 0
    let seqr := r.1.uid
    let s1 := match ch.entries.get 31 with
      | some e => r.1.addGroup anchor (e.repeats anchor 0 (p.cores.headD 0) 0 0 true (ch.logs.getD 31 []))
      | none => r.1
    { s1 with
      sets := s1.sets.put set (TileSet.start ch.launch r.2 seqr cl p.lcluster),
      checks := s1.checks.upd key fun c => { c with runs := c.runs.put kind (run anchor) } }

/-- The start of a pending run of some kinds, where it is the head of its admission order and fits. -/
def State.tryRun (s : State) (key : Nat) (kinds : List Nat) : State :=
  match s.checks.get key with
  | none => s
  | some ch =>
    match s.launches.get ch.launch with
    | none => s
    | some l =>
      match s.admission l.part with
      | some (.run a b, cl, p) => if a = key ∧ kinds.contains b then s.startRun key b cl ch l p else s
      | _ => s

/-- SHADOW_RUN_START (16 R341). -/
def execShadowRunStart (check : Nat) (s : State) : Out := .next (s.tryRun check [2])

/-- KEEPING_RUN_START (16 R341): also of a run in place of a disregarded primary, which holds greenware as that did (R356). -/
def execKeepingRunStart (check : Nat) (s : State) : Out := .next (s.tryRun check [3, 4])

/-! ### Cores (16 R353) -/

/-- A core's record changed, and the Kilsy record with it (16 R357). -/
def State.updCore (s : State) (core : Nat) (h : CoreRec → CoreRec) : State :=
  { s with coreRecs := s.coreRecs.put core (h (s.core core)), kilsySeq := s.kilsySeq + 1, kilsyTime := s.now }

/-- A core's passed check, by which demerits expire after 2^20 (16 R353). -/
def CoreRec.passCheck (r : CoreRec) : CoreRec :=
  { r with demerits := (r.demerits.map (· + 1)).filter fun n => decide (n < 2 ^ 20) }

/-- Every core of some runs has passed a check; a count that only ages demerits rewrites the record where one expires. -/
def State.passChecks (s : State) (cores : List Nat) : State :=
  cores.eraseDups.foldl (fun (s : State) c =>
    let r := s.core c
    if r.demerits.isEmpty then s
    else if r.passCheck.demerits.length = r.demerits.length then { s with coreRecs := s.coreRecs.put c r.passCheck }
    else s.updCore c CoreRec.passCheck) s

/-- A core is set aside (16 R353): it admits nothing more, and leaves the map once nothing is on it (01 R26). -/
def State.setAside (s : State) (core : Nat) (scan : Bool) : State :=
  (s.updCore core fun r => { r with aside := r.aside || !scan, scanFailed := r.scanFailed || scan, testing := false, targeted := false }).logError
    { ty := 0x0F, code := 0, unit := 8, owner := (s.holderOf (core / 4)).map fun p => (p, 0), core := core, bank := 0, line := 0,
      launch := 0xFFFFFFFF, block := 0xFFFFFFFF }

/-- One more demerit; a core with four is set aside (16 R353). -/
def State.demerit (s : State) (core : Nat) : State :=
  let s1 := s.updCore core fun r => { r with demerits := 0 :: r.demerits }
  if (s1.core core).demerits.length < 4 then s1 else s1.setAside core false

/-- Charged cores drain for a targeted cone test (16 R353). -/
def State.chargeRun (s : State) (cores : List Nat) : State :=
  cores.eraseDups.foldl (fun (s : State) c =>
    s.updCore c fun r => { r with charges := min (r.charges + 1) 65535, testing := true, targeted := true }) s

/-! ### Comparing runs (16 R348, R351) -/

/-- A run's four accumulators, over its groups. -/
def SegRun.totals (r : SegRun) : List Nat :=
  let sum := fun (f : Sums → BitVec 64) => (r.sums.rows.foldl (fun (a : BitVec 64) x => a + f x.2) 0).toNat
  [sum (·.store), sum (·.stores), sum (·.reg), sum (·.regs)]

/-- Whether a run has come to its end. -/
def SegRun.over (r : SegRun) : Bool := decide (r.life = .closed ∨ r.life = .diverged)

/-- Two runs agree: both closed with equal accumulators. -/
def SegRun.agrees (a b : SegRun) : Bool :=
  !a.void && !b.void && decide (a.life = .closed ∧ b.life = .closed) && decide (a.totals = b.totals)

/-- Two repeat runs that stopped at one logged operation with one digest, and equal accumulators (16 R351). -/
def SegRun.stopsWith (a b : SegRun) : Bool :=
  !a.void && !b.void && decide (a.life = .diverged ∧ b.life = .diverged) && a.stopOp.isSome && decide (a.stopOp = b.stopOp)
    && decide (a.totals = b.totals)

/-- A run of a check. -/
def Check.run (ch : Check) (kind : Nat) : SegRun := ch.runs.getD kind SegRun.idle

/-- The kind of the run that counts as the primary's: the one in its place where it is disregarded (16 R356). -/
def Check.first (ch : Check) : Nat := if (ch.runs.get 4).isSome then 4 else 1

/-! ### What a decision does -/

/-- The blocks of a run leave their cores. -/
def State.endRun (s : State) (r : SegRun) : State :=
  if r.life ≠ .running then s
  else
    let us := s.unit r.block
    let mine := (s.groups.filter fun _ g => us.contains g.block).keys
    let set := (s.blocks.get r.block).bind fun (b : Block) => b.set
    { us.foldl (fun (s : State) i => s.updBlock i fun b => { b with life := .ended, hold := none, quiesce := none })
        { s with
          groups := s.groups.map fun _ g => if us.contains g.block then { g with life := .ended, frags := Table.empty } else g,
          buffer := s.buffer.filter fun b => !mine.contains b.group,
          updates := s.updates.filter fun u => !mine.contains u.group,
          jobs := s.jobs.filter fun _ j => !us.contains j.block } with
      sets := match set with | some t => s.sets.upd t fun x => { x with ended := true, queue := [] } | none => s.sets }

/-- Whether a store is one of a run's layers. -/
def Handed.ofRun (h : Handed) (k kind : Nat) : Bool := match h.layer with | some y => y.check == k && y.run == kind | none => false

/-- The layer of a run, from a segment on or of one alone, is discarded. -/
def State.dropLayer (s : State) (k kind seg : Nat) (above : Bool) : State :=
  let gone := fun (h : Handed) => h.ofRun k kind && (if above then decide (seg ≤ h.seg) else h.seg == seg)
  { s.dropPrivate gone with handed := s.handed.filter fun h => !gone h }

/-- The greenware of a run's segment fires (16 R342). -/
def State.fireRun (s : State) (k kind seg : Nat) : State := s.fire fun h => h.ofRun k kind && h.seg == seg

/-- The segment is decided. -/
def State.decided (s : State) (key : Nat) : State := { s with checks := s.checks.upd key fun ch => { ch with decided := true } }

/-- An error entry of a check, for each line of a list or once, in the record of the kiln that decides it, that of the lowest die the primary ran on (16 R350); an operation is named to its partition by its address (17 R374, R375, 16 R351; log 68). -/
def State.checkEntry (s : State) (ty code : Nat) (ch : Check) (l : Launch) (lines : List Nat) (op : Option (Nat × Nat × Nat)) : State :=
  let cores := (ch.run ch.first).cores
  let core := cores.foldl min (cores.headD 0)
  let entry := fun (line : Nat) =>
    ({ ty := ty, code := code, unit := 7, owner := some (l.part, l.hdr.vdev), core := core, bank := 0, line := line,
       va := op.elim 0 (·.2.2 % 2 ^ 64), launch := l.ident, block := ch.index } : ErrEntry)
  if lines.isEmpty then s.logError (entry 0) else lines.foldl (fun s x => s.logError (entry (128 * x))) s

/-- CHECK_UNRESOLVED or ESCAPED_MISMATCH ends the launch (16 R351). -/
def State.endChecked (s : State) (code : Code) (counter : Nat) (ch : Check) (l : Launch) (lines : List Nat) (op : Option (Nat × Nat × Nat)) : State :=
  ((s.checkEntry 0x0D (codeNum code) ch l lines op).count counter 1 (some l.part)).endLaunch ch.launch 0x05 (codeNum code)

/-! ### A primary that starts a segment anew (16 R352, R356) -/

/-- The log entries of a group that a restart at a segment replays: those of its parts from there on, in order, with the outcomes still to be taken (16 R352, 07 R200). -/
def State.laterLog (s : State) (k seg slot part : Nat) (g : Group) : List LogEntry :=
  let marks := (List.range (g.marks - seg)).map fun i => seg + i
  ((marks.flatMap fun n => match s.checks.get (checkKey k n) with
    | some ch => ch.logs.getD slot []
    | none => []) ++ g.log ++ s.outcomes g part ++ g.replay ++ g.keyed).filter LogEntry.kept

/-- A primary's group set back to the beginning of a segment, at the kernel entry for the first; one with no part of it has ended. -/
def State.setBack (s : State) (k seg slot part : Nat) (e : Option RestartPt) (g : Group) : Group :=
  let log := s.laterLog k seg slot part g
  let g1 := { g with frags := Table.empty, sibs := Table.empty, flights := [], delivered := [], late := [] }
  match e with
  | none => { g1 with life := .ended }
  | some p =>
    { g1 with
      life := .live, restart := if seg = 0 then none else some p,
      exited := allLanes &&& ~~~p.mask, marks := seg, log := [], base := g.issued, saved := [], doneMark := false,
      replay := log.filter fun x => !x.isKeyed, keyed := log.filter fun x => x.isKeyed }

/-- The place of a group in the records of a unit's segments: 31 is the sequencer's, and the blocks of a tile set stand 32 apart. -/
def slotIn (us : List Nat) (g : Group) : Nat := 32 * us.idxOf g.block + (if g.seq then 31 else g.idx)

/-- A primary is aborted and restarted at the beginning of a segment, from the states its groups entered it in: its block, or the whole of its tile set, which is formed anew (16 R352, R356). Its greenware from there on is discarded, and those segments are checked anew. -/
def State.restartFrom (s : State) (k seg : Nat) (ch : Check) (ends : Table RestartPt) : State :=
  let bid := (ch.run 1).block
  match s.blocks.get bid with
  | none => s
  | some b =>
    if b.life = .ended && b.set.isNone then s
    else
      let us := s.unit bid
      let part := ((s.launches.get ch.launch).map fun l => l.part).getD 0
      let later := s.checks.rows.filter fun r => decide (checkOf r.1 = k) && decide (seg ≤ r.2.seg)
      let s1 := later.foldl (fun (s : State) r => [2, 3, 4].foldl (fun s kind => s.endRun (r.2.run kind)) s) s
      let s2 := [1, 2, 3, 4].foldl (fun (s : State) kind => s.dropLayer k kind seg true) s1
      let uids := (s2.groups.filter fun _ g => us.contains g.block).keys
      let s3 : State := { s2.endWaits bid with
        buffer := s2.buffer.filter fun x => !uids.contains x.group,
        updates := s2.updates.filter fun u => !uids.contains u.group,
        ownPuts := s2.ownPuts.filter fun o => match o.party with
          | .group u => !uids.contains u
          | .jobs _ l => l.all fun y => y.check != k
          | .block i => !us.contains i,
        jobs := if b.set.isSome then s2.jobs.filter fun _ j => !us.contains j.block || decide (j.life ≠ .queued) else s2.jobs,
        sets := match b.set with
          | some t => s2.sets.upd t fun x => { TileSet.start x.launch x.blocks x.seqr x.cluster x.lcluster with again := true }
          | none => s2.sets,
        checks := s2.checks.filter fun key c => !(decide (checkOf key = k) && decide (seg ≤ c.seg)) }
      let back := fun (g : Group) =>
        if us.contains g.block then s2.setBack k seg (slotIn us g) part (ends.get (slotIn us g)) g else g
      let s4 : State := { s3 with groups := s3.groups.map fun _ g => back g }
      let next := ends.rows.foldl (fun (c : Check) x => c.enter x.1 [] x.2) (Check.start ch.launch ch.index seg bid [])
      let s5 : State := if ends.rows.isEmpty then s4 else { s4 with checks := s4.checks.put (checkKey k seg) next }
      let queue := fun (b : Block) => { b with
        life := if ends.rows.isEmpty then .ended else .queued, hold := none, quiesce := none, pending := [], pubPoison := none, pages := [],
        order := s5.uid, lost := true }
      { us.foldl (fun (s : State) i => s.updBlock i queue) s5 with uid := s5.uid + 1 }

/-! ### The decision -/

/-- The private versions of a run that has won become those of the block itself, which reads its earlier segments there (16 R339; log 10). -/
def State.adopt (s : State) (k kind seg : Nat) : State :=
  { s with past := s.past.map fun h => if h.ofRun k kind && h.seg == seg then { h with layer := h.layer.map fun y => { y with run := 1 } } else h }

/-- Whether a check cannot be made (16 R340, R344): its log is lost, a pending run has no placement that avoids the cores of an earlier one, or a repeat run finds no room. -/
def State.cannotCheck (s : State) (ch : Check) (l : Launch) : Bool :=
  let n := (s.checkUnit ch).length
  ch.skipped || [2, 3, 4].any fun kind => match (ch.run kind).life with
    | .pending => (s.distanceFor l ch n kind).isNone
    | .running => s.areaFull l.part
    | .none | .closed | .diverged => false

/-- The primary is right: it fires, and the repeat runs are discarded. Where another run stands in its place and has closed, that one fires and the primary's greenware is discarded, but under EARLY, where the primary held nothing (16 R356). -/
def State.firstWins (s : State) (key : Nat) (ch : Check) (l : Launch) : State :=
  let k := checkOf key
  let win := if ch.first = 4 ∧ (ch.run 4).life ≠ .closed then 1 else ch.first
  let s1 := ([2, 3, 4].foldl (fun (s : State) kind => s.endRun (ch.run kind)) s)
  let s2 := (s1.dropLayer k 2 ch.seg false).dropLayer k 3 ch.seg false
  let s3 := if l.hdr.early then s2.dropLayer k 4 ch.seg false
    else ((s2.dropLayer k (5 - win) ch.seg false).fireRun k win ch.seg).adopt k win ch.seg
  s3.decided key

/-- The keeping run is right: it fires, the primary's greenware is discarded, and its block goes back to the keeping run's end states (16 R351, R352). What escaped, or the operation `op` at which only the primary departed, ends the launch. -/
def State.keepWins (s : State) (key : Nat) (ch : Check) (l : Launch) (op : Option (Nat × Nat × Nat)) : State :=
  let k := checkOf key
  let s1 := [1, 2, 4].foldl (fun (s : State) kind => s.dropLayer k kind ch.seg false) s
  let s2 := ((s1.fireRun k 3 ch.seg).adopt k 3 ch.seg).decided key
  let lines := if l.hdr.early then ch.lines else ch.escaped
  if op.isSome || l.hdr.early || !lines.isEmpty then s2.endChecked .escapedMismatch 10 ch l lines op
  else s2.restartFrom k (ch.seg + 1) ch ch.endK

/-- KILN_DECISION (16 R350, R351): once the runs that a row of the table compares have come to their ends. Where all three differ and the keeping run stopped at an operation that the primary had performed with other operands, that operation is named too. -/
def State.kiln (s : State) (key : Nat) (ch : Check) (l : Launch) : State :=
  let p := ch.run ch.first
  let q := ch.run 2
  let k := ch.run 3
  let inj := p.injected || q.injected
  let own := some l.part
  if s.cannotCheck ch l && (p.over || ch.first == 4) then (s.firstWins key ch l).count 11 1 own
  else if !p.over || !q.over then s
  else if p.agrees q then
    ((s.firstWins key ch l).count 5 1 own).passChecks (p.cores ++ q.cores)
  else if k.life = .none then
    let s1 : State := { s with checks := s.checks.upd key fun c => { c with runs := c.runs.put 3 { SegRun.idle with life := .pending } } }
    (s1.checkEntry 0x0C 0 ch l [] none).count (if inj then 13 else 6) 1 own
  else if !k.over then s
  else if k.agrees p then
    let s1 := ((s.firstWins key ch l).count 7 1 own).passChecks (p.cores ++ k.cores)
    if inj || q.void then s1 else s1.chargeRun q.cores
  else if k.agrees q || k.stopsWith q then
    let s1 := (s.count 8 1 own).passChecks (q.cores ++ k.cores)
    (if inj || p.void then s1 else s1.chargeRun p.cores).keepWins key ch l (if k.agrees q then none else k.stopOp)
  else
    let s1 := if k.stopOp.isNone then s
      else (s.checkEntry 0x0D (codeNum .escapedMismatch) ch l [] k.stopOp).count 10 1 own
    (s1.decided key).endChecked .checkUnresolved 9 ch l (if l.hdr.early then ch.lines else []) none

/-- KILN_DECISION (16 R351). -/
def execKilnDecision (check : Nat) (s : State) : Out :=
  .next (match s.checks.get check with
    | none => s
    | some ch =>
      match s.launches.get ch.launch with
      | none => s
      | some l => if ch.decided || l.ended.isSome then s else s.kiln check ch l)

/-! ### The cone test rotation (16 R355, R356) -/

/-- The cores of a die in the order of its rotation. -/
def State.rotationOrder (s : State) (die : Nat) : List Nat :=
  let n := s.nextTest.getD die 0
  (List.range 80).map fun i => 80 * die + (n + i) % 80

/-- CONE_TEST (16 R355): the core next in rotation admits nothing more, and is drained where it holds blocks. -/
def execConeTest (die : Nat) (s : State) : Out :=
  let idle := !((List.range 80).any fun i => (s.core (80 * die + i)).testing)
  .next (if 3 < die ∨ !s.running ∨ !idle then s
    else
      match (s.rotationOrder die).find? fun c => (s.core c).good with
      | none => s
      | some c =>
        let s1 := s.updCore c fun r => { r with testing := true, targeted := false }
        { s1 with nextTest := s1.nextTest.put die ((c % 80 + 1) % 80) })

/-- Whether a core's test is running: nothing is on it any more (01 R26). -/
def State.underTest (s : State) (core : Nat) : Bool := (s.core core).testing && (s.blocksOn core).isEmpty

/-- A run that a failed core held is disregarded, and a new one takes its place (16 R356): a repeat run is made again; a primary whose segment has closed is made again from its log, its own greenware kept until that one is decided or cannot be made, and one still in the segment restarts it, with its whole tile set. -/
def State.disregardRun (s : State) (key : Nat) (ch : Check) (core kind : Nat) : State :=
  let k := checkOf key
  let r := ch.run kind
  let again := fun (s : State) (n : Nat) =>
    { s with checks := s.checks.upd key fun c => { c with runs := c.runs.put n { SegRun.idle with life := .pending } } }
  if !r.cores.contains core then s
  else
    match r.life with
    | .none | .pending => s
    | .running =>
      if kind = 1 then s.restartFrom k ch.seg ch ch.entries else again ((s.endRun r).dropLayer k kind ch.seg false) kind
    | .closed | .diverged =>
      if kind = 1 then
        if (ch.runs.get 4).isSome then s else again s 4
      else again ((s.endRun r).dropLayer k kind ch.seg false) kind

/-- The runs that a core which failed its test held, of segments not yet decided, are disregarded (16 R356). -/
def State.disregard (s : State) (core : Nat) : State :=
  (s.core core).held.foldl (fun (s : State) n =>
    match n.check with
    | none => s
    | some key => [1, 2, 3, 4].foldl (fun (s : State) kind => match s.checks.get key with
        | some ch => if ch.decided then s else s.disregardRun key ch core kind
        | none => s) s) s

/-- The suspect interval of a failed core (16 R356, R358); a full list drops its newest. -/
def State.suspect (s : State) (core : Nat) : State :=
  let r := s.core core
  let x : Suspect := { core := core, from_ := r.lastPass, at_ := s.now, segs := r.held }
  let s1 := if s.suspects.length < 64 then { s with suspects := s.suspects ++ [x] } else { s with suspectDropped := s.suspectDropped + 1 }
  s1.disregard core

/-- CONE_TEST_COMPLETE (16 R353, R355, R356). -/
def execConeTestComplete (core : Nat) (pass : Bool) (s : State) : Out :=
  let r := s.core core
  .next (if !s.underTest core then s
    else if !pass then (s.suspect core).setAside core true
    else
      let s1 := s.updCore core fun r => { r with
        testing := false, targeted := false, passed := min (r.passed + 1) (2 ^ 32 - 1), aborted := 0, lastPass := s.now, testedSince := true }
      if r.targeted then s1.demerit core else s1)

/-- CONE_TEST_ABORT (16 R355): by a launch of the abort priority or above that cannot otherwise be admitted, and can be with the core back in the map; the core is tested again before any other of its die. -/
def execConeTestAbort (core : Nat) (s : State) : Out :=
  let r := s.core core
  let back := s.updCore core fun r => { r with testing := false, aborted := min (r.aborted + 1) 255 }
  let wanted := s.parts.rows.any fun x => (List.range 8).any fun v =>
    match s.head x.1 v with
    | some (.fresh lid) =>
      (match s.launches.get lid with | some l => decide (s.abortPrio ≤ l.hdr.priority) | none => false) && (s.placeHead (.fresh lid)).isNone && (back.placeHead (.fresh lid)).isSome
    | _ => false
  .next (if !s.underTest core || r.targeted || !wanted then s
    else { back with nextTest := back.nextTest.put (dieOfCore core) (core % 80) })

end Sys2Proof.Machine
end

