-- ==== Sys2Proof/Machine/Errors.lean ====
section
/-! DEFINITION. Errors of the silicon (chapter 17): corrected errors and bank self-tests (R366, 16 R354), uncorrectable errors by where they lie (R368, R369), slices out of service (R371), links (R372), and routes to peers (R373). -/

namespace Sys2Proof.Machine
open Sys2Proof

/-! ### Owners (17 R367) -/

/-- The owner of a core or of a cluster's arrays. -/
def State.coreOwner (s : State) (core : Nat) : Option (Nat × Nat) := (s.holderOf (core / 4)).map fun p => (p, 0)

/-- The owner of a block's storage. -/
def State.blockOwner (s : State) (bid : Nat) : Option (Nat × Nat) := (s.launchOf bid).map fun l => (l.part, l.hdr.vdev)

/-- An error with its count, charged to its owner where it has one (17 R366, R367). -/
def State.siliconError (s : State) (ty code unit counter core line : Nat) (owner : Option (Nat × Nat)) : State :=
  (s.count counter 1 (owner.map (·.1))).logError
    { ty := ty, code := code, unit := unit, owner := owner, core := core, bank := 0, line := line, launch := 0xFFFFFFFF, block := 0xFFFFFFFF }

/-! ### Corrected errors -/

/-- The self-test of a bank is to follow at once (16 R354). -/
def State.testBank (s : State) (core unit : Nat) : State := { s with bankTests := s.bankTests ++ [(core, unit)] }

/-- A DRAM line's corrected error (17 R366); the core of its home slice owns the bank (01 R22). -/
def State.dramCorrected (s : State) (line : Nat) : State :=
  (s.siliconError 0x02 0 3 1 (s.home line) (128 * line) (s.lineOwner line)).testBank (s.home line) 3

/-- CORRECTED_ERROR (17 R366): of a DRAM line, or of a core's array or L2 slice. -/
def execCorrectedError (dram : Bool) (core unit line : Nat) (s : State) : Out :=
  .next (if dram then s.dramCorrected line
    else (s.siliconError 0x01 0 unit 0 core (128 * line) (if unit = 2 then s.l2Owner line else s.coreOwner core)).testBank core unit)

/-- PATROL_SCRUB (17 R366). -/
def execPatrolScrub (line : Nat) (corrected : Bool) (s : State) : Out :=
  .next (if corrected then s.dramCorrected line else s)

/-! ### Units out of service (16 R354, 17 R371) -/

/-- An L2 slice goes out of service: the blocks of every partition with lines in it are pre-empted, segments with greenware in it are decided as mismatched without charge, and its lines live on in their new home. A cluster with no slice left loses its cores. -/
def State.dropSlice (s : State) (core : Nat) : State :=
  let held := s.l2.getD core []
  let parts := (held.map fun e => e.part).eraseDups
  let hit := ((s.green.filter fun h => s.home h.line == core).filterMap fun h => h.layer.map fun x => (checkKey x.check h.seg, x.run)).eraseDups
  let s1 := parts.foldl (fun (s : State) p => s.orderAll (s.resident p) 3) s
  let s2 : State := { s1 with
    checks := hit.foldl (fun cs x => cs.upd x.1 fun c => { c with runs := c.runs.upd x.2 fun r => { r with void := true } }) s1.checks,
    l2 := s1.l2.del core }
  let s3 := (s2.updCore core fun r => { r with slice := false }).logError
    { ty := 0x10, code := 0, unit := 2, owner := none, core := core, bank := 0, line := 0, launch := 0xFFFFFFFF, block := 0xFFFFFFFF }
  let mates := (List.range 4).map fun i => core / 4 * 4 + i
  if mates.any fun c => (s3.core c).slice then s3
  else (mates.filter fun c => !(s3.core c).aside && !(s3.core c).scanFailed).foldl (fun s c => s.setAside c false) s3

/-- Whether a failing bank of a unit takes an L2 slice out of service, or a core: a bank of a slice its slice, of another array its core; of a DRAM channel either (log 69). -/
def bankTakes (unit : Nat) (slice : Bool) : Bool := unit == 3 || (unit == 2) == slice

/-- BANK_SELF_TEST (16 R354): one that an error has brought. A pass is a demerit for the owning core; a failure takes its slice, or the core, out of service. -/
def execBankSelfTest (core : Nat) (slice pass : Bool) (s : State) : Out :=
  .next (match s.bankTests.find? fun x => x.1 == core && bankTakes x.2 slice with
    | none => s
    | some x =>
      let s0 : State := { s with bankTests := s.bankTests.erase x, free := s.free + 1 }
      if Config.cores ≤ core then s0
      else if pass then s0.demerit core
      else
        let s1 := s0.logError { ty := 0x06, code := 0, unit := if slice then 2 else 0, owner := s.coreOwner core, core := core, bank := 0,
                                line := 0, launch := 0xFFFFFFFF, block := 0xFFFFFFFF }
        if slice then (if (s.core core).slice then s1.dropSlice core else s1) else s1.setAside core false)

/-! ### Uncorrectable errors (17 R369) -/

/-- A line of memory becomes poisoned (17 R368): its newest version and its home. Its owner is that of the L2 line, or of the DRAM line where no slice holds it (R367). -/
def State.poisonHome (s : State) (line : Nat) : State :=
  let s1 := s.notePoison line ((s.l2Owner line).or (s.lineOwner line))
  match s1.versions.find? fun v => decide (v.line = line) with
  | none => s1
  | some v => { s1 with versions := s1.versions.map fun w => if w = v then { w with poison := true } else w }

/-- The virtual line address by which a group reached a physical line: by a translation used since its page was last invalidated, which waits for the line (13 R308). -/
def State.lineName (s : State) (uid line : Nat) : BitVec 64 :=
  match s.groupCtx uid with
  | none => 0
  | some c =>
    match s.usedPages.find? fun e => decide (e.part = c.l.part ∧ e.vdev = c.l.hdr.vdev ∧ e.frame ≤ 128 * line ∧ 128 * line < e.frame + 2 ^ e.shift) with
    | some e => BitVec.ofNat 64 (e.page + (128 * line - e.frame))
    | none => 0

/-- A group's data was lost before its publish: the publishing instruction takes POISON (17 R369). -/
def State.losePublish (s : State) (uid : Nat) (info : BitVec 64) : State :=
  s.updGroup uid fun g => { g with pubPoison := some (g.pubPoison.getD info) }

/-- POISON delivered to a sequencer (06 R173). -/
def State.poisonSeq (s : State) (set : Nat) : State :=
  match s.sets.get set with
  | none => s
  | some t =>
    match s.groups.get t.seqr with
    | none => s
    | some g =>
      let pc := ((g.frags.rows.head?).map fun r => r.2.pc).getD 0
      { s.deliver t.seqr { seq := s.uid, cls := 3, ord := g.ordOf 3, bar := none, code := .poison, pc := pc, info := pc.setWidth 64 } with
        uid := s.uid + 1 }

/-- A job alone is cancelled, and its issuer receives POISON (10 R274, R280). -/
def State.loseJob (s : State) (id : Nat) (j : Job) : State :=
  let cls := match j.kind with | .bload | .xfetch => 3 | .copy | .gcopy | .coll | .hostCopy => 2
  match j.kind with
  | .hostCopy => s.endHostCopy id { j with fault := some (.poison, 0) }
  | .coll =>
    let s1 : State := { s with colls := s.colls.map fun _ g => { g with ops := g.ops.filter fun _ o => o.job != id },
                               sent := s.sent ++ j.withdrawal }
    (s1.jobFault j cls (some (.poison, 0))).jobOver id j
  | .copy | .gcopy | .bload | .xfetch => (s.jobFault j cls (some (.poison, 0))).jobOver id j

/-- A clean core-store line of a mapped window that holds a word is invalid, and is read again at the next access to it (17 R369). -/
def Window.dropClean (w : Window) (word : Nat) : Option Window :=
  let l := (4 * word - w.off) / 128
  if w.mapped && decide (w.off ≤ 4 * word ∧ 4 * word < w.off + w.len) && w.filled.contains l && !w.dirty.contains l then
    some { w with filled := w.filled.filter fun x => x != l }
  else none

/-- An uncorrectable word of a block's store: in a clean line of a mapped window no poison; else the word is poisoned. -/
def Block.loseWord (b : Block) (word : Nat) : Block :=
  if b.windows.rows.any fun r => (r.2.dropClean word).isSome then
    { b with windows := b.windows.map fun _ w => (w.dropClean word).getD w }
  else b.putWord word { b.word word with poison := true }

/-- The core whose bank holds private lines of a run, where there are any. -/
def State.privateBank (s : State) (check run : Nat) : Option Nat :=
  ((s.green ++ s.past).find? fun h => decide (h.layer.map (fun x => (checkKey x.check h.seg, x.run)) = some (check, run))).map fun h => s.home h.line

/-- What an uncorrectable error does where it lies. -/
def State.contain (s : State) : ErrSite → State
  | .cleanLine line => { s with l2 := s.l2.map fun _ ls => ls.filter fun e => e.line != line }
  | .dirtyVersion line => s.poisonHome line
  | .bufferEntry group line =>
    let info := s.lineName group line
    if s.buffer.any fun b => decide (b.group = group ∧ b.line = line) then
      ({ s with buffer := s.buffer.filter fun b => !decide (b.group = group ∧ b.line = line) } : State).losePublish group info
    else s
  | .pendingLine block line =>
    s.updBlock block fun b =>
      if b.pending.any fun w => w.va / 128 == line then
        { b with pending := b.pending.filter fun x => x.va / 128 != line, pubPoison := some (b.pubPoison.getD (BitVec.ofNat 64 (128 * line))) }
      else b
  | .updateCopy group line =>
    let info := s.lineName group line
    if s.updates.any fun u => decide (u.group = group ∧ u.addr / 128 = line) then
      ({ s with updates := s.updates.filter fun u => !decide (u.group = group ∧ u.addr / 128 = line) } : State).losePublish group info
    else s
  | .privateLayer check run =>
    let s1 := (s.privateBank check run).elim s fun core => s.testBank core 2
    { s1 with checks := s1.checks.upd check fun c => { c with runs := c.runs.upd run fun r => { r with void := true } } }
  | .vreg group reg lane =>
    s.updGroup group fun g => { g with vpoison := g.vpoison.put reg (g.vpoison.getD reg 0 ||| BitVec.ofNat 128 (2 ^ lane)) }
  | .sreg group reg => s.updGroup group fun g => { g with spoison := if g.spoison.contains reg then g.spoison else g.spoison ++ [reg] }
  | .storeWord block word => s.updBlock block fun b => b.loseWord word
  | .tileStorage set => s.poisonSeq set
  | .blockControl block =>
    match s.blocks.get block with
    | some b => s.endLaunch b.launch 0x05 (codeNum .poison)
    | none => s
  | .jobEntry job =>
    match s.jobs.get job with
    | some j => s.loseJob job j
    | none => s
  | .gateEntry gate =>
    if (s.gates.get gate).isNone then s
    else
      let s1 := (s.gateOps.filter fun _ o => decide (o.gate = gate) && o.seen).rows.foldl (fun (s : State) r => s.denyGate r.1 r.2)
        { s with gates := s.gates.del gate }
      s1.testGates
  | .expertEntry part expert =>
    s.bumpExpert part expert fun e => { e with valid := false, routed := 0, fetched := 0, fell := 0 }
  | .replayLog check => { s with checks := s.checks.upd check fun c => { c with skipped := true } }
  | .dram line dirty => if dirty then s.poisonHome line else s
  | .tlb core shared part vdev page =>
    let keep := fun (es : List TlbEntry) => es.filter fun e => !decide (e.part = part ∧ e.vdev = vdev ∧ e.page = page)
    if shared then { s with tlbDie := s.tlbDie.upd (dieOfCore core) keep } else { s with tlbCore := s.tlbCore.upd core keep }

/-- Where an error is reported: type, fault code, unit, counter, core, line and owner (17 R367, R369, R375). A store word's core is that of its share (01 R14), a job's its issuer's, a gate's the first of the die that serves it (14 R313), so that the die is right where the entry names no core; a parity error, after which the entry is fetched again, nowhere (R365). -/
def State.siteEntry (s : State) (site : ErrSite) : Option (Nat × Nat × Nat × Nat × Nat × Nat × Option (Nat × Nat)) :=
  let sram := fun (unit core line : Nat) (o : Option (Nat × Nat)) => some (0x03, 0, unit, 2, core, line, o)
  let ofGroup := fun (u : Nat) => match s.groupCtx u with
    | some c => (c.g.core, some (c.l.part, c.l.hdr.vdev))
    | none => (0, none)
  let ofBlock := fun (b : Nat) => ((((s.blocks.get b).map fun (x : Block) => x.cores.headD 0).getD 0), s.blockOwner b)
  match site with
  | .cleanLine line | .dirtyVersion line => sram 2 (s.home line) (128 * line) (s.l2Owner line)
  | .bufferEntry g line | .updateCopy g line => sram 0 (ofGroup g).1 (128 * line) (ofGroup g).2
  | .pendingLine b _ => sram 0 (ofBlock b).1 0 (ofBlock b).2
  | .privateLayer c _ | .replayLog c => sram 2 ((match site with | .privateLayer _ r => s.privateBank c r | _ => none).getD 0) 0 (((s.checks.get c).bind fun x => s.launches.get x.launch).map fun l => (l.part, l.hdr.vdev))
  | .vreg g _ _ => sram 0 (ofGroup g).1 0 (ofGroup g).2
  | .sreg g _ => sram 1 (ofGroup g).1 0 (ofGroup g).2
  | .storeWord b w =>
    let core := match s.blocks.get b, s.launchOf b with
      | some x, some l => x.cores.getD (4 * w / max (l.share (max x.cores.length 1)) 1) (x.cores.headD 0)
      | _, _ => 0
    sram 0 core 0 (ofBlock b).2
  | .tileStorage t =>
    let b := ((s.sets.get t).bind fun x => x.blocks.head?).getD 0
    sram 4 (ofBlock b).1 0 (ofBlock b).2
  | .blockControl b => sram 5 (ofBlock b).1 0 (ofBlock b).2
  | .jobEntry j => sram 5 (((s.jobs.get j).map fun x => (ofGroup x.group).1).getD 0) 0 ((s.jobs.get j).map fun x => (x.part, 0))
  | .gateEntry g => some (0x03, if (s.gates.get g).isSome then codeNum .poison else 0, 5, 2, 80 * (g % 4), 0, none)
  | .expertEntry p _ => sram 5 0 0 (some (p, 0))
  | .dram line _ => some (0x04, 0, 3, 3, s.home line, 128 * line, s.lineOwner line)
  | .tlb _ _ _ _ _ => none

/-- UNCORRECTABLE_ERROR (17 R369): counted, recorded, and contained by where it lies. -/
def execUncorrectableError (site : ErrSite) (s : State) : Out :=
  .next (match s.siteEntry site with
    | some (ty, code, unit, counter, core, line, owner) => (s.siliconError ty code unit counter core line owner).contain site
    | none => s.contain site)

/-! ### Links and peers (17 R372, R373) -/

/-- LINK_RETRAIN (17 R372): the lanes that are good now, of those that were; width comes back only at a start. An error entry records each retraining; of one that leaves full width R375 has no type (a free value, log 4). -/
def execLinkRetrain (link : Nat) (lanes : BitVec 8) (s : State) : Out :=
  .next (if 17 < link then s
    else
      let r := s.links.getD link LinkRec.reset
      let good := r.lanes &&& lanes
      let down := r.down || !(decide (good &&& 0x0F = 0x0F) || decide (good &&& 0xF0 = 0xF0))
      let half := !down && (r.half || decide (good ≠ 0xFF))
      let x : LinkRec := { lanes := good, half := half, down := down, losses := min (r.losses + 1) (2 ^ 32 - 1) }
      let s1 := (({ s with links := s.links.put link x, free := s.free + 1 } : State).count 14 1 none)
      let ty := if down then 0x08 else if half then 0x07 else 1 + (Config.freeByte s.free 0).toNat % 18
      s1.logError { ty := ty, code := 0, unit := 6, owner := none, core := link, bank := 0, line := 0,
                    launch := 0xFFFFFFFF, block := 0xFFFFFFFF })

/-- A completed operation's destination is written, or its fault goes to the fragment that holds the lowest lane left, or to the group where every lane has exited (10 R252). A fault delivered has its place among the others by the operation's issue (10 R280, 17 R364). -/
def Group.land (g : Group) (f : Flight) : Group :=
  match f.bad with
  | none => (g.writes f.writes).complete f.id
  | some (code, info) =>
    let live := match g.saved with
      | v :: _ => v.frags.rows.foldl (fun m (r : Nat × Frag) => m ||| r.2.mask) 0
      | [] => g.liveLanes
    let d : Delivered := { seq := f.id, cls := f.cls, ord := f.ord, bar := none, code := code, pc := f.pc, blk := f.blk, info := info }
    let p : LatePoison := { mask := f.mask, code := code, pc := f.pc, blk := f.blk, info := info }
    let g1 := if f.mask &&& live = 0 then { g with delivered := g.delivered ++ [d] } else { g with late := g.late ++ [p] }
    g1.complete f.id

/-- A fault of a peer without route. -/
def Flight.noRoute (f : Flight) (va : Nat) : Flight := { f with bad := some (.accessProtection, BitVec.ofNat 64 va) }

/-- The stores of an operation to the lines of one peer find no route, with what else the group has in those lines: they do not reach it, and each operation completes with the fault, once. -/
def State.losePeerStore (s : State) (group op line : Nat) : State :=
  let mine := s.peerStores.filter fun x => x.1 == group
  let lines := (mine.filter fun x => x.2.2.id == op && peerOf (128 * x.2.1) == peerOf (128 * line)).map (·.2.1)
  let hit := (mine.filter fun x => lines.contains x.2.1 && x.2.2.bad.isNone).map (·.2.2)
  let first := hit.filter fun f => (hit.find? fun x => x.id == f.id) == some f
  let s1 := s.updGroup group fun g => first.foldl (fun g f => g.land (f.noRoute (f.peer.getD 0))) g
  let told := fun (x : Nat × Nat × Flight) => if x.1 == group && first.any fun f => f.id == x.2.2.id then (x.1, x.2.1, x.2.2.noRoute (x.2.2.peer.getD 0)) else x
  { s1 with
    peerStores := (s1.peerStores.filter fun x => !(x.1 == group && lines.contains x.2.1)).map told,
    buffer := s1.buffer.filter fun b => !(b.group == group && lines.contains b.line),
    handed := s1.handed.filter fun h => !(h.group == group && lines.contains h.line) }

/-- A pending write-back line of a group's block that lies beyond a peer aperture. -/
def State.peerLine (s : State) (c : Ctx) (w : WbLine) : Bool :=
  match (s.lookup c.l.part c.l.hdr.vdev c.g.core w.va .store).1 with
  | .ok pa _ => (peerOf pa).isSome
  | .protect _ | .declined | .absent _ => false

/-- Pending write-back lines of one operation find no route: the fault of the first is delivered to the group (10 R280). -/
def State.losePeerLines (s : State) (c : Ctx) (op : Nat) : State :=
  let gone := fun (w : WbLine) => w.group == c.uid && w.seq == op && s.peerLine c w
  match c.b.pending.find? gone with
  | none => s
  | some w =>
    (s.updBlock c.g.block fun b => { b with pending := b.pending.filter fun w => !gone w }).deliver c.uid
      { seq := w.seq, cls := 1, ord := w.ord, bar := none, code := .accessProtection, pc := w.pc, blk := w.blk, info := BitVec.ofNat 64 w.va }

/-- The members of collective groups that lie behind the peer aperture of a virtual address: fabric device p is the member whose fabric address is p (01 R21, 19 R393). -/
def State.behindRoute (s : State) (c : Ctx) (va : Nat) : List (Nat × Nat) :=
  match (s.lookup c.l.part c.l.hdr.vdev c.g.core va .load).1 with
  | .ok pa _ =>
    match peerOf pa with
    | some p => s.colls.rows.flatMap fun r => ((slotsOf r.2.members).filter fun k => r.2.fabric[k]? == some p).map fun k => (r.1, k)
    | none => []
  | .protect _ | .declined | .absent _ => []

/-- The virtual address of an operation of a group that goes through a peer aperture. -/
def State.peerVa (s : State) (group op : Nat) : Option Nat :=
  match s.peerStores.find? fun x => x.1 == group && x.2.2.id == op with
  | some x => x.2.2.peer
  | none =>
    match ((s.groups.get group).bind fun g => g.flights.find? fun f => f.id == op && !f.done).bind (·.peer) with
    | some va => some va
    | none => ((s.groupCtx group).bind fun c => c.b.pending.find? fun w => w.group == group && w.seq == op).map (·.va)

/-- The members behind a route that has failed become suspect (19 R397). -/
def State.suspectRoute (s : State) (group op : Nat) : State :=
  match s.groupCtx group, s.peerVa group op with
  | some c, some va => (s.behindRoute c va).foldl (fun s x => s.collSuspect x.1 x.2) s
  | _, _ => s

/-- PEER_ROUTE_TIMEOUT (17 R373): an access through a peer aperture completes with ACCESS_PROTECTION, taken as POISON is: a load or an atomic in flight, a job, which has its fault when it performs, a store that has not reached the peer, or a window's write-back that is pending, by the number of its operation. The members behind that route become suspect (19 R397). -/
def execPeerRouteTimeout (group op : Nat) (s : State) : Out :=
  let s0 := s.suspectRoute group op
  .next (match s0.peerStores.find? fun x => x.1 == group && x.2.2.id == op with
    | some x => s0.losePeerStore group op x.2.1
    | none =>
      let s1 := s0.updGroup group fun g => { g with flights := g.flights.map fun f =>
        match f.peer with
        | some va => if f.id = op ∧ !f.done then f.noRoute va else f
        | none => f }
      match s1.groupCtx group with
      | some c => s1.losePeerLines c op
      | none => s1)

end Sys2Proof.Machine
end

