-- ==== Sys2Proof/Machine/Events.lean ====
section
/-! DEFINITION. Steps of the hardware beside issue: spilled entries and patience (07 R187, R190), completions (10 R249), rounds (09 R229, R230), write-backs (10 R258), jobs (09 R240), sleeps (08 R212), words that are no instruction (02 R56), and what the host and the peers do to memory (09 R238, 10 R262, 17 R370). -/

namespace Sys2Proof.Machine
open Sys2Proof

/-! ### Fragments -/

/-- SPLIT_ENTRY_RETURN (07 R187): a spilled entry comes back on chip, the least recently issued one leaving where 16 stand there; it is ready from then on (07 R191). -/
def execSplitEntryReturn (group frag : Nat) (s : State) : Out :=
  .next (match s.groups.get group with
    | none => s
    | some g =>
      match g.frags.get frag with
      | none => s
      | some f =>
        if f.onChip then s
        else
          let room := decide ((g.frags.rows.filter fun r => r.2.onChip).length < Config.splitEntries)
          let g1 := if room then g else g.spillOne
          s.putGroup group (g1.putFrag frag { f with onChip := true, ready := s.tick }))

/-- A fragment leaves its sibling set and goes past the header (07 R190). -/
def Group.unmerge (g : Group) (now fid : Nat) (f : Frag) : Group :=
  match f.sib.bind g.sibs.get with
  | none => g
  | some o =>
    let f1 : Frag := { f with reconv := o.reconv, sib := o.sib, phase := .run, pc := nextWord f.pc, stall := 0, ready := now }
    let g1 := g.putFrag fid f1
    let g2 := match f.sib with
      | some id => if g1.frags.rows.any fun r => g1.inSet r.2.sib id (g1.sibs.rows.length + 1) then g1 else { g1 with sibs := g1.sibs.del id }
      | none => g1
    g2.fuseAll now (g2.sibs.rows.length + 1)

/-- MERGE_PATIENCE_EXPIRY (07 R190, 04 R95): logged; a repeat run proceeds only where its primary did. A fragment in the handler of a pre-emption waits as any does. -/
def execMergePatienceExpiry (group frag : Nat) (s : State) : Out :=
  .next (match s.ctxOf group frag with
    | none => s
    | some c =>
      if c.f.phase ≠ .reconv ∨ c.f.sib = none ∨ (c.b.life ≠ .resident ∧ c.b.life ≠ .quiesced) ∨ !c.unheld ∨ c.b.quiesce.isSome
        ∨ !s.running ∨ (s.part c.l.part).frozen then s
      else
        let e : LogEntry := { kind := .unmerged, op := 0, data := c.g.unmergedData c.f, digest := 0 }
        if c.repeats then
          if c.g.replay.head? = some e then s.putGroup group ({ c.g with replay := c.g.replay.drop 1, log := c.g.log ++ [e] }.unmerge s.tick frag c.f) else s
        else s.putGroup group ((if c.b.check.isSome then c.g.logs e else c.g).unmerge s.tick frag c.f))

/-- SLEEP_COUNT_RUNS_OUT (08 R212). -/
def execSleepCountRunsOut (group frag : Nat) (s : State) : Out := .next (s.answer group frag .sleep (.done 0 []))

/-- WORD_NOT_AN_INSTRUCTION (02 R54, R56): the fault of the first failing check, with the word. -/
def execWordNotAnInstruction (w : BitVec 64) (s : State) : Out :=
  match s.ctx with
  | none => .fault .noIssuer
  | some c =>
    match decodeWord c.g.seq c.f.atLast w with
    | .error code => c.trapped s (faultAt code c.f.pc w.toNat)
    | .ok _ => .next s

/-! ### Completions -/

/-- LOAD_COMPLETE (10 R249): of an operation whose completion is its own and not a job's. -/
def execLoadComplete (group op : Nat) (s : State) : Out :=
  .next (match s.groups.get group with
    | none => s
    | some g =>
      match g.flights.find? fun f => f.id == op && !f.done with
      | none => s
      | some f => if f.cls = 0 ∨ f.cls = 4 then s.putGroup group (g.land f) else s)

/-! ### Rounds -/

/-- ROUND_CLOSE (09 R229, R230): the open round closes, once its lines find places in their slices, and what waited for it goes on; with no round open, groups whose lanes have exited try their publish again (08 R210). -/
def execRoundClose (part : Nat) (s : State) : Out :=
  .next (if !(s.part part).roundOpen then s.publishedGroups.settleBlocks
    else
      match s.closeRound part with
      | none => s
      | some t => t.publishedGroups.settleBlocks)

/-- WINDOW_WRITEBACK (10 R258): a dirty line of a mapped window becomes pending. A fault of it, which no instruction issued, goes to the block's first group, at the place of its lowest fragment, by the number of its last store operation (DESIGN CHOICE, log 75). -/
def execWindowWriteback (block window line : Nat) (s : State) : Out :=
  .next (match s.blocks.get block with
    | none => s
    | some b =>
      let u := b.groups.headD 0
      let at_ := (((s.groups.get u).bind fun g => g.frags.rows.head?).map fun (r : Nat × Frag) => (r.2.pc, r.2.blk)).getD (0, noBlock)
      let ord := ((s.groups.get u).map fun g => g.ordOf 1).getD 0
      if b.onCores then
        { s.updBlock block (fun b => b.flush window u at_.1 at_.2 s.uid ord fun l => l == line) with uid := s.uid + 1 }
      else s)

/-! ### Jobs -/

/-- A coll's card is taken by its engine, and performs once every contribution is here; not while a join or an acknowledged view stands before it (19 R398, R404). -/
def State.performColl (s : State) (id : Nat) (j : Job) (c : Ctx) : State :=
  if j.aux.isEmpty then s.collReplay id j c
  else
    match s.colls.get (j.aux.getD 0 0) with
    | none => s
    | some g =>
      if j.life = .taken then s.collFinish id j c
      else if g.acked.isSome || (g.joiner.isSome && !((g.ops.get (j.aux.getD 1 0)).map CollOp.begun).getD false) then s
      else s.collTake id j c

/-- JOB_PERFORM (09 R240). -/
def execJobPerform (job : Nat) (s : State) : Out :=
  .next (match s.jobs.get job with
    | none => s
    | some j =>
      if (s.part j.part).frozen || !s.running || !s.jobReady job j then s
      else
        match j.kind, j.life, s.groupCtx j.group with
        | .hostCopy, .queued, _ => s.performHostCopy job j
        | .copy, .queued, some c => s.performCopy job j c
        | .gcopy, .queued, some c => s.performCopy job j c
        | .bload, .queued, some c => if s.loadReady job j then s.performLoad job j c (j.vals.getD 0 0) false else s
        | .xfetch, .queued, some c =>
          if !s.loadReady job j then s
          else if j.aux = [1] then s.performLoad job j c (j.vals.getD 4 0) true
          else if j.aux = [2] then s.performLoad job j c (j.vals.getD 0 0) false
          else s
        | .coll, .queued, some c => s.performColl job j c
        | .coll, .taken, some c => s.performColl job j c
        | _, _, _ => s)

/-- JOB_COMPLETE (09 R240, 10 R265, R278): the round of a job's global writes has closed. -/
def execJobComplete (job : Nat) (s : State) : Out :=
  .next (match s.jobs.get job with
    | none => s
    | some j =>
      match j.life with
      | .performed n =>
        if (s.part j.part).round < n || (s.part j.part).frozen then s
        else
          match j.kind with
          | .copy | .gcopy => s.endCopy job j
          | .hostCopy => s.endHostCopy job j
          | .bload | .xfetch => s.jobOver job j
          | .coll => s
      | .queued | .taken | .done => s)

/-! ### The host and the peers (09 R238) -/

/-- HOST_MEM_WRITE (09 R238): through CXL.mem to device memory. -/
def execHostMemWrite (address : Nat) (data : List Byte) (s : State) : Out :=
  .next (if isDevice address && isDevice (address + data.length - 1) then s.hostWrite address data else s.denied)

/-- HOST_MEM_READ (09 R238, 17 R370): the newest closed version with the poison indication. -/
def execHostMemRead (address bytes : Nat) (s : State) : Out :=
  .next (if isDevice address && isDevice (address + bytes - 1) then
      let r := s.hostRead address bytes
      { s with sent := s.sent ++ [Sent.bytes r.2 r.1] }
    else s.denied)

/-- HOST_LINE_SNOOP (09 R238): the host changes a line of its own memory; its new value is a version of the round that closes next, in each partition that holds a range over it. A page of running code takes no write of it (02 R31). -/
def execHostLineSnoop (address : Nat) (data : List Byte) (s : State) : Out :=
  .next (if !isHost address || !isHost (address + data.length - 1) then s.denied
    else
      (splitLines (data.length / 128 + 2) address data).foldl (fun s x =>
        if s.codeProtected x.1 then s.dropCodeWrite x.1
        else
          let t := (s.keepBase (x.1 / 128)).hostWriteLine x.1 x.2
          { t with mem := Memory.writeN t.mem x.1 x.2 }) s)

/-- PEER_WRITE (09 R238): taken as a host-like write. -/
def execPeerWrite (address : Nat) (data : List Byte) (s : State) : Out :=
  .next (if isDevice address && isDevice (address + data.length - 1) then s.hostWrite address data else s.denied)

/-- INBOUND_PEER_READ (17 R370). -/
def execInboundPeerRead (address bytes : Nat) (s : State) : Out :=
  .next (if isDevice address && isDevice (address + bytes - 1) then
      let r := s.hostRead address bytes
      { s with sent := s.sent ++ [Sent.bytes r.2 r.1] }
    else s.denied)

/-- INBOUND_PEER_ATOMIC (10 R262, 17 R370): performed at this device's home slice with an operation code of the class atom, its old value sent back; a poisoned line is neither read nor changed. -/
def execInboundPeerAtomic (address : Nat) (aop : BitVec 6) (wide : Bool) (operand : Nat) (s : State) : Out :=
  let size := if wide then 8 else 4
  .next (if !isDevice address || address % size ≠ 0 || !aopOk 0 aop.toNat (if wide then .b64 else .b32) then s.denied
    else if s.poison.contains (address / 128) then { s with sent := s.sent ++ [Sent.bytes true []] }
    else
      let old := fromBytes (s.homeBytes address size)
      let new := toBytes size (atomNew 0 aop.toNat size old operand)
      let s1 : State := if s.codeProtected address then s.dropCodeWrite address else match s.holders address with
        | [] => { s with mem := Memory.writeN s.mem address new,
                         versions := s.versions.filter fun v => decide (v.line ≠ address / 128) }
        | ps => ps.foldl (fun s p => s.performAt p 0 address 0 new) s
      { s1 with sent := s1.sent ++ [Sent.bytes false (toBytes size old)] })

end Sys2Proof.Machine
end

