-- ==== Sys2Proof/Machine/IntOps.lean ====
section
/-! DEFINITION. Integer and address instructions, opcodes 0x02 to 0x2A (05 R109 to R119). -/

namespace Sys2Proof.Machine
open Sys2Proof

/-! ### Shared computations -/

/-- The elements of a type in its registers: width, count and signedness. -/
def elems (t : Ty) : Nat × Nat × Bool :=
  let (w, sg) := intTy t
  (w, match t with | .n8x4 | .s8x4 => 4 | .n4x8 => 8 | _ => 1, sg)

/-- An exact integer operation per element, wrapped or saturated (05 R105). -/
def intElems (t : Ty) (sat : Bool) (op : Int → Int → Int) (x y : Nat) : Nat :=
  let (w, n, sg) := elems t
  mapElems w n (fun a b => intCode w sg sat (op (intVal w sg a) (intVal w sg b))) x y

/-- The type of a format C or B integer form by func[0]. -/
def funcTy (func : BitVec 4) : Ty := if func.getLsbD 0 then .n32 else .s32

/-- The saturation bit of a format C or B integer form. -/
def funcSat (func : BitVec 4) : Bool := func.getLsbD 1

/-- The quotient rounded toward zero with the edge cases of 05 R112, as codes of width w. -/
def divCode (w : Nat) (sg sat : Bool) (a b : Nat) : Nat :=
  let x := intVal w sg a
  let y := intVal w sg b
  if y = 0 then wrap w (if x < 0 then intMin w sg else intMax w sg)
  else intCode w sg sat (x.tdiv y)

/-- The remainder a − b × quotient, with a for a zero divisor (05 R112). -/
def remCode (w : Nat) (sg : Bool) (a b : Nat) : Nat :=
  let x := intVal w sg a
  let y := intVal w sg b
  if y = 0 then a % 2 ^ w else wrap w (x - y * x.tdiv y)

/-- The shifts and rotations of 05 R113. -/
def shlCode (w a c : Nat) : Nat := if w ≤ c then 0 else a * 2 ^ c % 2 ^ w
def shrCode (w a c : Nat) : Nat := if w ≤ c then 0 else a % 2 ^ w / 2 ^ c
def sraCode (w a c : Nat) : Nat := wrap w (signed w a / ((2 ^ min c w : Nat) : Int))
def rotrCode (w a c : Nat) : Nat := rotlN w a (w - c % w)

/-- The count of leading zeros (05 R114). -/
def clzCode (w a : Nat) : Nat := if a % 2 ^ w = 0 then w else w - 1 - Nat.log2 (a % 2 ^ w)

/-- The extracted field of 05 R114. -/
def bfxCode (sg : Bool) (a start width : Nat) : Nat :=
  let s := min start 32
  let wd := min width 32
  let x := if sg then sext 32 64 a else a % 2 ^ 32
  let f := x / 2 ^ s % 2 ^ wd
  if wd = 0 then 0 else if sg then sext wd 32 f else f

/-- The insertion of 05 R114 into a base. -/
def bfiCode (base ins start width : Nat) : Nat :=
  let s := min start 32
  let wd := min width (32 - s)
  let field := (2 ^ wd - 1) * 2 ^ s
  (base % 2 ^ 32 &&& (2 ^ 32 - 1 - field)) ||| (ins * 2 ^ s % 2 ^ 32 &&& field)

/-- The sum of products or of absolute differences over four byte elements (05 R116). -/
def fourBytes (sa sb : Bool) (op : Int → Int → Int) (a b : Nat) : Int :=
  ((List.range 4).map fun i => op (intVal 8 sa (a / 2 ^ (8 * i))) (intVal 8 sb (b / 2 ^ (8 * i)))).sum

/-! ### Meanings -/

/-- ADD (05 R110). -/
def execAdd (f : FormA) (s : State) : Out :=
  let n := tyRegs f.ty
  aluA2 s f n n n (intElems f.ty f.sat (· + ·))

/-- ADD_IMM (05 R110, R107). -/
def execAddImm (f : FormC) (s : State) : Out :=
  aluC1 s f fun a => intElems (funcTy f.func) (funcSat f.func) (· + ·) a (immWord f)

/-- SUB (05 R110). -/
def execSub (f : FormA) (s : State) : Out :=
  let n := tyRegs f.ty
  aluA2 s f n n n (intElems f.ty f.sat (· - ·))

/-- SUB_IMM (05 R110, R107). -/
def execSubImm (f : FormC) (s : State) : Out :=
  aluC1 s f fun a => intElems (funcTy f.func) (funcSat f.func) (· - ·) a (immWord f)

/-- ADDC: the carry of the unsigned sum (05 R110). -/
def execAddc (f : FormA) (s : State) : Out :=
  let n := tyRegs f.ty
  aluA2 s f n n n fun a b => (a + b) / 2 ^ (32 * n)

/-- SUBB: the borrow of the unsigned difference (05 R110). -/
def execSubb (f : FormA) (s : State) : Out :=
  let n := tyRegs f.ty
  aluA2 s f n n n fun a b => if a < b then 1 else 0

/-- MUL (05 R111). -/
def execMul (f : FormA) (s : State) : Out :=
  let n := tyRegs f.ty
  aluA2 s f n n n (intElems f.ty f.sat (· * ·))

/-- MUL_IMM (05 R111). -/
def execMulImm (f : FormC) (s : State) : Out :=
  aluC1 s f fun a => intElems (funcTy f.func) (funcSat f.func) (· * ·) a (immWord f)

/-- MULH: bits 63:32 of the exact product (05 R111). -/
def execMulh (f : FormA) (s : State) : Out :=
  let sg := (intTy f.ty).2
  aluA2 s f 1 1 1 fun a b => wrap 64 (intVal 32 sg a * intVal 32 sg b) / 2 ^ 32

/-- MULW: the whole product to a pair (05 R111). -/
def execMulw (f : FormA) (s : State) : Out :=
  let sg := (intTy f.ty).2
  aluA2 s f 2 1 1 fun a b => wrap 64 (intVal 32 sg a * intVal 32 sg b)

/-- MAD: a × b + c with one saturation (05 R111, R108). -/
def execMad (f : FormB) (s : State) : Out :=
  let sg := !f.func.getLsbD 0
  aluB3 s f 1 1 1 1 fun a b c =>
    intCode 32 sg (funcSat f.func) (intVal 32 sg a * intVal 32 sg b + intVal 32 sg c)

/-- MADW: (a × b + c) mod 2^64 to a pair (05 R111). -/
def execMadw (f : FormB) (s : State) : Out :=
  let sg := !f.func.getLsbD 0
  aluB3 s f 2 1 1 2 fun a b c => wrap 64 (intVal 32 sg a * intVal 32 sg b + intVal 64 sg c)

/-- DIV (05 R112). -/
def execDiv (f : FormA) (s : State) : Out :=
  let n := tyRegs f.ty
  let (w, sg) := intTy f.ty
  aluA2 s f n n n (divCode w sg f.sat)

/-- DIV_IMM (05 R112). -/
def execDivImm (f : FormC) (s : State) : Out :=
  aluC1 s f fun a => divCode 32 (!f.func.getLsbD 0) (funcSat f.func) a (immWord f)

/-- REM (05 R112). -/
def execRem (f : FormA) (s : State) : Out :=
  let n := tyRegs f.ty
  let (w, sg) := intTy f.ty
  aluA2 s f n n n (remCode w sg)

/-- REM_IMM (05 R112). -/
def execRemImm (f : FormC) (s : State) : Out :=
  aluC1 s f fun a => remCode 32 (!f.func.getLsbD 0) a (immWord f)

/-- NEG (05 R110). -/
def execNeg (f : FormA) (s : State) : Out :=
  let n := tyRegs f.ty
  aluA1 s f n n fun a => intElems f.ty f.sat (fun x _ => -x) a 0

/-- ABS (05 R110): the lowest value wraps to itself, or saturates. -/
def execAbs (f : FormA) (s : State) : Out :=
  let n := tyRegs f.ty
  aluA1 s f n n fun a => intElems f.ty f.sat (fun x _ => (x.natAbs : Int)) a 0

/-- MIN (05 R110). -/
def execMin (f : FormA) (s : State) : Out :=
  let n := tyRegs f.ty
  aluA2 s f n n n (intElems f.ty false min)

/-- MIN_IMM (05 R110). -/
def execMinImm (f : FormC) (s : State) : Out :=
  aluC1 s f fun a => intElems (funcTy f.func) false min a (immWord f)

/-- MAX (05 R110). -/
def execMax (f : FormA) (s : State) : Out :=
  let n := tyRegs f.ty
  aluA2 s f n n n (intElems f.ty false max)

/-- MAX_IMM (05 R110). -/
def execMaxImm (f : FormC) (s : State) : Out :=
  aluC1 s f fun a => intElems (funcTy f.func) false max a (immWord f)

/-- AND (05 R113). -/
def execAnd (f : FormA) (s : State) : Out :=
  let n := tyRegs f.ty
  aluA2 s f n n n (· &&& ·)

/-- AND_IMM (05 R113). -/
def execAndImm (f : FormC) (s : State) : Out := aluC1 s f fun a => a &&& immWord f

/-- OR (05 R113). -/
def execOr (f : FormA) (s : State) : Out :=
  let n := tyRegs f.ty
  aluA2 s f n n n (· ||| ·)

/-- OR_IMM (05 R113). -/
def execOrImm (f : FormC) (s : State) : Out := aluC1 s f fun a => a ||| immWord f

/-- XOR (05 R113). -/
def execXor (f : FormA) (s : State) : Out :=
  let n := tyRegs f.ty
  aluA2 s f n n n (· ^^^ ·)

/-- XOR_IMM (05 R113). -/
def execXorImm (f : FormC) (s : State) : Out := aluC1 s f fun a => a ^^^ immWord f

/-- NOT (05 R113). -/
def execNot (f : FormA) (s : State) : Out :=
  let n := tyRegs f.ty
  aluA1 s f n n fun a => 2 ^ (32 * n) - 1 - a

/-- ANDN: a AND NOT b (05 R113). -/
def execAndn (f : FormA) (s : State) : Out :=
  let n := tyRegs f.ty
  aluA2 s f n n n fun a b => a &&& (2 ^ (32 * n) - 1 - b)

/-- SHL (05 R113): the count is one 32-bit register, read unsigned. -/
def execShl (f : FormA) (s : State) : Out :=
  let n := tyRegs f.ty
  aluA2 s f n n 1 (shlCode (32 * n))

/-- SHL_IMM (05 R113). -/
def execShlImm (f : FormC) (s : State) : Out := aluC1 s f fun a => shlCode 32 a f.imm.toNat

/-- SHR (05 R113). -/
def execShr (f : FormA) (s : State) : Out :=
  let n := tyRegs f.ty
  aluA2 s f n n 1 (shrCode (32 * n))

/-- SHR_IMM (05 R113). -/
def execShrImm (f : FormC) (s : State) : Out := aluC1 s f fun a => shrCode 32 a f.imm.toNat

/-- SRA (05 R113). -/
def execSra (f : FormA) (s : State) : Out :=
  let n := tyRegs f.ty
  aluA2 s f n n 1 (sraCode (32 * n))

/-- SRA_IMM (05 R113). -/
def execSraImm (f : FormC) (s : State) : Out := aluC1 s f fun a => sraCode 32 a f.imm.toNat

/-- ROTL (05 R113). -/
def execRotl (f : FormA) (s : State) : Out :=
  let n := tyRegs f.ty
  aluA2 s f n n 1 (rotlN (32 * n))

/-- ROTL_IMM (05 R113). -/
def execRotlImm (f : FormC) (s : State) : Out := aluC1 s f fun a => rotlN 32 a f.imm.toNat

/-- ROTR (05 R113). -/
def execRotr (f : FormA) (s : State) : Out :=
  let n := tyRegs f.ty
  aluA2 s f n n 1 (rotrCode (32 * n))

/-- ROTR_IMM (05 R113). -/
def execRotrImm (f : FormC) (s : State) : Out := aluC1 s f fun a => rotrCode 32 a f.imm.toNat

/-- CLZ (05 R114). -/
def execClz (f : FormA) (s : State) : Out :=
  let n := tyRegs f.ty
  aluA1 s f n n (clzCode (32 * n))

/-- POPC (05 R114). -/
def execPopc (f : FormA) (s : State) : Out :=
  let n := tyRegs f.ty
  aluA1 s f n n (countOnes (32 * n))

/-- BREV (05 R114). -/
def execBrev (f : FormA) (s : State) : Out :=
  let n := tyRegs f.ty
  aluA1 s f n n (reverseBits (32 * n))

/-- BFX, start from b and width from c (05 R114). -/
def execBfx (f : FormB) (s : State) : Out :=
  aluB3 s f 1 1 1 1 fun a b c => bfxCode (!f.func.getLsbD 0) a b c

/-- BFX_IMM (05 R114, R107). -/
def execBfxImm (f : FormC) (s : State) : Out :=
  aluC1 s f fun a => bfxCode (!f.func.getLsbD 0) a (f.imm.toNat % 256) (f.imm.toNat / 256 % 256)

/-- BFI, base from a, inserted value from b, start and width from c (05 R114). -/
def execBfi (f : FormB) (s : State) : Out :=
  aluB3 s f 1 1 1 1 fun a b c => bfiCode a b (c % 256) (c / 256 % 256)

/-- BFI_IMM: a inserted into the destination's own value (05 R114). -/
def execBfiImm (f : FormC) (s : State) : Out :=
  alu s f.g [(1, f.dst)] [(1, f.a), (1, f.dst)] false fun c m =>
    .ok (c.g.writes (destWrites m 1 f.dst fun j =>
      bfiCode (c.g.lane f.dst j) (c.g.lane f.a j) (f.imm.toNat % 256) (f.imm.toNat / 256 % 256)))

/-- SEL (05 R115): a where the mask bit is set, b where it is clear; a scalar destination reads bit 0. -/
def execSel (f : FormB) (s : State) : Out :=
  alu s f.g [(1, f.dst)] [(1, f.a), (1, f.b)] false fun c m =>
    let k := c.g.mreg c.f.mask (opndIdx f.c)
    .ok (c.g.writes (destWrites m 1 f.dst fun j => if k.getLsbD j then c.g.lane f.a j else c.g.lane f.b j))

/-- CMP (05 R115). -/
def execCmp (f : FormA) (s : State) : Out :=
  let (w, sg) := intTy f.ty
  cmpA2 s f (tyRegs f.ty) (intLess w sg) (intSame w)

/-- CMP_IMM (05 R115, R107). -/
def execCmpImm (f : FormC) (s : State) : Out :=
  let sg := !f.func.getLsbD 0
  alu s f.g [] [(1, f.a)] false fun c m =>
    .ok (c.g.writes (pairWrites m (opndIdx f.dst)
      (fun j => intLess 32 sg (c.g.lane f.a j) (immWord f)) (fun j => intSame 32 (c.g.lane f.a j) (immWord f))))

/-- LEA (05 R119): the address of 02 R47 to a scalar quad, with bits 95:80 and above zero. -/
def execLea (f : FormE) (s : State) : Out :=
  alu s f.g [(4, f.data)] (baseUsed f ++ offUsed f.off) false fun c m =>
    .ok (c.g.writes (destWrites m 4 f.data fun _ => c.g.addr f (dispE f) 0))

/-- ADDW (05 R119): an 80-bit pointer plus an extended register. -/
def execAddw (f : FormA) (s : State) : Out :=
  let nb := tyRegs f.ty
  let (w, sg) := intTy f.ty
  alu s f.g [(4, f.dst)] [(3, f.a), (nb, f.b)] false fun c m =>
    .ok (c.g.writes (destWrites m 4 f.dst fun _ =>
      wrap 80 ((c.g.pointer (opndIdx f.a) : Int) + intVal w sg (c.g.srcB f nb 0))))

/-- ADDW_IMM (05 R119). -/
def execAddwImm (f : FormC) (s : State) : Out :=
  alu s f.g [(4, f.dst)] [(3, f.a)] false fun c m =>
    .ok (c.g.writes (destWrites m 4 f.dst fun _ =>
      wrap 80 ((c.g.pointer (opndIdx f.a) : Int) + signed 22 f.imm.toNat)))

/-- MOV of format A (05 R117). -/
def execMov (f : FormA) (s : State) : Out :=
  let n := tyRegs f.ty
  aluA1 s f n n id

/-- MOV_IMM (05 R117): func 0 writes the immediate; 1 to 3 read a special register as 32 bits, a pair or a quad. In a checked block a read of `$core` or `$cluster` is logged, and a repeat run reads the logged value (16 R338, R345); 05 R100, by which this opcode makes no log entry, is taken to leave room for these two (DEDUCED, log 70). -/
def execMovImm (f : FormC) (s : State) : Out :=
  let n := match f.func.toNat with | 0 | 1 => 1 | 2 => 2 | _ => 4
  let num := f.imm.toNat
  let cut := if n = 1 then 32 else if n = 2 then 64 else 80
  if f.func = 0 then
    alu s f.g [(1, f.dst)] [] false fun c m => .ok (c.g.writes (destWrites m 1 f.dst fun _ => immWord f))
  else if num = 0x00A ∨ num = 0x00B then
    sysInstr s f.g [(n, f.dst)] [] fun c m =>
      let put := fun (t : State) (v : Nat) =>
        Act.done (t.updGroup c.uid fun g => g.writes (destWrites m n f.dst fun _ => v % 2 ^ cut))
      let now := s.special c num false 0
      if c.b.check.isNone then put s now
      else
        match s.consult c .coreRead num 0 with
        | .perform => put (s.record c.uid .coreRead num [now] 0) now
        | .replay d t => put t (d.getD 0 0)
        | .diverged t => .placed t
  else
    alu s f.g [(n, f.dst)] [] false fun c m =>
      .ok (c.g.writes (destWrites m n f.dst fun j => s.special c num (!opndScalar f.dst) j % 2 ^ cut))

/-- MOVI (05 R117). -/
def execMovi (f : FormD) (s : State) : Out :=
  alu s f.g [(1, f.dst)] [] false fun c m => .ok (c.g.writes (destWrites m 1 f.dst fun _ => f.imm.toNat))

/-- The register that movx and movy name, and its file's limit (05 R118). -/
def Ctx.indirect (c : Ctx) (f : FormC) : Nat × Nat :=
  (wrap 32 ((c.g.lane f.a 0 : Int) + signed 22 f.imm.toNat),
   if f.func.getLsbD 0 then (if c.g.seq then 256 else 1024) else c.l.hdr.vregs)

/-- A register by number in the file of func[0]. -/
def indirectOpnd (f : FormC) (n : Nat) : Opnd :=
  if f.func.getLsbD 0 then .k (BitVec.ofNat 10 n) else .v (BitVec.ofNat 10 n)

/-- MOVX (05 R118): reads a register named at run time; BAD_HANDLE beyond the limit, precisely. A poisoned register named is a read of it (17 R369). -/
def execMovx (f : FormC) (s : State) : Out :=
  alu s f.g [(1, f.dst)] [(1, f.a)] false fun c m =>
    let (n, lim) := c.indirect f
    if lim ≤ n then .error (faultAt .badHandle c.f.pc n)
    else
      match c.g.poisoned m [(f.func.getLsbD 0, n)] with
      | some r => .error { kind := 0, code := .poison, pc := c.f.pc, info := poisonInfo r }
      | none => .ok (c.g.writes (destWrites m 1 f.dst fun j => c.g.lane (indirectOpnd f n) j))

/-- MOVY (05 R118): writes a register named at run time. -/
def execMovy (f : FormC) (s : State) : Out :=
  alu s f.g [] [(1, f.dst), (1, f.a)] false fun c m =>
    let (n, lim) := c.indirect f
    if lim ≤ n then .error (faultAt .badHandle c.f.pc n)
    else .ok (c.g.writes (destWrites m 1 (indirectOpnd f n) fun j => c.g.lane f.dst j))

/-- DOT4 (05 R116): the signedness of each source by func[1:0], saturation by func[2]. -/
def execDot4 (f : FormB) (s : State) : Out :=
  let k := f.func.toNat % 4
  let sa := k != 1
  let sb := k == 0
  let sg := k != 1
  aluB3 s f 1 1 1 1 fun a b c =>
    intCode 32 sg (f.func.getLsbD 2) (intVal 32 sg c + fourBytes sa sb (· * ·) a b)

/-- SAD (05 R116). -/
def execSad (f : FormB) (s : State) : Out :=
  aluB3 s f 1 1 1 1 fun a b c =>
    intCode 32 false (f.func.getLsbD 0)
      ((c : Int) + fourBytes false false (fun x y => ((x - y).natAbs : Int)) a b)

/-- IOTA (05 R119). -/
def execIota (f : FormC) (s : State) : Out :=
  alu s f.g [(1, f.dst)] [(1, f.a)] false fun c m =>
    .ok (c.g.writes (destWrites m 1 f.dst fun j =>
      wrap 32 ((c.g.lane f.a 0 : Int) + signed 22 f.imm.toNat * (j : Int))))

end Sys2Proof.Machine
end

