-- ==== Sys2Proof/Machine/Permute.lean ====
section
/-! DEFINITION. Permute, lane and mask instructions, opcodes 0x60 to 0x6F (05 R133 to R140). -/

namespace Sys2Proof.Machine
open Sys2Proof

/-! ### Shared computations -/

/-- Source a of format A as a cross-lane source (05 R102): a vector register reads zero outside m0; a scalar register supplies its value to every lane (02 R39). -/
def Ctx.crossA (c : Ctx) (f : FormA) (j : Nat) : Nat :=
  if opndScalar f.a || c.f.mask.getLsbD j then c.g.srcA f 1 j else 0

/-- The same for format C. -/
def Ctx.crossC (c : Ctx) (f : FormC) (j : Nat) : Nat :=
  if opndScalar f.a || c.f.mask.getLsbD j then c.g.lane f.a j else 0

/-- The bytes of one lane chosen by a selector (05 R134). -/
def permWord (a b sel : Nat) : Nat :=
  ((List.range 4).map fun k =>
    let s := sel / 2 ^ (8 * k) % 256
    let i := s % 8
    let x := if 128 ≤ s then 0 else if i < 4 then a / 2 ^ (8 * i) % 256 else b / 2 ^ (8 * (i - 4)) % 256
    x * 2 ^ (8 * k)).sum

/-- lshift: a lane's value from n lanes below, zero where there is none (05 R135). -/
def laneShift (src : Nat → Nat) (n : Int) (j : Nat) : Nat :=
  if 0 ≤ (j : Int) - n ∧ (j : Int) - n ≤ 127 then src ((j : Int) - n).toNat else 0

/-- bshift: the same on the 512 bytes of a register (05 R135). -/
def byteShift (src : Nat → Nat) (n : Int) (j : Nat) : Nat :=
  ((List.range 4).map fun k =>
    let t : Int := ((4 * j + k : Nat) : Int) - n
    let x := if 0 ≤ t ∧ t ≤ 511 then src (t.toNat / 4) / 2 ^ (8 * (t.toNat % 4)) % 256 else 0
    x * 2 ^ (8 * k)).sum

/-- tlk: each byte's low nibble looked up in a table of 16 bytes (05 R136). -/
def tlkWord (a table : Nat) : Nat :=
  ((List.range 4).map fun i =>
    table / 2 ^ (8 * (a / 2 ^ (8 * i) % 16)) % 256 * 2 ^ (8 * i)).sum

/-- The lanes of the effective mask whose source is nonzero. -/
def Ctx.nonzero (c : Ctx) (f : FormA) (m : Mask) : List Nat := (lanesOf m).filter fun j => c.g.srcA f 1 j != 0

/-- The running sums of 05 R140: the sum before lane j of the effective mask. -/
def Ctx.scanAt (c : Ctx) (f : FormA) (m : Mask) (j : Nat) : Nat :=
  (((lanesOf m).filter (· < j)).map fun i => c.g.srcA f 1 i).sum + c.g.srcB f 1 0

/-- The exact sum of reduce `.f32`, rounded once (05 R140). -/
def Ctx.reduceFloat (c : Ctx) (f : FormA) (m : Mask) : Nat :=
  let rdn := f.rnd == .rdn
  roundF fmt32 f.rnd false 0
    (((lanesOf m).map fun j => fmt32.value (c.g.srcA f 1 j)).foldl (XR.add rdn) (fmt32.value (c.g.srcB f 1 0)))

/-- A mask operation on the lanes of the effective mask (05 R139). -/
def maskOp (s : State) (f : FormA) (op : Mask → Mask → Mask) : Out :=
  alu s f.g [] [] false fun c m =>
    let d := opndIdx f.dst
    .ok (c.g.write (.msk d m (op (c.g.mreg c.f.mask (opndIdx f.a)) (c.g.mreg c.f.mask (opndIdx f.b)))))

/-! ### Meanings -/

/-- PERM of format A (05 R134). -/
def execPerm (f : FormA) (s : State) : Out :=
  alu s f.g [(1, f.dst)] [(1, f.a), (1, f.b)] true fun c m =>
    .ok (c.g.writes (destWrites m 1 f.dst fun j => c.crossA f (c.g.srcB f 1 j % 128)))

/-- PERM_BYTES (05 R134). -/
def execPermBytes (f : FormB) (s : State) : Out := aluB3 s f 1 1 1 1 permWord

/-- BCAST of format A (05 R135). -/
def execBcast (f : FormA) (s : State) : Out :=
  alu s f.g [(1, f.dst)] [(1, f.a), (1, f.b)] true fun c m =>
    .ok (c.g.writes (destWrites m 1 f.dst fun _ => c.crossA f (c.g.srcB f 1 0 % 128)))

/-- BCAST_IMM (05 R135). -/
def execBcastImm (f : FormC) (s : State) : Out :=
  alu s f.g [(1, f.dst)] [(1, f.a)] true fun c m =>
    .ok (c.g.writes (destWrites m 1 f.dst fun _ => c.crossC f (f.imm.toNat % 128)))

/-- LSHIFT of format A (05 R135). -/
def execLshift (f : FormA) (s : State) : Out :=
  alu s f.g [(1, f.dst)] [(1, f.a), (1, f.b)] true fun c m =>
    .ok (c.g.writes (destWrites m 1 f.dst (laneShift (c.crossA f) (signed 32 (c.g.srcB f 1 0)))))

/-- LSHIFT_IMM (05 R135). -/
def execLshiftImm (f : FormC) (s : State) : Out :=
  alu s f.g [(1, f.dst)] [(1, f.a)] true fun c m =>
    .ok (c.g.writes (destWrites m 1 f.dst (laneShift (c.crossC f) (signed 22 f.imm.toNat))))

/-- BSHIFT of format A (05 R135). -/
def execBshift (f : FormA) (s : State) : Out :=
  alu s f.g [(1, f.dst)] [(1, f.a), (1, f.b)] true fun c m =>
    .ok (c.g.writes (destWrites m 1 f.dst (byteShift (c.crossA f) (signed 32 (c.g.srcB f 1 0)))))

/-- BSHIFT_IMM (05 R135). -/
def execBshiftImm (f : FormC) (s : State) : Out :=
  alu s f.g [(1, f.dst)] [(1, f.a)] true fun c m =>
    .ok (c.g.writes (destWrites m 1 f.dst (byteShift (c.crossC f) (signed 22 f.imm.toNat))))

/-- TLK (05 R136). -/
def execTlk (f : FormA) (s : State) : Out :=
  alu s f.g [(1, f.dst)] [(1, f.a), (4, f.b)] false fun c m =>
    .ok (c.g.writes (destWrites m 1 f.dst fun j => tlkWord (c.g.srcA f 1 j) (c.g.wide 4 f.b j)))

/-- BSEL (05 R137). -/
def execBsel (f : FormB) (s : State) : Out :=
  aluB3 s f 1 1 1 1 fun a b c => (a &&& c) ||| (b &&& (2 ^ 32 - 1 - c))

/-- VOTE (05 R138). -/
def execVote (f : FormA) (s : State) : Out :=
  if f.ty = .b128 then
    alu s f.g [(4, f.dst)] [(1, f.a)] false fun c m =>
      .ok (c.g.writes (destWrites m 4 f.dst fun _ => ((c.nonzero f m).map fun j => 2 ^ j).sum))
  else
    alu s f.g [] [(1, f.a)] false fun c m =>
      .ok (c.g.write (.msk (opndIdx f.dst) m (mkMask fun j => c.g.srcA f 1 j != 0)))

/-- MPOP (05 R138). -/
def execMpop (f : FormA) (s : State) : Out :=
  alu s f.g [(1, f.dst)] [(1, f.a)] false fun c m =>
    .ok (c.g.writes (destWrites m 1 f.dst fun _ => (c.nonzero f m).length))

/-- MFIRST (05 R138). -/
def execMfirst (f : FormA) (s : State) : Out :=
  alu s f.g [(1, f.dst)] [(1, f.a)] false fun c m =>
    .ok (c.g.writes (destWrites m 1 f.dst fun _ => (c.nonzero f m).headD 128))

/-- MAND (05 R139). -/
def execMand (f : FormA) (s : State) : Out := maskOp s f (· &&& ·)

/-- MOR (05 R139). -/
def execMor (f : FormA) (s : State) : Out := maskOp s f (· ||| ·)

/-- MXOR (05 R139). -/
def execMxor (f : FormA) (s : State) : Out := maskOp s f (· ^^^ ·)

/-- MNOT (05 R139). -/
def execMnot (f : FormA) (s : State) : Out := maskOp s f fun a _ => ~~~a

/-- SCAN (05 R140). -/
def execScan (f : FormA) (s : State) : Out :=
  alu s f.g [(1, f.dst)] [(1, f.a), (1, f.b)] false fun c m =>
    .ok (c.g.writes (destWrites m 1 f.dst fun j => c.scanAt f m j % 2 ^ 32))

/-- REDUCE (05 R140). -/
def execReduce (f : FormA) (s : State) : Out :=
  alu s f.g [(1, f.dst)] [(1, f.a), (1, f.b)] false fun c m =>
    let v := if f.ty = .f32 then c.reduceFloat f m else c.scanAt f m 128 % 2 ^ 32
    .ok (c.g.writes (destWrites m 1 f.dst fun _ => v))

/-- RANK (05 R140). -/
def execRank (f : FormA) (s : State) : Out :=
  alu s f.g [(1, f.dst)] [(1, f.a)] false fun c m =>
    let ls := lanesOf m
    .ok (c.g.writes (destWrites m 1 f.dst fun j =>
      (ls.filter fun i => decide (i < j) && c.g.srcA f 1 i == c.g.srcA f 1 j).length))

end Sys2Proof.Machine
end

