-- ==== Sys2Proof/Machine/Power.lean ====
section
/-! DEFINITION. The mailbox (22 R428), configuration (R429), starts (R430 to R432), power states (R433 to R435), clock and cooling (R436, R437), and the Kilsy record as it is read (16 R357, R358). -/

namespace Sys2Proof.Machine
open Sys2Proof

/-! ### The Kilsy record (16 R357, R358) -/

/-- A crazing-map entry (16 R358). -/
def CoreRec.entry (r : CoreRec) : Nat :=
  let n := min r.demerits.length 4
  r.charges % 2 ^ 16 * 2 ^ 48 + r.passed % 2 ^ 32 * 2 ^ 16 + r.aborted % 2 ^ 8 * 2 ^ 8 + n * 4
    + (if r.scanFailed then 3 else if r.aside then 2 else if n = 0 then 0 else 1)

/-- A link lane map (16 R358). -/
def LinkRec.entry (r : LinkRec) : Nat := r.losses % 2 ^ 32 * 2 ^ 16 + (if r.half then 2 ^ 8 else 0) + r.lanes.toNat

/-- A suspect-interval entry with its list handle, its place in the list (16 R358; log 13). -/
def Suspect.entry (x : Suspect) (handle : Nat) : List Byte :=
  toBytes 1 (dieOfCore x.core) ++ toBytes 1 (x.core / 4 % 20) ++ toBytes 1 (x.core % 4) ++ toBytes 1 0 ++ toBytes 4 x.segs.length
    ++ toBytes 8 x.from_ ++ toBytes 8 x.at_ ++ toBytes 4 handle ++ toBytes 4 0

/-- A link's record. -/
def State.link (s : State) (l : Nat) : LinkRec := s.links.getD l LinkRec.reset

/-- What the signature covers (16 R357). -/
def State.kilsyBody (s : State) : List Byte :=
  toBytes 4 1 ++ toBytes 4 7088 ++ toBytes 8 s.kilsySeq ++ toBytes 16 s.serial ++ toBytes 8 s.kilsyTime ++ toBytes 4 s.startCount ++ toBytes 4 0
    ++ ((List.range Config.cores).flatMap fun c => toBytes 8 (s.core c).entry)
    ++ ((List.range 18).flatMap fun l => toBytes 8 (s.link l).entry)
    ++ ((List.range 16).flatMap fun i => toBytes 8 (s.counters.getD i 0))
    ++ toBytes 4 s.poisonList.length ++ toBytes 4 s.poisonDropped
    ++ ((List.range 256).flatMap fun i => toBytes 8 (s.poisonList.getD i 0))
    ++ toBytes 4 s.suspects.length ++ toBytes 4 s.suspectDropped
    ++ ((List.range 64).flatMap fun i => match s.suspects[i]? with
        | some x => x.entry i
        | none => toBytes 32 0)

/-- The record of 7,088 bytes, its signature most significant byte first. -/
def State.kilsyRecord (s : State) : List Byte :=
  s.kilsyBody ++ (toBytes 96 (Config.kilsySignature s.kilsyBody)).reverse

/-- A segment's name as READ_KILSY returns it: partition, launch identifier, block index and segment, a word each (log 13). -/
def SegName.bytes (n : SegName) : List Byte := toBytes 4 n.part ++ toBytes 4 n.ident ++ toBytes 4 n.index ++ toBytes 4 n.seg

/-! ### The mailbox (22 R428) -/

/-- The device in A0 (22 R435). -/
def State.woken (s : State) : State :=
  match s.dev with
  | .power _ => { s with dev := .ready }
  | .startingCold | .startingWarm | .ready | .maintenance | .off => s

/-- A mailbox command whose condition fails answers REFUSED, 0x8001 (22 R428). -/
def State.mailRefused (s : State) : State := { s with sent := s.sent ++ [Sent.returns 0x8001] }

/-- READ_KILSY (22 R428, 16 R358): the record, or a segment list by handle. -/
def execReadKilsy (list : Option Nat) (s : State) : Out :=
  let t := s.woken
  .next (match list with
    | none => { t with sent := t.sent ++ [Sent.bytes false t.kilsyRecord] }
    | some h =>
      match t.suspects[h]? with
      | none => t.mailRefused
      | some x => { t with sent := t.sent ++ [Sent.bytes false (x.segs.flatMap SegName.bytes)] })

/-- An error entry as its partition reads it (17 R374): it names no unit, and its own access by the virtual address; none where it is not the partition's. -/
def ErrRec.seenBy (e : ErrRec) (part : Nat) : Option (List Byte) :=
  let own := ((e.bytes[3]?).getD 0).toNat
  if 128 ≤ own ∧ own % 16 = part then some (e.bytes.take 4 ++ toBytes 4 0 ++ toBytes 8 e.va ++ e.bytes.drop 16) else none

/-- READ_ERRORS (22 R428, 17 R374): the entries of a die, oldest first, and how many were overwritten; for a partition through its virtual function, of which the function of a disabled one answers Unsupported Request (22 R427), its own entries. -/
def execReadErrors (log : ErrorRead) (s : State) : Out :=
  .next (match log.viewer with
    | none =>
      let t := s.woken
      { t with sent := t.sent ++ [Sent.reply [t.overwritten.getD log.die 0], Sent.bytes false ((t.errors.getD log.die []).flatMap (·.bytes))] }
    | some p =>
      if (s.part p).enable then { s with sent := s.sent ++ [Sent.bytes false ((s.errors.getD log.die []).filterMap fun e => e.seenBy p).flatten] }
      else { s with sent := s.sent ++ [Sent.unsupported] })

/-- The byte of DEVICE_STATE (22 R433). -/
def DevState.code : DevState → Nat
  | .startingCold => 0
  | .startingWarm => 1
  | .ready => 2
  | .maintenance => 3
  | .power a => 4 + 32 * a
  | .off => 0

/-- DEVICE_STATE (22 R433): it answers the state the command finds, and wakes the device. -/
def execDeviceState (s : State) : Out := .next { s.woken with sent := s.sent ++ [Sent.reply [s.dev.code]] }

/-- WAKE (22 R435); refused in maintenance (R432). -/
def execWake (s : State) : Out := .next (if s.dev = .maintenance then s.mailRefused else s.woken)

/-- SET_TOLERANCE (22 R428, R434), with the host region of A4 where one is registered. -/
def execSetTolerance (micros : Nat) (region : Option Nat) (s : State) : Out :=
  let t := s.woken
  let bad : Bool := match region with | some r => !isHost r | none => false
  .next (if s.dev = .maintenance ∨ 2 ^ 32 ≤ micros ∨ bad then t.mailRefused else { t with tolerance := micros, a4Region := region })

/-- UPDATE_CONFIG (22 R428): in maintenance, or with no partition enabled. -/
def execUpdateConfig (block : BitVec 1280) (s : State) : Out :=
  let t := s.woken
  .next (if s.dev ≠ .maintenance ∧ t.parts.rows.any (·.2.enable) then t.mailRefused else { t with config := block })

/-! ### Starting (22 R429 to R432) -/

/-- A field of the configuration block, by its first byte and its bytes. -/
def configField (c : BitVec 1280) (at_ n : Nat) : Nat := bitsAt c.toNat (8 * at_) (8 * n)

/-- The rules of 22 R429. -/
def configKeeps (c : BitVec 1280) (serial : Nat) : Bool :=
  decide (configField c 0 4 = 1) && decide (configField c 4 4 = 160) && decide (configField c 8 16 = serial)
    && decide (600 ≤ configField c 24 2 ∧ configField c 24 2 ≤ 1600) && decide (1000 ≤ configField c 26 2 ∧ configField c 26 2 ≤ 2000)
    && decide (configField c 28 4 < 2 ^ 18) && decide (configField c 32 32 = 0)

/-- The links as a start finds them: trained at full width where a cold start trains them, down where the configuration leaves them out (22 R429, R430). -/
def State.startLinks (s : State) (cold : Bool) : Table LinkRec :=
  (List.range 18).foldl (fun (t : Table LinkRec) l =>
    let r := s.link l
    let on := (configField s.config 28 4).testBit l
    t.put l { r with lanes := if cold then 0xFF else r.lanes, half := !cold && r.half, down := !on || (!cold && r.down) }) Table.empty

/-- A core's record after a start: after a cold one its scan has passed, which keeps its state and demerits of the crazing map (22 R430 step 3); a failing core's is taken up afterwards. -/
def CoreRec.started (r : CoreRec) (cold : Bool) : CoreRec :=
  let names := r.held.map fun n => ({ n with check := none } : SegName)
  if cold then
    { r with passed := min (r.passed + 1) (2 ^ 32 - 1), aborted := 0, held := [], lastPass := 0, testing := false,
             targeted := false, testedSince := true, slice := true }
  else { r with held := names, testing := false, targeted := false, testedSince := false, slice := true }

/-- A core whose scan fails at a cold start: its list becomes a suspect interval, and it is set aside (22 R430 step 3, 16 R356). -/
def State.failScan (s : State) (old : State) (core : Nat) : State :=
  let r := old.core core
  let names := r.held.map fun n => ({ n with check := none } : SegName)
  let r1 : CoreRec := { r with held := names, testing := false, targeted := false, slice := true }
  let s1 : State := { s with coreRecs := s.coreRecs.put core r1 }
  (s1.suspect core).setAside core true

/-- The calibration and its checksum after a start (22 R429, R431): a cold one has trained anew, with data that no rule gives (free, log 4). -/
def State.calibration (s : State) (cold : Bool) : Nat × Nat :=
  if cold then ((Config.freeWord s.free 131076 0).toNat, Config.calibrationSum (Config.freeWord s.free 131076 0).toNat)
  else (s.calib, s.calibSum)

/-- What a start leaves (22 R430 steps 3 to 6, R431): device memory zero and clean, every partition, gate, group and key gone; the Kilsy record, the error records, the configuration and the world outside as they were. -/
def State.restarted (s : State) (cold : Bool) (failing : List Nat) : State :=
  let c := s.calibration cold
  let t : State := { State.reset with
    mem := s.mem.filter fun c => !isDevice c.1,
    poison := s.poison.filter fun l => !isDevice (128 * l),
    coreRecs := (List.range Config.cores).foldl (fun (m : Table CoreRec) c => m.put c ((s.core c).started cold)) Table.empty,
    links := s.startLinks cold, errors := s.errors, overwritten := s.overwritten,
    kilsySeq := s.kilsySeq + 1, serial := s.serial, startCount := (s.startCount + 1) % 2 ^ 32, counters := s.counters,
    poisonList := s.poisonList, poisonDropped := s.poisonDropped, suspects := s.suspects, suspectDropped := s.suspectDropped,
    dumpCounts := s.dumpCounts, config := s.config, calib := c.1, calibSum := c.2, timebase := if cold then 0 else s.timebase, warm := !cold,
    agenda := s.agenda, free := s.free, uid := s.uid, turn := s.turn, tick := s.tick, sent := s.sent }
  let u : State := { t with kilsyTime := t.now }
  (failing.filter fun c => decide (c < Config.cores)).eraseDups.foldl (fun (a : State) c => a.failScan s c) u

/-- A start that fails (22 R432): counted in flash and recorded with an entry of unit 8, whose type and counter the manual leaves open (log 4); the third in a row ends in maintenance. -/
def State.startFailed (s : State) : State :=
  let n := s.startFails + 1
  let lost : State := { State.reset with
    mem := s.mem, poison := s.poison, coreRecs := s.coreRecs, links := s.links, errors := s.errors, overwritten := s.overwritten,
    kilsySeq := s.kilsySeq, kilsyTime := s.kilsyTime, serial := s.serial, startCount := s.startCount, counters := s.counters,
    poisonList := s.poisonList, poisonDropped := s.poisonDropped, suspects := s.suspects, suspectDropped := s.suspectDropped,
    dumpCounts := s.dumpCounts, config := s.config, calib := s.calib, calibSum := s.calibSum, timebase := s.timebase, dev := if n < 3 then .startingCold else .maintenance,
    startFails := n, warm := false, agenda := s.agenda, free := s.free + 1, uid := s.uid, turn := s.turn, tick := s.tick, sent := s.sent }
  let ty := 1 + (Config.freeByte s.free 0).toNat % 18
  (lost.count ((Config.freeByte s.free 1).toNat % 15) 1 none).logError
    { ty := ty, code := 0, unit := 8, owner := none, core := 0, bank := 0, line := 0, launch := 0xFFFFFFFF, block := 0xFFFFFFFF }

/-- A start: the configuration is verified first, a warm one uses calibration whose checksum holds (22 R431), and `ok` says whether the other steps succeed. -/
def State.start (s : State) (cold : Bool) (failing : List Nat) (ok : Bool) : State :=
  if ok && configKeeps s.config s.serial && Config.configVerifies s.config && (cold || s.calibSum == Config.calibrationSum s.calib) then s.restarted cold failing else s.startFailed

/-- START_COLD (22 R430). -/
def execStartCold (failing : List Nat) (ok : Bool) (s : State) : Out := .next (s.start true failing ok)

/-- START_WARM (22 R431); the start that follows a failed one, or a loss of power, is cold (R430, R437). -/
def execStartWarm (ok : Bool) (s : State) : Out :=
  .next (s.start (decide (0 < s.startFails ∨ s.dev = .off)) [] ok)

/-! ### Power states (22 R434, R435) -/

/-- Whether the device is idle (22 R434). -/
def State.idle (s : State) : Bool :=
  (s.launches.rows.all fun r => r.2.ended.isSome && r.2.recorded)
    && (s.blocks.rows.all fun r => decide (r.2.life = .ended))
    && (s.jobs.rows.all fun r => decide (r.2.life = .done))
    && (s.parts.rows.all fun r => (r.2.packets.rows.all fun q => q.2.open_.isEmpty) && r.2.svcs.rows.isEmpty)
    && s.gateOps.rows.isEmpty

/-- The lowest state whose wake time is at or below the tolerance: 2 µs, 50 µs, 1 ms, 20 ms; A3 and A4 not for a member of a collective group, A4 only with its region. -/
def State.lowest (s : State) : Nat :=
  let member := s.colls.rows.any fun r => r.2.member
  if 20000 ≤ s.tolerance ∧ s.a4Region.isSome ∧ !member then 4
  else if 1000 ≤ s.tolerance ∧ !member then 3
  else if 50 ≤ s.tolerance then 2
  else if 2 ≤ s.tolerance then 1
  else 0

/-- IDLE_POWER_ENTRY (22 R434). -/
def execIdlePowerEntry (s : State) : Out :=
  .next (if s.dev = .ready ∧ s.idle ∧ s.lowest ≠ 0 then { s with dev := .power s.lowest } else s)

/-- WAKE_EVENT (22 R435): in A4 only a CXL.mem access, of these events, wakes the device. -/
def execWakeEvent (cxlMem : Bool) (s : State) : Out :=
  .next (if s.dev = .power 4 ∧ !cxlMem then s else s.woken)

/-! ### Clock and cooling (22 R436, R437) -/

/-- The guaranteed clock in MHz at a power limit in W (22 R436). -/
def guaranteedClock (limit ceiling : Nat) : Nat := min ceiling (1000 + 600 * (limit - 600) / 1000) / 25 * 25

/-- THERMAL_THROTTLE (22 R437): the event enters the die error record, with a type the manual leaves open (log 4). -/
def execThermalThrottle (s : State) : Out :=
  .next (({ s with throttled := true, free := s.free + 1 } : State).logError
    { ty := 1 + (Config.freeByte s.free 0).toNat % 18, code := 0, unit := 8, owner := none, core := 0, bank := 0, line := 0,
      launch := 0xFFFFFFFF, block := 0xFFFFFFFF })

/-- THERMAL_SHUTDOWN (22 R437): without power nothing of the device but its flash lives on. -/
def execThermalShutdown (s : State) : Out :=
  .next { State.reset with
    mem := s.mem.filter fun c => !isDevice c.1, poison := s.poison.filter fun l => !isDevice (128 * l),
    coreRecs := s.coreRecs.map fun _ r => { r with held := [], testing := false, targeted := false }, links := s.links,
    errors := s.errors, overwritten := s.overwritten, kilsySeq := s.kilsySeq, kilsyTime := s.kilsyTime, serial := s.serial,
    startCount := s.startCount, counters := s.counters, poisonList := s.poisonList, poisonDropped := s.poisonDropped,
    suspects := s.suspects, suspectDropped := s.suspectDropped, dumpCounts := s.dumpCounts, config := s.config,
    calib := s.calib, calibSum := s.calibSum, startFails := s.startFails, dev := .off, warm := false, agenda := s.agenda, free := s.free, uid := s.uid, turn := s.turn,
    tick := s.tick, sent := s.sent }

/-! ### What the device's state does to a step of the machine -/

/-- How an event reaches the device (22 R428, R435). -/
inductive Via where
  | start (cold : Bool)  -- START
  | look         -- DEVICE_STATE
  | mailbox      -- another mailbox command
  | cxlMem       -- a CXL.mem access
  | wakes        -- a gate command, a peer access, a packet
  | command      -- a command of the host, a driver or a debugger to a front end, which does not wake it
  | inside       -- the machine's own, or what does not wake it
  deriving DecidableEq, Repr

/-- How a row's event reaches the device. -/
def via : Instr → Via
  | .startCold _ _ => .start true
  | .startWarm _ => .start false
  | .deviceState => .look
  | .readKilsy _ | .readErrors ⟨_, none⟩ | .setTolerance _ _ | .wake | .updateConfig _ => .mailbox
  | .hostMemWrite _ _ | .hostMemRead _ _ => .cxlMem
  | .gateCreate _ _ | .gateSetAcl _ _ | .gateSetRate _ _ _ | .gateDestroy _ | .gateFreeze _ | .gateExport _ | .gateImport _ _ _
  | .gateThaw _ | .deferredCountClear _ | .peerWrite _ _ | .inboundPeerRead _ _ | .inboundPeerAtomic _ _ _ _
  | .launchPacket _ _ _ | .copyPacket _ _ | .workItemPacket _ _ => .wakes
  | .resident _ _ | .declined _ _ | .partitionResume _ | .hostPreempt _ | .lend _ _ | .reclaim _ _ | .partitionConfigWrite _ _
  | .rangeTableWrite _ _ _ | .regionAttributeWrite _ _ _ _ | .tlbInvalidation _ _ _ | .pageRequestRingRegister _ _ _
  | .packetQueueRegister _ _ _ | .workQueueCapacity _ _ _ | .expertTableWrite _ _ _ | .checkAreaRegister _ _ _
  | .serviceRingRegister _ _ | .adminQueueRegister _ | .reply _ _ _ | .counterWrite _ _ _ _ | .tenantKeyLoad _ _ _ | .tenantKeyClear _ _
  | .collGroupCreate _ _ _ _ _ _ | .memberRemove _ _ | .debugAttach _ _ | .debugDetach _ | .debugHold _ _ _ | .debugRelease _ _ _
  | .debugOne _ _ _ _ | .debugSetBp _ _ _ _ | .debugClrBp _ _ | .debugRead _ _ _ _ | .debugWrite _ _ _ _ _ | .traceEnable _ _ _ _ _
  | .ringRegister _ _ _ _ | .dump _ _ _ => .command
  | _ => .inside

/-- Whether a row is a gate command (14 R315). -/
def isGateCommand : Instr → Bool
  | .gateCreate _ _ | .gateSetAcl _ _ | .gateSetRate _ _ _ | .gateDestroy _ | .gateFreeze _ | .gateExport _ | .gateImport _ _ _
  | .gateThaw _ | .deferredCountClear _ => true
  | _ => false

/-- Whether a command is one of those that a device in maintenance takes (22 R432). -/
def maintains : Instr → Bool
  | .readKilsy _ | .readErrors _ | .deviceState | .startCold _ _ | .startWarm _ | .updateConfig _ => true
  | _ => false

/-- The state in which an event is served, or the state its step leaves without it. In a device without power only a START is; in a start the one that is awaited, after a failure a cold one, and DEVICE_STATE, while other mailbox commands answer Busy (22 R428, R430); in maintenance the commands that R432 names, others being refused. An event that wakes the device is served after the wake (R435). -/
def State.before (s : State) (i : Instr) : Except State State :=
  match s.dev, via i with
  | .ready, _ => .ok s
  | .maintenance, .mailbox => if maintains i then .ok s else .error s.mailRefused
  | .maintenance, .command => .error s.denied
  | .maintenance, .wakes => if isGateCommand i then .error s.denied else .ok s
  | .maintenance, _ => .ok s
  | .off, .start _ => .ok s
  | .off, _ => .error s
  | .startingCold, .look | .startingWarm, .look | .startingCold, .start true | .startingWarm, .start false => .ok s
  | .startingCold, .mailbox | .startingWarm, .mailbox | .startingCold, .start false | .startingWarm, .start true =>
    .error { s with sent := s.sent ++ [Sent.busy] }
  | .startingCold, _ | .startingWarm, _ => .error s
  | .power _, .look | .power _, .inside | .power _, .command | .power _, .start _ => .ok s
  | .power _, .mailbox | .power _, .cxlMem => .ok s.woken
  | .power a, .wakes => if a = 4 then .error s else .ok s.woken

end Sys2Proof.Machine
end

