-- ==== Sys2Proof/Machine/Dispatch.lean ====
section
/-! DEFINITION. The dispatch: one arm per constructor of Instr, each one direct call of its meaning. -/

namespace Sys2Proof.Machine
open Sys2Proof

def exec (i : Instr) (s : State) : Host.Outcome State Fault Refusal :=
  match i with
  | .add f => Sys2Proof.Machine.execAdd f s
  | .addImm f => Sys2Proof.Machine.execAddImm f s
  | .sub f => Sys2Proof.Machine.execSub f s
  | .subImm f => Sys2Proof.Machine.execSubImm f s
  | .addc f => Sys2Proof.Machine.execAddc f s
  | .subb f => Sys2Proof.Machine.execSubb f s
  | .mul f => Sys2Proof.Machine.execMul f s
  | .mulImm f => Sys2Proof.Machine.execMulImm f s
  | .mulh f => Sys2Proof.Machine.execMulh f s
  | .mulw f => Sys2Proof.Machine.execMulw f s
  | .mad f => Sys2Proof.Machine.execMad f s
  | .madw f => Sys2Proof.Machine.execMadw f s
  | .div f => Sys2Proof.Machine.execDiv f s
  | .divImm f => Sys2Proof.Machine.execDivImm f s
  | .rem f => Sys2Proof.Machine.execRem f s
  | .remImm f => Sys2Proof.Machine.execRemImm f s
  | .neg f => Sys2Proof.Machine.execNeg f s
  | .abs f => Sys2Proof.Machine.execAbs f s
  | .min f => Sys2Proof.Machine.execMin f s
  | .minImm f => Sys2Proof.Machine.execMinImm f s
  | .max f => Sys2Proof.Machine.execMax f s
  | .maxImm f => Sys2Proof.Machine.execMaxImm f s
  | .and f => Sys2Proof.Machine.execAnd f s
  | .andImm f => Sys2Proof.Machine.execAndImm f s
  | .or f => Sys2Proof.Machine.execOr f s
  | .orImm f => Sys2Proof.Machine.execOrImm f s
  | .xor f => Sys2Proof.Machine.execXor f s
  | .xorImm f => Sys2Proof.Machine.execXorImm f s
  | .not f => Sys2Proof.Machine.execNot f s
  | .andn f => Sys2Proof.Machine.execAndn f s
  | .shl f => Sys2Proof.Machine.execShl f s
  | .shlImm f => Sys2Proof.Machine.execShlImm f s
  | .shr f => Sys2Proof.Machine.execShr f s
  | .shrImm f => Sys2Proof.Machine.execShrImm f s
  | .sra f => Sys2Proof.Machine.execSra f s
  | .sraImm f => Sys2Proof.Machine.execSraImm f s
  | .rotl f => Sys2Proof.Machine.execRotl f s
  | .rotlImm f => Sys2Proof.Machine.execRotlImm f s
  | .rotr f => Sys2Proof.Machine.execRotr f s
  | .rotrImm f => Sys2Proof.Machine.execRotrImm f s
  | .clz f => Sys2Proof.Machine.execClz f s
  | .popc f => Sys2Proof.Machine.execPopc f s
  | .brev f => Sys2Proof.Machine.execBrev f s
  | .bfx f => Sys2Proof.Machine.execBfx f s
  | .bfxImm f => Sys2Proof.Machine.execBfxImm f s
  | .bfi f => Sys2Proof.Machine.execBfi f s
  | .bfiImm f => Sys2Proof.Machine.execBfiImm f s
  | .sel f => Sys2Proof.Machine.execSel f s
  | .cmp f => Sys2Proof.Machine.execCmp f s
  | .cmpImm f => Sys2Proof.Machine.execCmpImm f s
  | .lea f => Sys2Proof.Machine.execLea f s
  | .addw f => Sys2Proof.Machine.execAddw f s
  | .addwImm f => Sys2Proof.Machine.execAddwImm f s
  | .mov f => Sys2Proof.Machine.execMov f s
  | .movImm f => Sys2Proof.Machine.execMovImm f s
  | .movi f => Sys2Proof.Machine.execMovi f s
  | .movx f => Sys2Proof.Machine.execMovx f s
  | .movy f => Sys2Proof.Machine.execMovy f s
  | .dot4 f => Sys2Proof.Machine.execDot4 f s
  | .sad f => Sys2Proof.Machine.execSad f s
  | .iota f => Sys2Proof.Machine.execIota f s
  | .fadd f => Sys2Proof.Machine.execFadd f s
  | .fsub f => Sys2Proof.Machine.execFsub f s
  | .fmul f => Sys2Proof.Machine.execFmul f s
  | .fma f => Sys2Proof.Machine.execFma f s
  | .fnma f => Sys2Proof.Machine.execFnma f s
  | .fmin f => Sys2Proof.Machine.execFmin f s
  | .fmax f => Sys2Proof.Machine.execFmax f s
  | .fminm f => Sys2Proof.Machine.execFminm f s
  | .fmaxm f => Sys2Proof.Machine.execFmaxm f s
  | .fabs f => Sys2Proof.Machine.execFabs f s
  | .fneg f => Sys2Proof.Machine.execFneg f s
  | .fcmp f => Sys2Proof.Machine.execFcmp f s
  | .frcp f => Sys2Proof.Machine.execFrcp f s
  | .frsq f => Sys2Proof.Machine.execFrsq f s
  | .fsqrt f => Sys2Proof.Machine.execFsqrt f s
  | .fexp2 f => Sys2Proof.Machine.execFexp2 f s
  | .flog2 f => Sys2Proof.Machine.execFlog2 f s
  | .fsinpi f => Sys2Proof.Machine.execFsinpi f s
  | .fcospi f => Sys2Proof.Machine.execFcospi f s
  | .ftanh f => Sys2Proof.Machine.execFtanh f s
  | .fsigm f => Sys2Proof.Machine.execFsigm f s
  | .ffrac f => Sys2Proof.Machine.execFfrac f s
  | .fround f => Sys2Proof.Machine.execFround f s
  | .fclass f => Sys2Proof.Machine.execFclass f s
  | .fldexp f => Sys2Proof.Machine.execFldexp f s
  | .fldexpImm f => Sys2Proof.Machine.execFldexpImm f s
  | .ffrexp f => Sys2Proof.Machine.execFfrexp f s
  | .fdot2 f => Sys2Proof.Machine.execFdot2 f s
  | .cvt f => Sys2Proof.Machine.execCvt f s
  | .cvti f => Sys2Proof.Machine.execCvti f s
  | .pack f => Sys2Proof.Machine.execPack f s
  | .unpack f => Sys2Proof.Machine.execUnpack f s
  | .unpackElement f => Sys2Proof.Machine.execUnpackElement f s
  | .dq f => Sys2Proof.Machine.execDq f s
  | .qz f => Sys2Proof.Machine.execQz f s
  | .srseed f => Sys2Proof.Machine.execSrseed f s
  | .srseedImm f => Sys2Proof.Machine.execSrseedImm f s
  | .srread f => Sys2Proof.Machine.execSrread f s
  | .perm f => Sys2Proof.Machine.execPerm f s
  | .permBytes f => Sys2Proof.Machine.execPermBytes f s
  | .bcast f => Sys2Proof.Machine.execBcast f s
  | .bcastImm f => Sys2Proof.Machine.execBcastImm f s
  | .lshift f => Sys2Proof.Machine.execLshift f s
  | .lshiftImm f => Sys2Proof.Machine.execLshiftImm f s
  | .bshift f => Sys2Proof.Machine.execBshift f s
  | .bshiftImm f => Sys2Proof.Machine.execBshiftImm f s
  | .tlk f => Sys2Proof.Machine.execTlk f s
  | .bsel f => Sys2Proof.Machine.execBsel f s
  | .vote f => Sys2Proof.Machine.execVote f s
  | .mpop f => Sys2Proof.Machine.execMpop f s
  | .mfirst f => Sys2Proof.Machine.execMfirst f s
  | .mand f => Sys2Proof.Machine.execMand f s
  | .mor f => Sys2Proof.Machine.execMor f s
  | .mxor f => Sys2Proof.Machine.execMxor f s
  | .mnot f => Sys2Proof.Machine.execMnot f s
  | .scan f => Sys2Proof.Machine.execScan f s
  | .reduce f => Sys2Proof.Machine.execReduce f s
  | .rank f => Sys2Proof.Machine.execRank f s
  | .br f => Sys2Proof.Machine.execBr f s
  | .bru f => Sys2Proof.Machine.execBru f s
  | .jmp f => Sys2Proof.Machine.execJmp f s
  | .call f => Sys2Proof.Machine.execCall f s
  | .ret f => Sys2Proof.Machine.execRet f s
  | .brx f => Sys2Proof.Machine.execBrx f s
  | .exit f => Sys2Proof.Machine.execExit f s
  | .yield f => Sys2Proof.Machine.execYield f s
  | .sleep f => Sys2Proof.Machine.execSleep f s
  | .nop f => Sys2Proof.Machine.execNop f s
  | .trap f => Sys2Proof.Machine.execTrap f s
  | .tret f => Sys2Proof.Machine.execTret f s
  | .pdone f => Sys2Proof.Machine.execPdone f s
  | .rmark f => Sys2Proof.Machine.execRmark f s
  | .deq f => Sys2Proof.Machine.execDeq f s
  | .enq f => Sys2Proof.Machine.execEnq f s
  | .ld f => Sys2Proof.Machine.execLd f s
  | .st f => Sys2Proof.Machine.execSt f s
  | .ldu f => Sys2Proof.Machine.execLdu f s
  | .stu f => Sys2Proof.Machine.execStu f s
  | .ldw f => Sys2Proof.Machine.execLdw f s
  | .stw f => Sys2Proof.Machine.execStw f s
  | .ldf f => Sys2Proof.Machine.execLdf f s
  | .ste f => Sys2Proof.Machine.execSte f s
  | .fefill f => Sys2Proof.Machine.execFefill f s
  | .feget f => Sys2Proof.Machine.execFeget f s
  | .setw f => Sys2Proof.Machine.execSetw f s
  | .fillw f => Sys2Proof.Machine.execFillw f s
  | .flushw f => Sys2Proof.Machine.execFlushw f s
  | .prefetch f => Sys2Proof.Machine.execPrefetch f s
  | .pub f => Sys2Proof.Machine.execPub f s
  | .snap f => Sys2Proof.Machine.execSnap f s
  | .phase f => Sys2Proof.Machine.execPhase f s
  | .fence f => Sys2Proof.Machine.execFence f s
  | .waitc f => Sys2Proof.Machine.execWaitc f s
  | .waitr f => Sys2Proof.Machine.execWaitr f s
  | .atom f => Sys2Proof.Machine.execAtom f s
  | .atomWindow f => Sys2Proof.Machine.execAtomWindow f s
  | .cas f => Sys2Proof.Machine.execCas f s
  | .casWindow f => Sys2Proof.Machine.execCasWindow f s
  | .red f => Sys2Proof.Machine.execRed f s
  | .redWindow f => Sys2Proof.Machine.execRedWindow f s
  | .atomf f => Sys2Proof.Machine.execAtomf f s
  | .atomfWindow f => Sys2Proof.Machine.execAtomfWindow f s
  | .redf f => Sys2Proof.Machine.execRedf f s
  | .redfWindow f => Sys2Proof.Machine.execRedfWindow f s
  | .atomw f => Sys2Proof.Machine.execAtomw f s
  | .barinit f => Sys2Proof.Machine.execBarinit f s
  | .bararr f => Sys2Proof.Machine.execBararr f s
  | .barwait f => Sys2Proof.Machine.execBarwait f s
  | .bartok f => Sys2Proof.Machine.execBartok f s
  | .qpush f => Sys2Proof.Machine.execQpush f s
  | .qpop f => Sys2Proof.Machine.execQpop f s
  | .qstat f => Sys2Proof.Machine.execQstat f s
  | .copy f => Sys2Proof.Machine.execCopy f s
  | .gcopy f => Sys2Proof.Machine.execGcopy f s
  | .tcfg f => Sys2Proof.Machine.execTcfg f s
  | .unf f => Sys2Proof.Machine.execUnf f s
  | .bload f => Sys2Proof.Machine.execBload f s
  | .xfetch f => Sys2Proof.Machine.execXfetch f s
  | .mma f => Sys2Proof.Machine.execMma f s
  | .accz f => Sys2Proof.Machine.execAccz f s
  | .accld f => Sys2Proof.Machine.execAccld f s
  | .accst f => Sys2Proof.Machine.execAccst f s
  | .drain f => Sys2Proof.Machine.execDrain f s
  | .chain f => Sys2Proof.Machine.execChain f s
  | .tsync f => Sys2Proof.Machine.execTsync f s
  | .tsig f => Sys2Proof.Machine.execTsig f s
  | .ecnt f => Sys2Proof.Machine.execEcnt f s
  | .xstat f => Sys2Proof.Machine.execXstat f s
  | .coll f => Sys2Proof.Machine.execColl f s
  | .cview f => Sys2Proof.Machine.execCview f s
  | .cpolicy f => Sys2Proof.Machine.execCpolicy f s
  | .cack f => Sys2Proof.Machine.execCack f s
  | .cjoin f => Sys2Proof.Machine.execCjoin f s
  | .gsig f => Sys2Proof.Machine.execGsig f s
  | .gwait f => Sys2Proof.Machine.execGwait f s
  | .gtry f => Sys2Proof.Machine.execGtry f s
  | .gxch f => Sys2Proof.Machine.execGxch f s
  | .gstat f => Sys2Proof.Machine.execGstat f s
  | .sysrd f => Sys2Proof.Machine.execSysrd f s
  | .syswr f => Sys2Proof.Machine.execSyswr f s
  | .clk f => Sys2Proof.Machine.execClk f s
  | .runk f => Sys2Proof.Machine.execRunk f s
  | .brk f => Sys2Proof.Machine.execBrk f s
  | .mark f => Sys2Proof.Machine.execMark f s
  | .sampctl f => Sys2Proof.Machine.execSampctl f s
  | .svc f => Sys2Proof.Machine.execSvc f s
  | .splitEntryReturn group frag => Sys2Proof.Machine.execSplitEntryReturn group frag s
  | .mergePatienceExpiry group frag => Sys2Proof.Machine.execMergePatienceExpiry group frag s
  | .loadComplete group op => Sys2Proof.Machine.execLoadComplete group op s
  | .roundClose part => Sys2Proof.Machine.execRoundClose part s
  | .versionRetire part line round => Sys2Proof.Machine.execVersionRetire part line round s
  | .windowWriteback block window line => Sys2Proof.Machine.execWindowWriteback block window line s
  | .jobPerform job => Sys2Proof.Machine.execJobPerform job s
  | .jobComplete job => Sys2Proof.Machine.execJobComplete job s
  | .tileInstructionComplete set => Sys2Proof.Machine.execTileInstructionComplete set s
  | .xfetchDeadline job => Sys2Proof.Machine.execXfetchDeadline job s
  | .xfetchPrimaryLanded job => Sys2Proof.Machine.execXfetchPrimaryLanded job s
  | .launchPacket part queue host => Sys2Proof.Machine.execLaunchPacket part queue host s
  | .copyPacket part queue => Sys2Proof.Machine.execCopyPacket part queue s
  | .workItemPacket part queue => Sys2Proof.Machine.execWorkItemPacket part queue s
  | .launchComplete launch => Sys2Proof.Machine.execLaunchComplete launch s
  | .blockAdmission part => Sys2Proof.Machine.execBlockAdmission part s
  | .blockRestart block => Sys2Proof.Machine.execBlockRestart block s
  | .preemption block trigger => Sys2Proof.Machine.execPreemption block trigger s
  | .preemptTimeout block => Sys2Proof.Machine.execPreemptTimeout block s
  | .resume block => Sys2Proof.Machine.execResume block s
  | .resident part seq => Sys2Proof.Machine.execResident part seq s
  | .declined part seq => Sys2Proof.Machine.execDeclined part seq s
  | .groupWatchdogFiring group => Sys2Proof.Machine.execGroupWatchdogFiring group s
  | .stall part => Sys2Proof.Machine.execStall part s
  | .partitionResume part => Sys2Proof.Machine.execPartitionResume part s
  | .hostPreempt block => Sys2Proof.Machine.execHostPreempt block s
  | .allowancePeriod part => Sys2Proof.Machine.execAllowancePeriod part s
  | .allowanceExhausted part vdev => Sys2Proof.Machine.execAllowanceExhausted part vdev s
  | .lend part cluster => Sys2Proof.Machine.execLend part cluster s
  | .reclaim part cluster => Sys2Proof.Machine.execReclaim part cluster s
  | .autoReclaim part => Sys2Proof.Machine.execAutoReclaim part s
  | .partitionConfigWrite part conf => Sys2Proof.Machine.execPartitionConfigWrite part conf s
  | .rangeTableWrite part index entry => Sys2Proof.Machine.execRangeTableWrite part index entry s
  | .regionAttributeWrite part vdev index entry => Sys2Proof.Machine.execRegionAttributeWrite part vdev index entry s
  | .tlbInvalidation part vdev range => Sys2Proof.Machine.execTlbInvalidation part vdev range s
  | .pageRequestRingRegister part base entries => Sys2Proof.Machine.execPageRequestRingRegister part base entries s
  | .packetQueueRegister part queue address => Sys2Proof.Machine.execPacketQueueRegister part queue address s
  | .workQueueCapacity part queue items => Sys2Proof.Machine.execWorkQueueCapacity part queue items s
  | .expertTableWrite part index entry => Sys2Proof.Machine.execExpertTableWrite part index entry s
  | .checkAreaRegister part base bytes => Sys2Proof.Machine.execCheckAreaRegister part base bytes s
  | .serviceRingRegister part address => Sys2Proof.Machine.execServiceRingRegister part address s
  | .adminQueueRegister address => Sys2Proof.Machine.execAdminQueueRegister address s
  | .reply part seq value => Sys2Proof.Machine.execReply part seq value s
  | .counterWrite part register index value => Sys2Proof.Machine.execCounterWrite part register index value s
  | .hostMemWrite address data => Sys2Proof.Machine.execHostMemWrite address data s
  | .hostMemRead address bytes => Sys2Proof.Machine.execHostMemRead address bytes s
  | .hostLineSnoop address data => Sys2Proof.Machine.execHostLineSnoop address data s
  | .peerWrite address data => Sys2Proof.Machine.execPeerWrite address data s
  | .gateCreate gate image => Sys2Proof.Machine.execGateCreate gate image s
  | .gateSetAcl gate list => Sys2Proof.Machine.execGateSetAcl gate list s
  | .gateSetRate gate rate depth => Sys2Proof.Machine.execGateSetRate gate rate depth s
  | .gateDestroy gate => Sys2Proof.Machine.execGateDestroy gate s
  | .gateFreeze gate => Sys2Proof.Machine.execGateFreeze gate s
  | .gateExport gate => Sys2Proof.Machine.execGateExport gate s
  | .gateImport gate image queued => Sys2Proof.Machine.execGateImport gate image queued s
  | .gateThaw gate => Sys2Proof.Machine.execGateThaw gate s
  | .deferredCountClear gate => Sys2Proof.Machine.execDeferredCountClear gate s
  | .gateServerPerform op => Sys2Proof.Machine.execGateServerPerform op s
  | .bucketTick => Sys2Proof.Machine.execBucketTick s
  | .shadowRunStart check => Sys2Proof.Machine.execShadowRunStart check s
  | .keepingRunStart check => Sys2Proof.Machine.execKeepingRunStart check s
  | .kilnDecision check => Sys2Proof.Machine.execKilnDecision check s
  | .coneTest die => Sys2Proof.Machine.execConeTest die s
  | .coneTestComplete core pass => Sys2Proof.Machine.execConeTestComplete core pass s
  | .coneTestAbort core => Sys2Proof.Machine.execConeTestAbort core s
  | .correctedError dram core unit line => Sys2Proof.Machine.execCorrectedError dram core unit line s
  | .bankSelfTest core slice pass => Sys2Proof.Machine.execBankSelfTest core slice pass s
  | .uncorrectableError site => Sys2Proof.Machine.execUncorrectableError site s
  | .patrolScrub line corrected => Sys2Proof.Machine.execPatrolScrub line corrected s
  | .linkRetrain link lanes => Sys2Proof.Machine.execLinkRetrain link lanes s
  | .peerRouteTimeout group op => Sys2Proof.Machine.execPeerRouteTimeout group op s
  | .thermalThrottle => Sys2Proof.Machine.execThermalThrottle s
  | .thermalShutdown => Sys2Proof.Machine.execThermalShutdown s
  | .readKilsy list => Sys2Proof.Machine.execReadKilsy list s
  | .readErrors log => Sys2Proof.Machine.execReadErrors log s
  | .startCold failing ok => Sys2Proof.Machine.execStartCold failing ok s
  | .startWarm ok => Sys2Proof.Machine.execStartWarm ok s
  | .setTolerance micros region => Sys2Proof.Machine.execSetTolerance micros region s
  | .deviceState => Sys2Proof.Machine.execDeviceState s
  | .wake => Sys2Proof.Machine.execWake s
  | .updateConfig block => Sys2Proof.Machine.execUpdateConfig block s
  | .idlePowerEntry => Sys2Proof.Machine.execIdlePowerEntry s
  | .wakeEvent cxlMem => Sys2Proof.Machine.execWakeEvent cxlMem s
  | .tenantKeyLoad part vdev key => Sys2Proof.Machine.execTenantKeyLoad part vdev key s
  | .tenantKeyClear part vdev => Sys2Proof.Machine.execTenantKeyClear part vdev s
  | .collGroupCreate id part slot view members fabric => Sys2Proof.Machine.execCollGroupCreate id part slot view members fabric s
  | .heartbeat id => Sys2Proof.Machine.execHeartbeat id s
  | .heartbeatTimeout id slot => Sys2Proof.Machine.execHeartbeatTimeout id slot s
  | .memberRemove id slot => Sys2Proof.Machine.execMemberRemove id slot s
  | .propose id slot view live => Sys2Proof.Machine.execPropose id slot view live s
  | .acknowledge id slot view => Sys2Proof.Machine.execAcknowledge id slot view s
  | .commit id view num live => Sys2Proof.Machine.execCommit id view num live s
  | .ackLapse id => Sys2Proof.Machine.execAckLapse id s
  | .collPacket id view op slot card data => Sys2Proof.Machine.execCollPacket id view op slot card data s
  | .policyChoice id op slot choice => Sys2Proof.Machine.execPolicyChoice id op slot choice s
  | .choiceTimeout id op => Sys2Proof.Machine.execChoiceTimeout id op s
  | .joinRequest id slot digest => Sys2Proof.Machine.execJoinRequest id slot digest s
  | .joinTimeout group frag => Sys2Proof.Machine.execJoinTimeout group frag s
  | .collComplete job => Sys2Proof.Machine.execCollComplete job s
  | .debugAttach part stops => Sys2Proof.Machine.execDebugAttach part stops s
  | .debugDetach part => Sys2Proof.Machine.execDebugDetach part s
  | .debugHold part launch block => Sys2Proof.Machine.execDebugHold part launch block s
  | .debugRelease part launch block => Sys2Proof.Machine.execDebugRelease part launch block s
  | .debugOne part launch block group => Sys2Proof.Machine.execDebugOne part launch block group s
  | .debugSetBp part n address launch => Sys2Proof.Machine.execDebugSetBp part n address launch s
  | .debugClrBp part n => Sys2Proof.Machine.execDebugClrBp part n s
  | .debugRead part launch block what => Sys2Proof.Machine.execDebugRead part launch block what s
  | .debugWrite part launch block what data => Sys2Proof.Machine.execDebugWrite part launch block what data s
  | .sampleTag core quarter group frag => Sys2Proof.Machine.execSampleTag core quarter group frag s
  | .traceEnable part vdev on channels kinds => Sys2Proof.Machine.execTraceEnable part vdev on channels kinds s
  | .ringRegister part ring base entries => Sys2Proof.Machine.execRingRegister part ring base entries s
  | .dump part vdev dest => Sys2Proof.Machine.execDump part vdev dest s
  | .wordNotAnInstruction w => Sys2Proof.Machine.execWordNotAnInstruction w s
  | .sleepCountRunsOut group frag => Sys2Proof.Machine.execSleepCountRunsOut group frag s
  | .inboundPeerAtomic address aop wide operand => Sys2Proof.Machine.execInboundPeerAtomic address aop wide operand s
  | .inboundPeerRead address bytes => Sys2Proof.Machine.execInboundPeerRead address bytes s
  | .suspectReport id slot => Sys2Proof.Machine.execSuspectReport id slot s
  | .heartbeatReceived id slot => Sys2Proof.Machine.execHeartbeatReceived id slot s
  | .expectedDigestSet id digest => Sys2Proof.Machine.execExpectedDigestSet id digest s
  | .dumpComplete part vdev => Sys2Proof.Machine.execDumpComplete part vdev s

end Sys2Proof.Machine
end

