-- ==== Sys2Proof/Machine/Schedule.lean ====
section
/-! DEFINITION. What a step does before the instruction itself: which move comes next (log 3), the boundary at which a fragment issues, arrival at a header (02 R30 to R35), and fetching (02 R31). -/

namespace Sys2Proof.Machine
open Sys2Proof

/-! ### What may issue -/

/-- The fragments that may issue now: of those that offer an instruction to a pipe the ones that R191 chooses, and all that offer none. -/
def State.issuers (s : State) : List Issuer :=
  let open_ := s.fragments.filterMap fun p => ((s.ctxOf p.group p.frag).filter fun c => c.issues s).map fun c => (p, s.offer c)
  let taken := s.chosen s.offers
  (open_.filter fun x => x.2.all taken.contains).map (·.1)

/-! ### Fetch and decode -/

/-- What stands before the instruction: an outcome that ends the step, or the instruction to run. -/
inductive Prep where
  | done (s : State)
  | run (i : Instr) (s : State)

/-- The instruction of a fetched word: decoded, or the fate of a word that is none (02 R54, R56). -/
def Ctx.decode (c : Ctx) (w : BitVec 64) : Instr :=
  match decodeWord c.g.seq c.f.atLast w with
  | .ok i => i
  | .error _ => .wordNotAnInstruction w

/-- The state in which a fetched word executes: the issuer and the word stand in it, the fragment is the one last issued (07 R187) and loses its age, and the pointer of the pipe moves past its slot (07 R191). -/
def State.issued (s : State) (p : Issuer) (w : BitVec 64) : State :=
  let s1 := match s.groups.get p.group with
    | some g => if g.seq then s else s.passSlot p.group g [pipeOf w.toNat]
    | none => s
  { s1.updFrag p.group p.frag (fun f => { f with stamp := s.tick, ready := s.tick + 1 }) with cur := some p, word := w, tick := s.tick + 1 }

/-- Fetching for a fragment: a header where it arrives, a word inside its block (02 R30, R31). -/
def State.fetch (s : State) (p : Issuer) (c : Ctx) : Prep :=
  match s.peek c c.f.pc with
  | .word w =>
    let s1 := s.noteFetch c c.f.pc
    if c.f.phase = .arrive then .done (s1.enterHeader c w)
    else .run (c.decode w) (s1.issued p w)
  | x => .done ((x.bar c.f.pc c.f.pc).elim s (c.barred s))

/-! ### The boundary (10 R252, 19 R402, 16 R345, 21 R412) -/

/-- It is taken: a POISON names the reading instruction, a VIEW_CHANGE the word at the boundary, whose wait ends without effect. No instruction of the fragment has issued by it, so that what it issues first after a release still matches no breakpoint (21 R415). -/
def State.takeLate (s : State) (c : Ctx) (p : LatePoison) : State :=
  let g := { c.g with late := c.g.late.filter fun x => decide (x ≠ p) }
  let s1 := (if c.f.pend = .none then s else s.dropWaits [c.f.pend]).putGroup c.uid g
  let t := if p.code = .viewChange then s1.takeTrap { c with g := g } { kind := 2, code := p.code, pc := c.f.pc, info := p.info }
    else s1.takeTrap { c with g := g } { kind := 0, code := p.code, pc := p.pc, info := p.info, blk := some p.blk }
  t.updFrag c.uid c.fid fun f => { f with free := c.f.free }

/-- Whether a repeat run may still come to a logged trap by itself, through a fault delivered to it or one of its jobs. -/
def State.comesTo (s : State) (c : Ctx) (t : Trap) : Bool :=
  c.g.delivered.any (fun d => decide (d.code = t.code ∧ d.pc = t.pc))
    || s.jobs.rows.any fun r => decide (r.2.group = c.uid ∧ r.2.pc = t.pc ∧ r.2.life ≠ .done)

/-- Whether a trap of the primary's came of what a repeat run may not meet (17 R364, R383): a stop at a brk; POISON, which an error of the silicon brought; and a fault of translation, which the mapping or the route of that moment did (13 R307, 17 R373). -/
def Trap.foreign (t : Trap) : Bool := [Code.debugStop, .poison, .pageNotResident, .accessProtection, .atomicTypeAtTarget].contains t.code

/-- A repeat run takes the trap that the log has at this place, where no instruction of its own brings it (16 R345): a VIEW_CHANGE; a fault of completion, whether its own access has come to its completion or not; and what only its primary met. -/
def State.takeLogged (s : State) (c : Ctx) (t : Trap) : Option State :=
  let s1 := if c.f.pend = .none then s else s.dropWaits [c.f.pend]
  if t.kind = 2 then some (s1.takeTrap c t)
  else
    match c.g.late.find? fun p => decide (p.code = t.code ∧ p.pc = t.pc) with
    | some p => some (s.takeLate c p)
    | none =>
      let from_ := c.g.flights.find? fun x => !x.done && decide (x.pc = t.pc)
      if (from_.bind (·.bad)).isSome || (t.foreign && !s.comesTo c t) then some (s1.takeTrap c { t with blk := from_.map (·.blk) })
      else none

/-- What comes before the word: a trap of the log in a repeat run; else a trap from outside, once a wait that cannot end without effect is over; else a breakpoint, which in a block that is quiescing holds it at resume (21 R417). -/
def State.boundary (s : State) (c : Ctx) : Option State :=
  if c.repeats then c.loggedTrap.bind (s.takeLogged c)
  else
    match (if s.keepsWait c.f.pend then none else c.lateTrap) with
    | some p => some (s.takeLate c p)
    | none =>
      match s.breakAt c with
      | none => none
      | some n => if s.holdable c.b then some (s.holdBlock c.g.block 1 n 0 c.f.pc c.g.name) else none

/-- A breakpoint met in a pre-emption handler (21 R417). -/
def State.noteBreak (s : State) (c : Ctx) : State :=
  match s.breakAt c with
  | some n => if c.b.life = .quiesced then s.holdBlock c.g.block 1 n 0 c.f.pc c.g.name else s
  | none => s

/-- A fragment's move. -/
def State.prepare (s : State) (p : Issuer) : Prep :=
  match s.ctxOf p.group p.frag with
  | none => .done s
  | some c =>
    if !c.issues s then .done s
    else
      match s.boundary c with
      | some t => .done t
      | none => if c.f.phase = .reconv then .done s else (s.noteBreak c).fetch p c

/-- After a fragment's move: a block that makes a single step is held again once the instruction has retired (21 R415). -/
def State.settled (s : State) (p : Issuer) (t : State) : State :=
  match s.ctxOf p.group p.frag with
  | some c => t.afterStep c
  | none => t

/-- An outcome with its next state carried on. -/
def thenDo (h : State → State) : Out → Out
  | .next t => .next (h t)
  | .fault f => .fault f
  | .refused r => .refused r

/-! ### Moves -/

/-- Whether a row of the opcode table is a step of the machine and no word of an issue stream. -/
def isStep (i : Instr) : Bool :=
  (opFormat i).isNone && (match i with | .wordNotAnInstruction _ => false | _ => true)

/-- The machine's own steps that come of themselves, once they can (log 3). -/
def State.prompt (s : State) : List Instr :=
  (s.groups.rows.flatMap fun r =>
    (r.2.frags.rows.flatMap fun x =>
      (if x.2.onChip then [] else [Instr.splitEntryReturn r.1 x.1]) ++ (if r.2.toPart x.2 then [Instr.mergePatienceExpiry r.1 x.1] else []) ++ (if x.2.pend = .sleep then [Instr.sleepCountRunsOut r.1 x.1] else []))
    ++ ((r.2.flights.filter fun f => !f.done && (f.cls == 0 || f.cls == 4)).map fun f => Instr.loadComplete r.1 f.id))
  ++ (s.jobs.rows.flatMap fun r => match r.2.kind, r.2.life with
      | _, .done => []
      | .coll, .performed _ => [Instr.collComplete r.1]
      | _, .performed _ => [Instr.jobComplete r.1]
      | .xfetch, _ => [Instr.xfetchPrimaryLanded r.1, Instr.jobPerform r.1]
      | _, _ => [Instr.jobPerform r.1])
  ++ ((s.sets.filter fun _ t => !t.ended && !t.queue.isEmpty).keys.map Instr.tileInstructionComplete)
  ++ (s.gateOps.filter fun _ o => !o.seen).keys.map Instr.gateServerPerform
  ++ (let leaving := s.groups.rows.any fun r => decide (r.2.life = .leaving)
      s.parts.rows.flatMap fun r => (if r.2.roundOpen || leaving then [Instr.roundClose r.1] else [])
      ++ (if r.2.enable then [Instr.blockAdmission r.1] else [])
      ++ (match r.2.dumping with | some (v, _, _) => [Instr.dumpComplete r.1 v] | none => []))
  ++ (s.blocks.rows.flatMap fun r => match r.2.life with
      | .saved => [Instr.resume r.1]
      | .queued => [Instr.blockRestart r.1]
      | _ => [])
  ++ ((s.checks.filter fun _ c => !c.decided).keys.flatMap fun k =>
      [Instr.shadowRunStart k, Instr.keepingRunStart k, Instr.kilnDecision k])
  ++ (s.launches.filter fun _ l => !l.recorded).keys.map Instr.launchComplete
  ++ s.bankTests.map fun x =>
      Instr.bankSelfTest x.1 (x.2 == 2 || (x.2 == 3 && (Config.freeByte s.free 0).getLsbD 0)) ((Config.freeByte s.free 1).getLsbD 0)

/-- The accesses through a peer aperture that may find no route (17 R373). -/
def State.peerAccesses (s : State) : List Instr :=
  (s.groups.rows.flatMap fun r => (r.2.flights.filter fun f => !f.done && f.peer.isSome && f.bad.isNone).map fun f => Instr.peerRouteTimeout r.1 f.id)
  ++ (s.peerStores.map fun x => Instr.peerRouteTimeout x.1 x.2.2.id)
  ++ (s.blocks.rows.flatMap fun r => r.2.pending.filterMap fun w =>
      (s.groupCtx w.group).bind fun c => if s.peerLine c w then some (Instr.peerRouteTimeout w.group w.seq) else none)

/-- Those that a lapse of time brings (log 3, log 5). -/
def State.timed (s : State) : List Instr :=
  (s.groups.rows.flatMap fun r => r.2.frags.rows.flatMap fun x =>
    (if x.2.phase = .reconv then [Instr.mergePatienceExpiry r.1 x.1] else [])
      ++ (match x.2.pend with | .join _ _ => [Instr.joinTimeout r.1 x.1] | _ => []))
  ++ s.peerAccesses
  ++ ((s.jobs.filter fun _ j => decide (j.kind = .xfetch ∧ j.life = .queued)).keys.map Instr.xfetchDeadline)
  ++ ((List.range Config.dies).map Instr.coneTest)
  ++ (s.versions.filterMap fun v => v.part.map fun p => Instr.versionRetire p v.line v.round)

/-- The moves open when the agenda is empty (log 3): the machine's own steps and the issue of each fragment; what a lapse of time brings comes rarely. -/
def State.choices (s : State) : List Move :=
  s.prompt.map Move.event ++ (if s.turn % 2048 = 2047 then s.timed.map Move.event else []) ++ s.issuers.map Move.issue

/-- What stands before a move: the records of tagged instructions that have completed are written (21 R419), and joins whose operations in flight are over go on (19 R404). -/
def State.between (s : State) : State := s.closeSamples.collsReady

/-- The next move, with the state it leaves: the head of the agenda, else the machine's own choice in rotation (log 3). -/
def State.pick (s : State) : Option (Move × State) :=
  let t := s.between
  match t.agenda with
  | m :: rest => some (m, { t with agenda := rest, cur := none })
  | [] =>
    match t.choices[(t.turn + t.turn / 2048) % t.choices.length]? with
    | some m => some (m, { t with turn := t.turn + 1, cur := none })
    | none => none

end Sys2Proof.Machine
end

