-- ==== Sys2Proof/Machine/Step.lean ====
section
/-! DEFINITION. One step of the machine, and the state in which a given word is the next to be fetched. -/

namespace Sys2Proof.Machine
open Sys2Proof

/-- One step: the next move is a step of the hardware, the host or a peer, or one instruction of a fragment (log 3). With nothing to do the machine stays as it is. -/
def step (s : State) : Host.Outcome State Fault Refusal :=
  match s.pick with
  | none => .next s
  | some (.event i, s1) =>
    if isStep i then
      match s1.before i with
      | .ok t => exec i t
      | .error t => .next t
    else .next s1
  | some (.issue p, s1) =>
    match s1.prepare p with
    | .done t => .next (s1.settled p t)
    | .run i t => thenDo (s1.settled p) (exec i t)

/-- The state in which a word stands where the next step fetches (log 8). -/
def State.withFetchWord (s : State) (_nbits w : Nat) : State := s.loadWord w

end Sys2Proof.Machine
end

