-- ==== Sys2Proof/Safety.lean ====
section
/-! DEFINITION. What counts as a safe run, and the terms in which the claims say what an instruction does: when nothing stops it, what it writes, and what it leaves. -/

namespace Sys2Proof.Machine
open Sys2Proof

/-- A step that goes on: a next state, neither a fault nor a refusal. -/
def Goes (o : Out) : Prop := ∃ t, o = .next t

/-! ### When an instruction acts -/

/-- Nothing stops the issuing fragment's instruction before its own part: `c` is the context of the issuing fragment, every operand lies within its allocation and what follows the word may follow it (02 R30, R39, R54), some lane is active (02 R38), and no register it reads is poisoned (17 R369). `cross` says that sources are read in every lane of m0 (05 R102). -/
def Clear (s : State) (c : Ctx) (g : Guard) (dsts srcs : List (Nat × Opnd)) (cross : Bool) : Prop :=
  s.ctx = some c ∧ s.precheck c (dsts ++ srcs) = none ∧ c.eff g ≠ 0
    ∧ c.g.poisoned (if cross then c.f.mask else c.eff g) (usedRegs srcs) = none

/-- The same of an instruction that decides where control goes: its successor is examined only where it goes there (08 R206), and its sources are read only where some lane is active (01 R11). -/
def ClearJump (s : State) (c : Ctx) (g : Guard) (srcs : List (Nat × Opnd)) : Prop :=
  s.ctx = some c ∧ srcs.any c.beyond = false ∧ (c.eff g = 0 ∨ c.g.poisoned c.f.mask (usedRegs srcs) = none)

/-! ### What changes -/

/-- Of the whole machine, nothing but one group's record differs. -/
def OnlyGroup (s t : State) (uid : Nat) : Prop :=
  ({ t with groups := s.groups } : State) = s ∧ ∀ u, u ≠ uid → t.groups.get u = s.groups.get u

/-- A group's record but for its registers and its fragments. -/
def Group.frame (g : Group) : Group :=
  { g with vregs := Table.empty, sregs := Table.empty, masks := Table.empty, vpoison := Table.empty, spoison := [],
           frags := Table.empty }

/-- The group's registers as they were. -/
def SameRegs (g h : Group) : Prop :=
  h.vregs = g.vregs ∧ h.sregs = g.sregs ∧ h.masks = g.masks ∧ h.vpoison = g.vpoison ∧ h.spoison = g.spoison

/-- The group's fragments as they were, but for one. -/
def OneFrag (g h : Group) (fid : Nat) (f : Frag) : Prop :=
  ∀ k, h.frags.get k = if k = fid then some f else g.frags.get k

/-- The issuing fragment stands at `f`, and nothing else of the whole machine has changed. -/
def Moved (s t : State) (c : Ctx) (f : Frag) : Prop :=
  OnlyGroup s t c.uid ∧ ∃ h, t.groups.get c.uid = some h ∧ h.frame = c.g.frame ∧ SameRegs c.g h ∧ OneFrag c.g h c.fid f

/-- The lanes `m` of n vector registers from register i hold `val`, and every other register is as it was. -/
def WroteVec (g h : Group) (m : Mask) (n i : Nat) (val : Nat → Nat) : Prop :=
  (∀ r j, r < n → j < 128 → laneOf (h.vreg (i + r)) j =
    if m.getLsbD j then toWord (val j / 2 ^ (32 * r)) else laneOf (g.vreg (i + r)) j)
  ∧ (∀ k, k < i ∨ i + n ≤ k → h.vreg k = g.vreg k ∧ h.vpoison.get k = g.vpoison.get k)
  ∧ (∀ k, h.sreg k = g.sreg k) ∧ h.spoison = g.spoison ∧ h.masks = g.masks

/-- Every other group is as it was. -/
def OtherGroups (s t : State) (uid : Nat) : Prop := ∀ u, u ≠ uid → t.groups.get u = s.groups.get u

/-- Of the groups only the issuing one differs: its record is `h` but for its fragments, of which only the issuing one has changed, to `f`. -/
def GroupNow (s t : State) (c : Ctx) (h : Group) (f : Frag) : Prop :=
  OtherGroups s t c.uid ∧ ∃ g, t.groups.get c.uid = some g ∧ ({ g with frags := h.frags } : Group) = h ∧ OneFrag c.g g c.fid f

/-- Of the blocks only one differs: it is `b` now. -/
def OneBlock (s t : State) (bid : Nat) (b : Block) : Prop :=
  t.blocks.get bid = some b ∧ ∀ k, k ≠ bid → t.blocks.get k = s.blocks.get k

/-- A tile instruction stands last in its set's queue with what it captured at issue, and flies in the class tile; the set is otherwise `h`, and nothing else of the machine has changed (06 R169). -/
def QueuedTile (s t : State) (c : Ctx) (i : Nat) (ts h : TileSet) (k : TileCmd) : Prop :=
  ({ t with groups := s.groups, sets := s.sets, uid := s.uid } : State) = s
  ∧ GroupNow s t c (c.g.raise { Flight.plain s.uid 3 c.f.pc 0 with blk := c.f.blk }) c.f.next
  ∧ (∀ j, j ≠ i → t.sets.get j = s.sets.get j)
  ∧ t.sets.get i = some { h with queue := ts.queue ++ [{ k with pairing := ts.pairing, ord := ts.drains, pc := c.f.pc, flight := s.uid }] }

/-- Memory after atomics of a class on accesses in order, each on what the one before left (09 R236, 10 R261). -/
def atomChain (cls aop size : Nat) (arg : Nat → Nat) (m : Memory) (as : List LaneAcc) : Memory :=
  as.foldl (fun m a => Memory.writeN m a.pa (toBytes size (atomNew cls aop size (fromBytes (Memory.readN m a.pa size)) (arg a.lane)))) m

/-- A block's store after atomics of a class on window words in order (10 R261). -/
def storeChain (cls aop size : Nat) (arg : Nat → Nat) (off : Nat) (b : Block) (ls : List (Nat × Nat)) : Block :=
  ls.foldl (fun b l => b.writeBytes false (off + l.2) (toBytes size (atomNew cls aop size (fromBytes (b.bytes (off + l.2) size)) (arg l.1)))) b

/-- n scalar registers from register i hold a value, unpoisoned, and every other register is as it was. -/
def WroteSca (g h : Group) (n i : Nat) (val : Nat) : Prop :=
  (∀ r, r < n → h.sreg (i + r) = toWord (val / 2 ^ (32 * r)) ∧ i + r ∉ h.spoison)
  ∧ (∀ k, k < i ∨ i + n ≤ k → h.sreg k = g.sreg k ∧ (k ∈ h.spoison ↔ k ∈ g.spoison))
  ∧ (∀ k, h.vreg k = g.vreg k) ∧ h.vpoison = g.vpoison ∧ h.masks = g.masks

/-- An n-register result stands in a destination operand: in the lanes `m` of a vector register, or once in a scalar register, which takes lane 0's (02 R38); nothing else of the registers has changed. -/
def WroteReg (g h : Group) (m : Mask) (n : Nat) (d : Opnd) (val : Nat → Nat) : Prop :=
  match d with
  | .v i => WroteVec g h m n i.toNat val
  | .k i => WroteSca g h n i.toNat (val 0)

/-- The instruction's whole effect is a register result: it is written, the fragment goes on past its word from `f`, and nothing else of the machine has changed. -/
def WroteFrom (s t : State) (c : Ctx) (f : Frag) (m : Mask) (n : Nat) (d : Opnd) (val : Nat → Nat) : Prop :=
  OnlyGroup s t c.uid ∧ ∃ h, t.groups.get c.uid = some h ∧ h.frame = c.g.frame ∧ OneFrag c.g h c.fid f.next ∧ WroteReg c.g h m n d val

/-- The same, where the fragment's own record changes only by going on. -/
def Wrote (s t : State) (c : Ctx) (m : Mask) (n : Nat) (d : Opnd) (val : Nat → Nat) : Prop := WroteFrom s t c c.f m n d val

/-- The instruction's whole effect is on mask registers: where `bits k` is given, register k holds it in the lanes `m`; every other mask bit and everything else is as it was (05 R115, R139). -/
def WroteMasks (s t : State) (c : Ctx) (m : Mask) (bits : Nat → Option (Nat → Bool)) : Prop :=
  OnlyGroup s t c.uid ∧ ∃ h, t.groups.get c.uid = some h ∧ h.frame = c.g.frame ∧ OneFrag c.g h c.fid c.f.next
    ∧ h.vregs = c.g.vregs ∧ h.sregs = c.g.sregs ∧ h.vpoison = c.g.vpoison ∧ h.spoison = c.g.spoison
    ∧ ∀ k a j, k ≠ 0 → j < 128 → (h.mreg a k).getLsbD j =
        match bits k with
        | some b => if m.getLsbD j then b j else (c.g.mreg a k).getLsbD j
        | none => (c.g.mreg a k).getLsbD j

/-! ### Shapes of claims -/

/-- An instruction on registers completes wherever nothing stops it, and its whole effect is the given result. -/
def Computes (i : Instr) (g : Guard) (dsts srcs : List (Nat × Opnd)) (cross : Bool) (n : Nat) (d : Opnd) (val : Ctx → Nat → Nat) : Prop :=
  ∀ s c, Clear s c g dsts srcs cross → ∃ t, exec i s = .next t ∧ Wrote s t c (c.eff g) n d (val c)

/-- An instruction on mask registers completes wherever nothing stops it, and its whole effect is the given result. -/
def Compares (i : Instr) (g : Guard) (srcs : List (Nat × Opnd)) (bits : Ctx → Nat → Option (Nat → Bool)) : Prop :=
  ∀ s c, Clear s c g [] srcs false → ∃ t, exec i s = .next t ∧ WroteMasks s t c (c.eff g) (bits c)

/-- The two bits a comparison gives to the registers of its pair (05 R115). -/
def pairBits (d : Nat) (lt eq : Nat → Bool) (k : Nat) : Option (Nat → Bool) :=
  if k = d then some lt else if k = d + 1 then some eq else none

/-- A format A instruction of two sources: the result is a function of the elements of each lane. -/
def ComputesA2 (i : FormA → Instr) (nd na nb : FormA → Nat) (op : FormA → Nat → Nat → Nat) : Prop :=
  ∀ f, Computes (i f) f.g [(nd f, f.dst)] [(na f, f.a), (nb f, f.b)] false (nd f) f.dst fun c j => op f (c.g.srcA f (na f) j) (c.g.srcB f (nb f) j)

/-- A format A instruction of one source. -/
def ComputesA1 (i : FormA → Instr) (nd na : FormA → Nat) (op : FormA → Nat → Nat) : Prop :=
  ∀ f, Computes (i f) f.g [(nd f, f.dst)] [(na f, f.a)] false (nd f) f.dst fun c j => op f (c.g.srcA f (na f) j)

/-- A format B instruction of three sources. -/
def ComputesB3 (i : FormB → Instr) (nd na nb nc : Nat) (op : FormB → Nat → Nat → Nat → Nat) : Prop :=
  ∀ f, Computes (i f) f.g [(nd, f.dst)] [(na, f.a), (nb, f.b), (nc, f.c)] false nd f.dst fun c j => op f (c.g.wide na f.a j) (c.g.wide nb f.b j) (c.g.wide nc f.c j)

/-- A format C instruction of one source and the immediate. -/
def ComputesC1 (i : FormC → Instr) (op : FormC → Nat → Nat) : Prop :=
  ∀ f, Computes (i f) f.g [(1, f.dst)] [(1, f.a)] false 1 f.dst fun c j => op f (c.g.lane f.a j)

end Sys2Proof.Machine
end

