-- ==== Sys2Proof/Certificates/Slice0/Obligations.lean ====
section
/-! DEFINITION. The statements for the provers. Each says which rule of the manual it states, or which part of the model it rests on. -/

open Sys2Proof Sys2Proof.Machine

/-! ## Instructions on registers (chapter 5) -/

/-- 05 R110: add, sub, neg, abs, min and max write the exact result under R105, addc the carry out and subb the borrow; each completes wherever nothing stops it, changes its destination alone, and goes on to the next word. 05 R111 and R116: products, their high and whole halves, sums of products, and the four-byte dot product and sum of absolute differences. -/
def Obligations.IntegerArithmeticComplete : Prop :=
  (let n := fun (f : FormA) => tyRegs f.ty
  ComputesA2 .add n n n (fun f => intElems f.ty f.sat fun a b => a + b)
  ∧ ComputesA2 .sub n n n (fun f => intElems f.ty f.sat fun a b => a - b)
  ∧ ComputesA2 .addc n n n (fun f a b => (a + b) / 2 ^ (32 * tyRegs f.ty))
  ∧ ComputesA2 .subb n n n (fun _ a b => if a < b then 1 else 0)
  ∧ ComputesA1 .neg n n (fun f a => intElems f.ty f.sat (fun x _ => -x) a 0)
  ∧ ComputesA1 .abs n n (fun f a => intElems f.ty f.sat (fun x _ => (x.natAbs : Int)) a 0)
  ∧ ComputesA2 .min n n n (fun f => intElems f.ty false fun a b => min a b)
  ∧ ComputesA2 .max n n n (fun f => intElems f.ty false fun a b => max a b)
  ∧ ComputesC1 .addImm (fun f a => intElems (funcTy f.func) (funcSat f.func) (fun x y => x + y) a (immWord f))
  ∧ ComputesC1 .subImm (fun f a => intElems (funcTy f.func) (funcSat f.func) (fun x y => x - y) a (immWord f))
  ∧ ComputesC1 .minImm (fun f a => intElems (funcTy f.func) false (fun x y => min x y) a (immWord f))
  ∧ ComputesC1 .maxImm (fun f a => intElems (funcTy f.func) false (fun x y => max x y) a (immWord f)))
  ∧ (let n := fun (f : FormA) => tyRegs f.ty
  let sg := fun (f : FormA) => (intTy f.ty).2
  ComputesA2 .mul n n n (fun f => intElems f.ty f.sat fun a b => a * b)
  ∧ ComputesC1 .mulImm (fun f a => intElems (funcTy f.func) (funcSat f.func) (fun x y => x * y) a (immWord f))
  ∧ ComputesA2 .mulh (fun _ => 1) (fun _ => 1) (fun _ => 1) (fun f a b => wrap 64 (intVal 32 (sg f) a * intVal 32 (sg f) b) / 2 ^ 32)
  ∧ ComputesA2 .mulw (fun _ => 2) (fun _ => 1) (fun _ => 1) (fun f a b => wrap 64 (intVal 32 (sg f) a * intVal 32 (sg f) b))
  ∧ ComputesB3 .mad 1 1 1 1 (fun f a b c => intCode 32 (!f.func.getLsbD 0) (funcSat f.func)
      (intVal 32 (!f.func.getLsbD 0) a * intVal 32 (!f.func.getLsbD 0) b + intVal 32 (!f.func.getLsbD 0) c))
  ∧ ComputesB3 .madw 2 1 1 2 (fun f a b c =>
      wrap 64 (intVal 32 (!f.func.getLsbD 0) a * intVal 32 (!f.func.getLsbD 0) b + intVal 64 (!f.func.getLsbD 0) c))
  ∧ ComputesB3 .dot4 1 1 1 1 (fun f a b c => let k := f.func.toNat % 4
      intCode 32 (k != 1) (f.func.getLsbD 2) (intVal 32 (k != 1) c +
        ((List.range 4).map fun i => intVal 8 (k != 1) (a / 2 ^ (8 * i)) * intVal 8 (k == 0) (b / 2 ^ (8 * i))).sum))
  ∧ ComputesB3 .sad 1 1 1 1 (fun f a b c => intCode 32 false (f.func.getLsbD 0)
      ((c : Int) + ((List.range 4).map fun i => ((intVal 8 false (a / 2 ^ (8 * i)) - intVal 8 false (b / 2 ^ (8 * i))).natAbs : Int)).sum)))

/-- 05 R105 at the widths of one element a register or a pair: an integer operation writes its exact result modulo 2^w, or, saturated, the nearest value of the type; and on four 8-bit elements, unsigned or signed, each byte is computed by itself. -/
def Obligations.IntegerElementRule : Prop :=
  (∀ (sat : Bool) (op : Int → Int → Int) (x y : Nat), x < 2 ^ 32 → y < 2 ^ 32 →
    intElems .n32 false op x y = wrap 32 (op x y) ∧ intElems .s32 false op x y = wrap 32 (op (signed 32 x) (signed 32 y))
    ∧ intElems .n32 true op x y = (max 0 (min (op x y) (2 ^ 32 - 1))).toNat
    ∧ intElems .s32 true op x y = wrap 32 (max (-(2 ^ 31)) (min (op (signed 32 x) (signed 32 y)) (2 ^ 31 - 1)))
    ∧ ∀ i, i < 4 →
      (intElems .n8x4 sat op x y / 2 ^ (8 * i) % 256 =
        (if sat then (max 0 (min (op (x / 2 ^ (8 * i) % 256 : Nat) (y / 2 ^ (8 * i) % 256 : Nat)) 255)).toNat
         else wrap 8 (op (x / 2 ^ (8 * i) % 256 : Nat) (y / 2 ^ (8 * i) % 256 : Nat))))
      ∧ intElems .s8x4 sat op x y / 2 ^ (8 * i) % 256 =
          (let z := op (signed 8 (x / 2 ^ (8 * i) % 256)) (signed 8 (y / 2 ^ (8 * i) % 256))
           wrap 8 (if sat then max (-128) (min z 127) else z)))
  ∧ ∀ (op : Int → Int → Int) (x y : Nat), x < 2 ^ 64 → y < 2 ^ 64 →
    intElems .n64 false op x y = wrap 64 (op x y) ∧ intElems .s64 false op x y = wrap 64 (op (signed 64 x) (signed 64 y))
    ∧ intElems .n64 true op x y = (max 0 (min (op x y) (2 ^ 64 - 1))).toNat
    ∧ intElems .s64 true op x y = wrap 64 (max (-(2 ^ 63)) (min (op (signed 64 x) (signed 64 y)) (2 ^ 63 - 1)))

/-- 05 R112: div writes the quotient rounded toward zero and rem what is left, with the three edge cases of the table; neither faults. -/
def Obligations.DivisionComplete : Prop :=
  let n := fun (f : FormA) => tyRegs f.ty
  ComputesA2 .div n n n (fun f => divCode (intTy f.ty).1 (intTy f.ty).2 f.sat)
  ∧ ComputesA2 .rem n n n (fun f => remCode (intTy f.ty).1 (intTy f.ty).2)
  ∧ ComputesC1 .divImm (fun f a => divCode 32 (!f.func.getLsbD 0) (funcSat f.func) a (immWord f))
  ∧ ComputesC1 .remImm (fun f a => remCode 32 (!f.func.getLsbD 0) a (immWord f))
  ∧ ∀ w a b, (w = 32 ∨ w = 64) → a < 2 ^ w → b < 2 ^ w →
    (∀ sat, divCode w false sat a b = if b = 0 then 2 ^ w - 1 else a / b)
    ∧ remCode w false a b = (if b = 0 then a else a % b)
    ∧ (∀ sat, divCode w true sat a b =
        if b = 0 then (if signed w a < 0 then 2 ^ (w - 1) else 2 ^ (w - 1) - 1)
        else if a = 2 ^ (w - 1) ∧ b = 2 ^ w - 1 then (if sat then 2 ^ (w - 1) - 1 else 2 ^ (w - 1))
        else wrap w ((signed w a).tdiv (signed w b)))
    ∧ remCode w true a b = if b = 0 then a else wrap w ((signed w a).tmod (signed w b))

/-- 05 R113: the bitwise operations, and shifts and rotations with counts of the width and beyond. 05 R114: leading zeros, ones, reversal, and the fields that bfx takes out and bfi puts in. -/
def Obligations.BitOperationsComplete : Prop :=
  (let n := fun (f : FormA) => tyRegs f.ty
  let one := fun (_ : FormA) => 1
  ComputesA2 .and n n n (fun _ a b => a &&& b) ∧ ComputesA2 .or n n n (fun _ a b => a ||| b)
  ∧ ComputesA2 .xor n n n (fun _ a b => a ^^^ b) ∧ ComputesA1 .not n n (fun f a => 2 ^ (32 * tyRegs f.ty) - 1 - a)
  ∧ ComputesA2 .andn n n n (fun f a b => a &&& (2 ^ (32 * tyRegs f.ty) - 1 - b))
  ∧ ComputesA2 .shl n n one (fun f => shlCode (32 * tyRegs f.ty)) ∧ ComputesA2 .shr n n one (fun f => shrCode (32 * tyRegs f.ty))
  ∧ ComputesA2 .sra n n one (fun f => sraCode (32 * tyRegs f.ty)) ∧ ComputesA2 .rotl n n one (fun f => rotlN (32 * tyRegs f.ty))
  ∧ ComputesA2 .rotr n n one (fun f => rotrCode (32 * tyRegs f.ty))
  ∧ ComputesC1 .andImm (fun f a => a &&& immWord f) ∧ ComputesC1 .orImm (fun f a => a ||| immWord f)
  ∧ ComputesC1 .xorImm (fun f a => a ^^^ immWord f) ∧ ComputesC1 .shlImm (fun f a => shlCode 32 a f.imm.toNat)
  ∧ ComputesC1 .shrImm (fun f a => shrCode 32 a f.imm.toNat) ∧ ComputesC1 .sraImm (fun f a => sraCode 32 a f.imm.toNat)
  ∧ ComputesC1 .rotlImm (fun f a => rotlN 32 a f.imm.toNat) ∧ ComputesC1 .rotrImm (fun f a => rotrCode 32 a f.imm.toNat)
  ∧ ∀ w a c, (w = 32 ∨ w = 64) → a < 2 ^ w →
    shlCode w a c = (if w ≤ c then 0 else a * 2 ^ c % 2 ^ w) ∧ shrCode w a c = (if w ≤ c then 0 else a / 2 ^ c)
    ∧ (∀ i, i < w → (sraCode w a c).testBit i = a.testBit (min (i + c) (w - 1)))
    ∧ (∀ i, i < w → (rotlN w a c).testBit ((i + c) % w) = a.testBit i)
    ∧ (∀ i, i < w → (rotrCode w a c).testBit i = a.testBit ((i + c) % w)))
  ∧ (let n := fun (f : FormA) => tyRegs f.ty
  ComputesA1 .clz n n (fun f => clzCode (32 * tyRegs f.ty)) ∧ ComputesA1 .popc n n (fun f => countOnes (32 * tyRegs f.ty))
  ∧ ComputesA1 .brev n n (fun f => reverseBits (32 * tyRegs f.ty))
  ∧ ComputesB3 .bfx 1 1 1 1 (fun f a b c => bfxCode (!f.func.getLsbD 0) a b c)
  ∧ ComputesC1 .bfxImm (fun f a => bfxCode (!f.func.getLsbD 0) a (f.imm.toNat % 256) (f.imm.toNat / 256 % 256))
  ∧ ComputesB3 .bfi 1 1 1 1 (fun _ a b c => bfiCode a b (c % 256) (c / 256 % 256))
  ∧ (∀ f, Computes (.bfiImm f) f.g [(1, f.dst)] [(1, f.a), (1, f.dst)] false 1 f.dst fun c j =>
      bfiCode (c.g.lane f.dst j) (c.g.lane f.a j) (f.imm.toNat % 256) (f.imm.toNat / 256 % 256))
  ∧ (∀ w a, (w = 32 ∨ w = 64) → a < 2 ^ w → clzCode w a = (if a = 0 then w else w - 1 - Nat.log2 a)
      ∧ ∀ i, i < w → (reverseBits w a).testBit i = a.testBit (w - 1 - i))
  ∧ (∀ a start width i, a < 2 ^ 32 → i < 32 → (bfxCode false a start width).testBit i =
      (decide (i < min width 32) && a.testBit (min start 32 + i)))
  ∧ (∀ base ins start width i, base < 2 ^ 32 → ins < 2 ^ 32 → i < 32 → (bfiCode base ins start width).testBit i =
      if start ≤ i ∧ i < start + width then ins.testBit (i - start) else base.testBit i))

/-- 05 R115 and R124: sel takes a where its mask bit is set and b where it is clear; cmp and fcmp write the pair of relations in the effective lanes and leave every other mask bit. -/
def Obligations.SelectAndCompareComplete : Prop :=
  (∀ f, Computes (.sel f) f.g [(1, f.dst)] [(1, f.a), (1, f.b)] false 1 f.dst fun c j =>
      if (c.g.mreg c.f.mask (opndIdx f.c)).getLsbD j then c.g.lane f.a j else c.g.lane f.b j)
  ∧ (∀ f, Compares (.cmp f) f.g [(tyRegs f.ty, f.a), (tyRegs f.ty, f.b)] fun c =>
      let a := fun j => intVal (intTy f.ty).1 (intTy f.ty).2 (c.g.srcA f (tyRegs f.ty) j)
      let b := fun j => intVal (intTy f.ty).1 (intTy f.ty).2 (c.g.srcB f (tyRegs f.ty) j)
      pairBits (opndIdx f.dst) (fun j => decide (a j < b j))
        fun j => c.g.srcA f (tyRegs f.ty) j % 2 ^ (intTy f.ty).1 == c.g.srcB f (tyRegs f.ty) j % 2 ^ (intTy f.ty).1)
  ∧ (∀ f, Compares (.cmpImm f) f.g [(1, f.a)] fun c =>
      let sg := !f.func.getLsbD 0
      pairBits (opndIdx f.dst) (fun j => decide (intVal 32 sg (c.g.lane f.a j) < intVal 32 sg (immWord f)))
        fun j => c.g.lane f.a j % 2 ^ 32 == immWord f % 2 ^ 32)
  ∧ (∀ f, Compares (.fcmp f) f.g [(1, f.a), (1, f.b)] fun c =>
      pairBits (opndIdx f.dst) (fun j => floatLess (fmtOf f.ty) (c.g.srcA f 1 j) (c.g.srcB f 1 j))
        fun j => floatSame (fmtOf f.ty) (c.g.srcA f 1 j) (c.g.srcB f 1 j))

/-- 05 R117 to R119: moves, the special registers of 07 R196, registers named at run time, addresses, wide pointers and iota. A checked block logs its reads of `$core` and `$cluster`, and a run that has their values in its log takes them from there. That a read of `$core` or `$cluster` in a checked block is logged is the model's reading of two rules that differ (log 70), and that an address, addw, addwImm and a quad special read write zero to the fourth register its reading of a quad (log 61). -/
def Obligations.MovesComplete : Prop :=
  let n := fun (f : FormA) => tyRegs f.ty
  ComputesA1 .mov n n (fun _ a => a)
  ∧ (∀ f, Computes (.movi f) f.g [(1, f.dst)] [] false 1 f.dst fun _ _ => f.imm.toNat)
  ∧ (∀ f, f.func = 0 → Computes (.movImm f) f.g [(1, f.dst)] [] false 1 f.dst fun _ _ => immWord f)
  ∧ (∀ f s c, f.func ≠ 0 → f.imm.toNat ≠ 0x00A → f.imm.toNat ≠ 0x00B →
      let k := match f.func.toNat with | 1 => 1 | 2 => 2 | _ => 4
      let bits := match f.func.toNat with | 1 => 32 | 2 => 64 | _ => 80
      Clear s c f.g [(k, f.dst)] [] false →
      ∃ t, exec (.movImm f) s = .next t ∧ Wrote s t c (c.eff f.g) k f.dst fun j => s.special c f.imm.toNat (!opndScalar f.dst) j % 2 ^ bits)
  ∧ (∀ f s c, f.func ≠ 0 → f.imm.toNat = 0x00A ∨ f.imm.toNat = 0x00B →
      let k := match f.func.toNat with | 1 => 1 | 2 => 2 | _ => 4
      let bits := match f.func.toNat with | 1 => 32 | 2 => 64 | _ => 80
      let v := s.special c f.imm.toNat false 0
      Clear s c f.g [(k, f.dst)] [] false →
      (c.b.check = none → ∃ t, exec (.movImm f) s = .next t ∧ Wrote s t c (c.eff f.g) k f.dst fun _ => v % 2 ^ bits)
      ∧ (c.b.check ≠ none → c.repeats = false → c.g.replay = [] → s.areaFull c.l.part = false →
        ∃ t h, exec (.movImm f) s = .next t ∧ OnlyGroup s t c.uid ∧ t.groups.get c.uid = some h ∧ OneFrag c.g h c.fid c.f.next
          ∧ WroteReg c.g h (c.eff f.g) k f.dst (fun _ => v % 2 ^ bits)
          ∧ h.log = c.g.log ++ [{ kind := .coreRead, op := f.imm.toNat, data := [v], digest := 0 }])
      ∧ (∀ e rest, c.b.check ≠ none → c.holdsUp s = false → c.g.replay = e :: rest → e.kind = .coreRead → e.op = f.imm.toNat →
        (e.digest = 0 ∨ (c.repeats = false ∧ c.b.lost = false)) →
        ∃ t h, exec (.movImm f) s = .next t ∧ OnlyGroup s t c.uid ∧ t.groups.get c.uid = some h ∧ OneFrag c.g h c.fid c.f.next
          ∧ WroteReg c.g h (c.eff f.g) k f.dst (fun _ => e.data.getD 0 0 % 2 ^ bits)
          ∧ h.log = c.g.log ++ [e] ∧ h.replay = rest))
  ∧ (∀ f s c, Clear s c f.g [(1, f.dst)] [(1, f.a)] false → (c.indirect f).1 < (c.indirect f).2 →
      c.g.poisoned (c.eff f.g) [(f.func.getLsbD 0, (c.indirect f).1)] = none →
      ∃ t, exec (.movx f) s = .next t ∧ Wrote s t c (c.eff f.g) 1 f.dst fun j => c.g.lane (indirectOpnd f (c.indirect f).1) j)
  ∧ (∀ f s c, Clear s c f.g [] [(1, f.dst), (1, f.a)] false → (c.indirect f).1 < (c.indirect f).2 →
      ∃ t, exec (.movy f) s = .next t ∧ Wrote s t c (c.eff f.g) 1 (indirectOpnd f (c.indirect f).1) fun j => c.g.lane f.dst j)
  ∧ (∀ f s c, Clear s c f.g [(4, f.data)] (baseUsed f ++ offUsed f.off) false →
      ∃ t, exec (.lea f) s = .next t ∧ Wrote s t c (c.eff f.g) 4 f.data fun _ =>
        wrap 80 ((c.g.pointer (4 * f.base.toNat) : Int) + c.g.offset f.off 0 + signed 12 f.imm.toNat * (sizeBytes f.size : Int)))
  ∧ (∀ f s c, Clear s c f.g [(4, f.dst)] [(3, f.a), (tyRegs f.ty, f.b)] false →
      ∃ t, exec (.addw f) s = .next t ∧ Wrote s t c (c.eff f.g) 4 f.dst fun _ =>
        wrap 80 ((c.g.pointer (opndIdx f.a) : Int) + intVal (intTy f.ty).1 (intTy f.ty).2 (c.g.srcB f (tyRegs f.ty) 0)))
  ∧ (∀ f s c, Clear s c f.g [(4, f.dst)] [(3, f.a)] false →
      ∃ t, exec (.addwImm f) s = .next t ∧ Wrote s t c (c.eff f.g) 4 f.dst fun _ =>
        wrap 80 ((c.g.pointer (opndIdx f.a) : Int) + signed 22 f.imm.toNat))
  ∧ (∀ f, Computes (.iota f) f.g [(1, f.dst)] [(1, f.a)] false 1 f.dst fun c j =>
        wrap 32 ((c.g.lane f.a 0 : Int) + signed 22 f.imm.toNat * (j : Int)))

/-- 05 R121 to R123: sums, products, fused forms, dot products, minima and maxima, magnitudes, signs and classes of floating-point elements. 05 R125 and R126: the FP32 functions of one operand, scaling by a power of two, and the split into fraction and exponent. The transcendental functions rest on log 12. -/
def Obligations.FloatOperationsComplete : Prop :=
  (let one := fun (_ : FormA) => 1
  ComputesA2 .fadd one one one (fun f => floatMap f.ty fun t x y =>
      roundF t f.rnd f.sat 0 (XR.add (f.rnd == .rdn) (t.value x) (t.value y)))
  ∧ ComputesA2 .fsub one one one (fun f => floatMap f.ty fun t x y =>
      roundF t f.rnd f.sat 0 (XR.add (f.rnd == .rdn) (t.value x) (t.value y).negate))
  ∧ ComputesA2 .fmul one one one (fun f => floatMap f.ty fun t x y => roundF t f.rnd f.sat 0 (XR.mul (t.value x) (t.value y)))
  ∧ ComputesB3 .fma 1 1 1 1 (fun f => fmaWord f.func false) ∧ ComputesB3 .fnma 1 1 1 1 (fun f => fmaWord f.func true)
  ∧ ComputesB3 .fdot2 1 1 1 1 (fun f => dot2Word f.func)
  ∧ ComputesA2 .fmin one one one (fun f => floatMap f.ty fun t => fminmax t false)
  ∧ ComputesA2 .fmax one one one (fun f => floatMap f.ty fun t => fminmax t true)
  ∧ ComputesA2 .fminm one one one (fun f => floatMap f.ty fun t => fminmaxMag t false)
  ∧ ComputesA2 .fmaxm one one one (fun f => floatMap f.ty fun t => fminmaxMag t true)
  ∧ ComputesA1 .fabs one one (fun f a => floatMap f.ty (fun t x _ => t.mag x) a 0)
  ∧ ComputesA1 .fneg one one (fun f a => floatMap f.ty (fun t x _ => t.signed (!t.neg x) (t.mag x)) a 0)
  ∧ ComputesA1 .fclass one one (fun f a => floatMap f.ty (fun t x _ => classCode t x) a 0))
  ∧ (let one := fun (_ : FormA) => 1
  ComputesA1 .frcp one one (fun _ => rcp32) ∧ ComputesA1 .frsq one one (fun _ => rsq32)
  ∧ ComputesA1 .fsqrt one one (fun f => sqrt32 f.rnd) ∧ ComputesA1 .fexp2 one one (fun _ => exp2_32)
  ∧ ComputesA1 .flog2 one one (fun _ => log2_32) ∧ ComputesA1 .fsinpi one one (fun _ => sinpi32)
  ∧ ComputesA1 .fcospi one one (fun _ => cospi32) ∧ ComputesA1 .ftanh one one (fun _ => tanh32)
  ∧ ComputesA1 .fsigm one one (fun _ => sigm32) ∧ ComputesA1 .ffrac one one (fun _ => ffracCode)
  ∧ ComputesA1 .fround one one (fun f a => floatMap f.ty (fun t x _ => froundCode t f.rnd x) a 0)
  ∧ ComputesA2 .fldexp one one one (fun f a b => ldexpCode f.rnd f.sat a (signed 32 b))
  ∧ ComputesC1 .fldexpImm (fun f a => ldexpCode ((rndOf (f.func.toNat / 2)).getD .rne) (f.func.getLsbD 0) a (signed 22 f.imm.toNat))
  ∧ ComputesA1 .ffrexp (fun _ => 2) one (fun _ => frexpCode))

/-- 04 R85, in every format and mode: the sum of a finite value of either sign and its negation, and the difference of a value and itself, are +0, or −0 rounding down; two zeros of one sign sum to that zero; a zero of either sign times a finite value, and every product of finite values that comes out as zero, takes the exclusive or of the signs. -/
def Obligations.FloatZeroSigns : Prop :=
  ∀ (t : Fmt) (m : Rnd) (sat : Bool) (r x y : Nat), (t = fmt32 ∨ t = fmt16 ∨ t = fmtB16 ∨ t = fmtE4 ∨ t = fmtE5) →
    x < 2 * t.signBit → y < 2 * t.signBit → t.mag x < t.top → t.mag y < t.top →
    let sum := fun a b => roundF t m sat r (XR.add (m == .rdn) (t.value a) b)
    let product := roundF t m sat r (XR.mul (t.value x) (t.value y))
    sum x (t.value (t.signed (!t.neg x) (t.mag x))) = t.signed (m == .rdn) 0
    ∧ sum x (t.value x).negate = t.signed (m == .rdn) 0
    ∧ (∀ n : Bool, sum (t.signed n 0) (t.value (t.signed n 0)) = t.signed n 0)
    ∧ (t.mag x = 0 → product = t.signed (t.neg x != t.neg y) 0)
    ∧ (t.mag product = 0 → product = t.signed (t.neg x != t.neg y) 0)

/-- 05 R127 to R132 and 04 R91 to R99: conversions with the random word of each lane's pass, packing, widening, group quantisation and the stochastic rounding state; under `.sr` alone the fragment's state steps. Parameters of dq and qz in lanes outside m0 are read as zero. That a parameter in a lane outside m0 reads as zero is the model's reading of a cross-lane source (log 62). -/
def Obligations.ConversionsComplete : Prop :=
  let passed := fun (c : Ctx) (f : FormA) => srPasses c.f.rnd (c.eff f.g) (opndScalar f.dst)
  let after := fun (c : Ctx) (f : FormA) => if f.rnd = .sr then ({ c.f with rnd := (passed c f).2 } : Frag) else c.f
  let random := fun (c : Ctx) (f : FormA) (j : Nat) => passRnd (passed c f).1 (opndScalar f.dst) j
  (∀ f s c, Clear s c f.g [(tyRegs f.ty, f.dst)] [(1, f.a)] false →
    ∃ t, exec (.cvt f) s = .next t ∧ WroteFrom s t c (after c f) (c.eff f.g) (tyRegs f.ty) f.dst
      fun j => convTo f.ty f.rnd f.sat (random c f j) (c.g.srcA f 1 j))
  ∧ (∀ f s c, Clear s c f.g [(1, f.dst)] [(tyRegs f.ty, f.a)] false →
    ∃ t, exec (.cvti f) s = .next t ∧ WroteFrom s t c (after c f) (c.eff f.g) 1 f.dst
      fun j => convFrom f.ty f.rnd f.sat (random c f j) (c.g.srcA f (tyRegs f.ty) j))
  ∧ (∀ f s c, Clear s c f.g [(1, f.dst)] [(1, f.a), (1, f.b)] false →
    ∃ t, exec (.pack f) s = .next t ∧ WroteFrom s t c (after c f) (c.eff f.g) 1 f.dst
      fun j => packWord f.ty f.rnd f.sat (random c f j) (c.g.srcA f 1 j) (c.g.srcB f 1 j))
  ∧ ComputesA1 .unpack (fun _ => 2) (fun _ => 1) (fun f => unpackPair f.ty)
  ∧ ComputesC1 .unpackElement (fun f a => unpackOne (unpackTy f.func.toNat) a (f.imm.toNat % 8))
  ∧ (∀ f s c, Clear s c f.g [((quantLayout f.func).1 / 2, f.dst), (1, f.b), (1, f.c)] [(1, f.a)] false →
      c.quantBad f (c.eff f.g) = none →
      ∃ t, exec (.dq f) s = .next t ∧ Wrote s t c (c.eff f.g) ((quantLayout f.func).1 / 2) f.dst fun j =>
        ((List.range (quantLayout f.func).1).map fun i =>
          let p := c.quantParams f ((quantLayout f.func).1 * j + i)
          dequant p.1 p.2 (c.g.lane f.a j / 2 ^ ((quantLayout f.func).2.1 * i) % 2 ^ (quantLayout f.func).2.1) * 2 ^ (16 * i)).sum)
  ∧ (∀ f s c, Clear s c f.g [(1, f.dst), (1, f.b), (1, f.c)] [((quantLayout f.func).1 / 2, f.a)] false →
      c.quantBad f (c.eff f.g) = none →
      ∃ t, exec (.qz f) s = .next t ∧ Wrote s t c (c.eff f.g) 1 f.dst fun j =>
        ((List.range (quantLayout f.func).1).map fun i =>
          let p := c.quantParams f ((quantLayout f.func).1 * j + i)
          quant (quantLayout f.func).2.1 p.1 p.2 (c.g.wide ((quantLayout f.func).1 / 2) f.a j / 2 ^ (16 * i) % 2 ^ 16)
            * 2 ^ ((quantLayout f.func).2.1 * i)).sum)
  ∧ (∀ f s c, Clear s c f.g [] [(1, f.a)] false →
      ∃ t, exec (.srseed f) s = .next t ∧ Moved s t c ({ c.f with rnd := nonzeroState (c.g.srcA f 1 0) } : Frag).next)
  ∧ (∀ f s c, Clear s c f.g [] [] false →
      ∃ t, exec (.srseedImm f) s = .next t ∧ Moved s t c ({ c.f with rnd := nonzeroState f.imm.toNat } : Frag).next)
  ∧ (∀ f, Computes (.srread f) f.g [(1, f.dst)] [] false 1 f.dst fun c _ => c.f.rnd.toNat)

/-- 05 R134 to R138 and R140: permutes, shifts across lanes and bytes, lookups, votes, scans, reductions and ranks; a lane outside m0 reads as zero in a cross-lane source (R102). Which lanes count as read for POISON is the model's choice (log 70). -/
def Obligations.LanesComplete : Prop :=
  (∀ f, Computes (.perm f) f.g [(1, f.dst)] [(1, f.a), (1, f.b)] true 1 f.dst fun c j => c.crossA f (c.g.srcB f 1 j % 128))
  ∧ (∀ f, Computes (.bcast f) f.g [(1, f.dst)] [(1, f.a), (1, f.b)] true 1 f.dst fun c _ => c.crossA f (c.g.srcB f 1 0 % 128))
  ∧ (∀ f, Computes (.bcastImm f) f.g [(1, f.dst)] [(1, f.a)] true 1 f.dst fun c _ => c.crossC f (f.imm.toNat % 128))
  ∧ (∀ f, Computes (.lshift f) f.g [(1, f.dst)] [(1, f.a), (1, f.b)] true 1 f.dst fun c j =>
      let i : Int := (j : Int) - signed 32 (c.g.srcB f 1 0)
      if 0 ≤ i ∧ i ≤ 127 then c.crossA f i.toNat else 0)
  ∧ (∀ f, Computes (.lshiftImm f) f.g [(1, f.dst)] [(1, f.a)] true 1 f.dst fun c j =>
      let i : Int := (j : Int) - signed 22 f.imm.toNat
      if 0 ≤ i ∧ i ≤ 127 then c.crossC f i.toNat else 0)
  ∧ (∀ f, Computes (.bshift f) f.g [(1, f.dst)] [(1, f.a), (1, f.b)] true 1 f.dst fun c j => byteShift (c.crossA f) (signed 32 (c.g.srcB f 1 0)) j)
  ∧ (∀ f, Computes (.bshiftImm f) f.g [(1, f.dst)] [(1, f.a)] true 1 f.dst fun c j => byteShift (c.crossC f) (signed 22 f.imm.toNat) j)
  ∧ ComputesB3 .permBytes 1 1 1 1 (fun _ => permWord)
  ∧ (∀ f, Computes (.tlk f) f.g [(1, f.dst)] [(1, f.a), (4, f.b)] false 1 f.dst fun c j => tlkWord (c.g.srcA f 1 j) (c.g.wide 4 f.b j))
  ∧ (∀ f, f.ty = .b128 → Computes (.vote f) f.g [(4, f.dst)] [(1, f.a)] false 4 f.dst fun c _ => ((c.nonzero f (c.eff f.g)).map fun j => 2 ^ j).sum)
  ∧ (∀ f, f.ty ≠ .b128 → Compares (.vote f) f.g [(1, f.a)] fun c k =>
      if k = opndIdx f.dst then some (fun j => c.g.srcA f 1 j != 0) else none)
  ∧ (∀ f, Computes (.mpop f) f.g [(1, f.dst)] [(1, f.a)] false 1 f.dst fun c _ => (c.nonzero f (c.eff f.g)).length)
  ∧ (∀ f, Computes (.mfirst f) f.g [(1, f.dst)] [(1, f.a)] false 1 f.dst fun c _ => (c.nonzero f (c.eff f.g)).headD 128)
  ∧ (∀ f, Computes (.scan f) f.g [(1, f.dst)] [(1, f.a), (1, f.b)] false 1 f.dst fun c j => c.scanAt f (c.eff f.g) j % 2 ^ 32)
  ∧ (∀ f, Computes (.reduce f) f.g [(1, f.dst)] [(1, f.a), (1, f.b)] false 1 f.dst fun c _ =>
      if f.ty = .f32 then c.reduceFloat f (c.eff f.g) else c.scanAt f (c.eff f.g) 128 % 2 ^ 32)
  ∧ (∀ f, Computes (.rank f) f.g [(1, f.dst)] [(1, f.a)] false 1 f.dst fun c j =>
      ((lanesOf (c.eff f.g)).filter fun i => decide (i < j) && c.g.srcA f 1 i == c.g.srcA f 1 j).length)

/-- 05 R137: bsel writes (a AND c) OR (b AND NOT c), bit by bit. -/
def Obligations.BitSelectComplete : Prop :=
  ∀ (f : FormB) s c, Clear s c f.g [(1, f.dst)] [(1, f.a), (1, f.b), (1, f.c)] false →
    ∃ t val, exec (.bsel f) s = .next t ∧ Wrote s t c (c.eff f.g) 1 f.dst val
      ∧ ∀ j i, i < 32 → (val j).testBit i =
          (((c.g.lane f.a j).testBit i && (c.g.lane f.c j).testBit i) || ((c.g.lane f.b j).testBit i && !(c.g.lane f.c j).testBit i))

/-- 05 R139: mand, mor, mxor and mnot write each active lane's bit; every other mask bit, and everything else, is unchanged. -/
def Obligations.MaskOperationsComplete : Prop :=
  let bits := fun (op : Bool → Bool → Bool) (f : FormA) (c : Ctx) (k : Nat) =>
    if k = opndIdx f.dst then
      some fun j => op ((c.g.mreg c.f.mask (opndIdx f.a)).getLsbD j) ((c.g.mreg c.f.mask (opndIdx f.b)).getLsbD j)
    else none
  ∀ f, Compares (.mand f) f.g [] (bits (fun a b => a && b) f) ∧ Compares (.mor f) f.g [] (bits (fun a b => a || b) f)
    ∧ Compares (.mxor f) f.g [] (bits xor f) ∧ Compares (.mnot f) f.g [] (bits (fun a _ => !a) f)

/-- 02 R38: an instruction on registers whose effective mask is empty has no effect but to go on to the next word. 17 R369: a read of a poisoned register raises POISON precisely at the reading instruction: the step is exactly the taking of that trap, so no lane writes. -/
def Obligations.MaskAndPoison : Prop :=
  (∀ (i : Instr) (g : Guard) (ds ss : List (Nat × Opnd)) (s : State) (c : Ctx),
    ((∃ f, i = .add f ∧ g = f.g ∧ ds = [(tyRegs f.ty, f.dst)] ∧ ss = [(tyRegs f.ty, f.a), (tyRegs f.ty, f.b)])
      ∨ (∃ f, i = .fma f ∧ g = f.g ∧ ds = [(1, f.dst)] ∧ ss = [(1, f.a), (1, f.b), (1, f.c)])
      ∨ (∃ f, i = .addImm f ∧ g = f.g ∧ ds = [(1, f.dst)] ∧ ss = [(1, f.a)])
      ∨ (∃ f, i = .movi f ∧ g = f.g ∧ ds = [(1, f.dst)] ∧ ss = [])
      ∨ (∃ f, i = .perm f ∧ g = f.g ∧ ds = [(1, f.dst)] ∧ ss = [(1, f.a), (1, f.b)])
      ∨ (∃ f, i = .mand f ∧ g = f.g ∧ ds = [] ∧ ss = [])
      ∨ (∃ f, i = .ld f ∧ g = f.g ∧ ds = [(sizeRegs f.size, f.data)] ∧ ss = baseUsed f ++ offUsed f.off)
      ∨ (∃ f, i = .st f ∧ g = f.g ∧ ds = [] ∧ ss = (sizeRegs f.size, f.data) :: baseUsed f ++ offUsed f.off)
      ∨ (∃ f, i = .pub f ∧ g = f.g ∧ ds = [] ∧ ss = [])) →
    s.ctx = some c → s.precheck c (ds ++ ss) = none → c.eff g = 0 →
    ∃ t, exec i s = .next t ∧ Moved s t c c.f.next)
  ∧ (∀ (i : Instr) (g : Guard) (ds ss : List (Nat × Opnd)) (s : State) (c : Ctx) (r : Bool × Nat),
    ((∃ f, i = .add f ∧ g = f.g ∧ ds = [(tyRegs f.ty, f.dst)] ∧ ss = [(tyRegs f.ty, f.a), (tyRegs f.ty, f.b)])
      ∨ (∃ f, i = .fma f ∧ g = f.g ∧ ds = [(1, f.dst)] ∧ ss = [(1, f.a), (1, f.b), (1, f.c)])
      ∨ (∃ f, i = .addImm f ∧ g = f.g ∧ ds = [(1, f.dst)] ∧ ss = [(1, f.a)])
      ∨ (∃ f, i = .st f ∧ g = f.g ∧ ds = [] ∧ ss = (sizeRegs f.size, f.data) :: baseUsed f ++ offUsed f.off)) →
    s.ctx = some c → s.precheck c (ds ++ ss) = none → c.eff g ≠ 0 → c.g.poisoned (c.eff g) (usedRegs ss) = some r →
    exec i s = .next (s.takeTrap c { kind := 0, code := .poison, pc := c.f.pc, info := poisonInfo r }))

/-! ## Words, steps and the machine -/

/-- 02 R43 to R54: every well-formed instruction of the opcode table, at a group or at a tile sequencer, has a word, and the word decodes to it. -/
def Obligations.DecodeOfEncode : Prop :=
  ∀ (seq last : Bool) (i : Instr), Instr.WellFormed seq last i → ∃ w, encode i = some w ∧ decodeWord seq last w = .ok i

/-- 02 R43 to R54: a word that decodes is the word of the instruction it decodes to, so no two words mean one instruction, and that instruction is well-formed. -/
def Obligations.EncodeOfDecode : Prop :=
  ∀ (seq last : Bool) (w : BitVec 64) (i : Instr), decodeWord seq last w = .ok i → encode i = some w ∧ Instr.WellFormed seq last i

/-- 02 R43 to R54: words of each format written out from the field tables, with what they decode to. -/
def Obligations.SampleWords : Prop :=
  let none_ : Guard := { neg := false, mask := 0 }
  decodeWord false false 0x3098_00E0_3214_00A2 = .ok (.fadd { g := { neg := true, mask := 3 }, dst := .v 7, a := .v 12, b := .k 40, modA := .none, modB := .none, ty := .f32, rnd := .rtz, sat := false })
  ∧ decodeWord false false 0x3301_0060_1002_C0A4 = .ok (.fma { g := none_, dst := .v 3, a := .v 4, b := .v 5, c := .k 10, func := 4 })
  ∧ decodeWord false false 0x2102_0080_0440_0064 = .ok (.cmpImm { g := none_, dst := .v 4, a := .v 1, func := 1, imm := 100 })
  ∧ decodeWord false false 0x9203_0000_3FFF_FFC0 = .ok (.waitc { g := none_, dst := .v 0, func := 0, imm := 0x3FFFFFC0 })
  ∧ decodeWord false false 0x8004_0080_4008_00C2 = .ok (.ld { g := none_, data := .v 4, base := 2, off := .v 2, imm := 3, scope := .grp, size := .b32 })
  ∧ decodeWord false true 0x701D_FFFF_FFFA_0001 = .ok (.br { g := { neg := false, mask := 3 }, off := 0xFFFFFFFA, cond := 1 })
  ∧ decodeWord false false 0xE806_8190_2000_0000 = .ok (.gsig { g := none_, x := .k 12, y := .k 8, handle := 0, func := 0 })

/-- 02 R52: a group that decodes any opcode in 0xC0 to 0xD7 raises ILLEGAL_ENCODING, whether the opcode is assigned or not. -/
def Obligations.SequencerOpcodesReserved : Prop :=
  ∀ (s : State) (c : Ctx) (w : BitVec 64), s.ctx = some c → c.g.seq = false → 0xC0 ≤ bitsAt w.toNat 56 8 → bitsAt w.toNat 56 8 ≤ 0xD7 →
    decodeWord c.g.seq c.f.atLast w = .error .illegalEncoding ∧ c.decode w = .wordNotAnInstruction w
      ∧ exec (.wordNotAnInstruction w) s = .next (s.takeTrap c (faultAt .illegalEncoding c.f.pc w.toNat))

/-- 02 R54 and R56: a word that is no instruction takes the trap of the first failing check, which completes that row; and decoding gives no fault but ILLEGAL_ENCODING and UNIMPLEMENTED. -/
def Obligations.UndecodedWordTraps : Prop :=
  ∀ (s : State) (c : Ctx) (w : BitVec 64) (code : Code), s.ctx = some c → decodeWord c.g.seq c.f.atLast w = .error code →
    exec (.wordNotAnInstruction w) s = .next (s.takeTrap c (faultAt code c.f.pc w.toNat)) ∧ (code = .illegalEncoding ∨ code = .unimplemented)

/-- 02 R30, R31, R54: where the next move is the issue of a fragment that stands at a word of its block, with no trap from outside and no breakpoint before it, the step is that word's instruction, in the state in which the fetch has cached its translation and the word stands; a block that makes no single step changes in no other way. That the next move stands on the agenda is the model's choice (log 3), as is the version a fetch reads (log 9). -/
def Obligations.StepRunsDecoded : Prop :=
  ∀ (s s1 : State) (p : Issuer) (c : Ctx) (w : BitVec 64) (i : Instr),
    s.pick = some (.issue p, s1) → s1.ctxOf p.group p.frag = some c → c.issues s1 = true → s1.boundary c = none → c.f.phase = .run →
    (s1.noteBreak c).peek c c.f.pc = .word w → decodeWord c.g.seq c.f.atLast w = .ok i →
    step s = thenDo (s1.settled p) (exec i (((s1.noteBreak c).noteFetch c c.f.pc).issued p w))
      ∧ (c.b.life ≠ .quiesced → s1.noteBreak c = s1) ∧ (c.b.hold = none → ∀ o, thenDo (s1.settled p) o = o)

/-- The memory's canonical form: addresses strictly rising, and no byte listed that reads as an unlisted one does. Every step keeps it, whatever the state. -/
def Obligations.MemoryStaysCanonical : Prop :=
  ∀ s t : State, Memory.wf s.mem = true → step s = .next t → Memory.wf t.mem = true

/-- 22 R430: the machine after its first cold start. Memory reads zero everywhere and is in canonical form; no partition, launch, block, group, gate or collective group stands; one start has been counted; and no register holds anything, for there is no group. That memory beyond the device's own, the host's and the peers', reads zero is the model's choice (log 1). The other values that the manual does not give are the model's (log 2) and are not stated here. The start count of one is the model's choice (log 2), and so is the zero of the host's and the peers' memory (log 1). -/
def Obligations.ResetState : Prop :=
  Memory.wf State.reset.mem = true ∧ (∀ a, Memory.read State.reset.mem a = 0) ∧ (∀ p, p < 16 → (State.reset.parts.get p).isSome = true ∧ (State.reset.part p).enable = false)
  ∧ (∀ l, State.reset.launches.get l = none) ∧ (∀ b, State.reset.blocks.get b = none) ∧ (∀ g, State.reset.groups.get g = none)
  ∧ (∀ g, State.reset.gates.get g = none) ∧ (∀ g, State.reset.colls.get g = none) ∧ State.reset.dev = .ready ∧ State.reset.startCount = 1

/-! ## Traps and control (chapters 7 and 8) -/

/-- 07 R194 and 08 R213: a fault taken by a fragment of a block that repeats no other, outside a handler and with a handler entry given, sets the trap registers and the in-handler mark, sends the fragment to the handler's header, and writes the log; no register changes, no other fragment, no other group, and, with trace off, nothing else of the machine. 07 R194 and 08 R217: a trap of any kind but 3 with no handler entry, in a fragment already in a handler, or at the tile sequencer ends the kernel with the trap's code: every block of the launch has ended, and so has every group of those blocks, with no fragment left to issue. 08 R214: trap completes wherever some lane of its fragment is active: its next state is that in which the fragment has taken a software trap, of kind 1 and the code SOFTWARE_TRAP, with the immediate and, where it is named, the register in `$trapinfo`. With no lane active it goes on (01 R11). -/
def Obligations.TrapsTaken : Prop :=
  (∀ (s : State) (c : Ctx) (t : Trap), s.ctx = some c → c.repeats = false → c.g.seq = false → c.l.hdr.handler ≠ 0 → c.f.handler = .none →
    ((s.part c.l.part).vd c.l.hdr.vdev).trace = false →
    ∃ f, GroupNow s (s.takeTrap c t) c (c.g.logs (trapLogEntry c.f t)) f ∧ ({ (s.takeTrap c t) with groups := s.groups } : State) = s
      ∧ f.cause.toNat = (t.kind * 256 + codeNum t.code) % 2 ^ 32 ∧ f.tpc = t.pc ∧ f.tinfo = t.info
      ∧ f.handler = (if t.kind = 2 then .view else .fault) ∧ f.pc = c.l.hdr.handler ∧ f.phase = .arrive
      ∧ f.mask = c.f.mask ∧ f.rnd = c.f.rnd ∧ f.reconv = c.f.reconv ∧ f.sib = c.f.sib)
  ∧ (∀ (s : State) (c : Ctx) (t : Trap), s.ctx = some c → c.repeats = false → c.l.ended = none →
    t.kind ≠ 3 → (c.g.seq = true ∨ c.l.hdr.handler = 0 ∨ c.f.handler ≠ .none) →
    (∃ l, (s.takeTrap c t).launches.get c.b.launch = some l ∧ l.ended = some (0x05, codeNum t.code))
    ∧ (∀ k b, s.blocks.get k = some b → b.launch = c.b.launch → ∃ d, (s.takeTrap c t).blocks.get k = some d ∧ d.life = .ended)
    ∧ ∀ u g b, s.groups.get u = some g → s.blocks.get g.block = some b → b.launch = c.b.launch →
        ∃ h, (s.takeTrap c t).groups.get u = some h ∧ h.life = .ended ∧ h.frags = Table.empty)
  ∧ (∀ (f : FormC) (s : State) (c : Ctx), ClearJump s c f.g (if f.func.getLsbD 0 then [(1, f.a)] else []) →
    (c.eff f.g ≠ 0 → exec (.trap f) s = .next (s.takeTrap c { kind := 1, code := .softwareTrap, pc := c.f.pc, info := BitVec.ofNat 64 (f.imm.toNat + (if f.func.getLsbD 0 then c.g.lane f.a 0 else 0) * 2 ^ 32) }))
    ∧ (c.eff f.g = 0 → (c.f.atLast = true → s.reach c c.succ = none) → ∃ t, exec (.trap f) s = .next t ∧ Moved s t c c.f.next))

/-- 08 R206 to R208: a branch whose lanes all go one way, bru, jmp, call and ret transfer the whole fragment, call with its return address in the link quad; no other register, and nothing else of the machine, changes. Each holds where the word reached is a header. 02 R30: an instruction that would transfer control to a word that is no header, or is not aligned, takes BRANCH_NOT_HEADER before any effect: br and brx of the first of target, successor and reconvergence header that is wrong, bru of the way it goes, call with its link quad unwritten, jmp and ret. That a target word which cannot be fetched stops the transfer as its fetch would is the model's reading (log 9). -/
def Obligations.TransfersComplete : Prop :=
  ((∀ (f : FormF) s c, ClearJump s c f.g [] → c.eff f.g = 0 ∨ c.eff f.g = c.f.mask →
    let a := if c.eff f.g = 0 then c.succ else c.target f.off
    s.reach c a = none → ∃ t, exec (.br f) s = .next t ∧ Moved s t c (c.f.goto a))
  ∧ (∀ (f : FormA) s c, ClearJump s c f.g ((3, f.a) :: offUsed f.b) → c.eff f.g = 0 ∨ c.eff f.g = c.f.mask →
    let a := if c.eff f.g = 0 then c.succ else
      BitVec.ofNat 80 (wrap 80 ((c.g.pointer (opndIdx f.a) : Int) + 8 * c.g.offset f.b 0))
    s.reach c a = none → ∃ t, exec (.brx f) s = .next t ∧ Moved s t c (c.f.goto a))
  ∧ (∀ (f : FormF) s c, ClearJump s c f.g [] →
    let m := c.g.mreg c.f.mask (f.cond.toNat / 16 % 16)
    let cond := if bitAt f.cond.toNat 3 then ~~~m else m
    let taken := if bitAt f.cond.toNat 2 then c.f.mask &&& ~~~cond = 0 else c.f.mask &&& cond ≠ 0
    (taken → s.reach c (c.target f.off) = none → ∃ t, exec (.bru f) s = .next t ∧ Moved s t c (c.f.goto (c.target f.off)))
    ∧ (¬ taken → s.reach c c.succ = none → ∃ t, exec (.bru f) s = .next t ∧ Moved s t c (c.f.goto c.succ)))
  ∧ (∀ (f : FormF) s c, ClearJump s c f.g [] → s.reach c (c.target f.off) = none →
    ∃ t, exec (.jmp f) s = .next t ∧ Moved s t c (c.f.goto (c.target f.off)))
  ∧ (∀ (f : FormF) s c, ClearJump s c f.g [] → c.beyond (3, .k (BitVec.ofNat 10 (4 * (f.cond.toNat / 256)))) = false →
    s.reach c (c.target f.off) = none →
    ∃ t h, exec (.call f) s = .next t ∧ OnlyGroup s t c.uid ∧ t.groups.get c.uid = some h ∧ h.frame = c.g.frame
      ∧ OneFrag c.g h c.fid (c.f.goto (c.target f.off)) ∧ WroteSca c.g h 3 (4 * (f.cond.toNat / 256)) (nextWord c.f.pc).toNat)
  ∧ (∀ (f : FormG) s c, ClearJump s c f.g [(3, f.x)] → s.reach c (BitVec.ofNat 80 (c.g.pointer (opndIdx f.x))) = none →
    ∃ t, exec (.ret f) s = .next t ∧ Moved s t c (c.f.goto (BitVec.ofNat 80 (c.g.pointer (opndIdx f.x))))))
  ∧ (∀ (s : State) (c : Ctx) (x : Bar),
    let branches := fun (i : Instr) (g : Guard) (a : Addr) =>
      (c.eff g = 0 → s.reach c c.succ = some x → exec i s = .next (c.barred s x))
      ∧ (c.eff g ≠ 0 → s.reach c a = some x → exec i s = .next (c.barred s x))
      ∧ (c.eff g ≠ 0 → c.eff g ≠ c.f.mask → s.reach c a = none → s.reach c c.succ = some x → exec i s = .next (c.barred s x))
      ∧ (c.eff g ≠ 0 → c.eff g ≠ c.f.mask → s.reach c a = none → s.reach c c.succ = none → c.f.blk.recOff ≠ 0 →
          c.splitHeader.bind (s.reach c) = some x → exec i s = .next (c.barred s x))
    (∀ f : FormF, ClearJump s c f.g [] → branches (.br f) f.g (c.target f.off))
    ∧ (∀ f : FormA, ClearJump s c f.g ((3, f.a) :: offUsed f.b) →
        branches (.brx f) f.g (BitVec.ofNat 80 (wrap 80 ((c.g.pointer (opndIdx f.a) : Int) + 8 * c.g.offset f.b 0))))
    ∧ (∀ f : FormF, ClearJump s c f.g [] →
        let m := c.g.mreg c.f.mask (f.cond.toNat / 16 % 16)
        let cond := if bitAt f.cond.toNat 3 then ~~~m else m
        let taken := if bitAt f.cond.toNat 2 then c.f.mask &&& ~~~cond = 0 else c.f.mask &&& cond ≠ 0
        (taken → s.reach c (c.target f.off) = some x → exec (.bru f) s = .next (c.barred s x))
        ∧ (¬ taken → s.reach c c.succ = some x → exec (.bru f) s = .next (c.barred s x)))
    ∧ (∀ f : FormF, ClearJump s c f.g [] → s.reach c (c.target f.off) = some x → c.beyond (3, .k (BitVec.ofNat 10 (4 * (f.cond.toNat / 256)))) = false →
      exec (.call f) s = .next (c.barred s x) ∧ exec (.jmp f) s = .next (c.barred s x))
    ∧ (∀ f : FormG, ClearJump s c f.g [(3, f.x)] → s.reach c (BitVec.ofNat 80 (c.g.pointer (opndIdx f.x))) = some x → exec (.ret f) s = .next (c.barred s x))
    ∧ (∀ (a : Addr) (w : BitVec 64), a.toNat % 8 ≠ 0 ∨ (s.peek c a = .word w ∧ bitsAt w.toNat 56 8 ≠ 1) →
      s.reach c a = some (.trap (faultAt .branchNotHeader c.f.pc (a.toNat % 2 ^ 64))))
    ∧ ∀ t, c.barred s (.trap t) = s.takeTrap c t)

/-- 07 R187 and R188, 04 R94, 08 R206 and R213: a br or brx that some of a fragment's lanes take splits it where an entry is free: the lanes of the effective mask at the target and the others at the successor, each with the trap registers and the in-handler mark; the part with the lowest lane keeps the rounding state and the other takes the next. No register changes, and every other fragment stands as it did, but that the least recently issued leave the chip while more than 16 stand on it. With no entry free the branch takes SPLIT_OVERFLOW, with the entries in use in `$trapinfo`. -/
def Obligations.DivergentBranchSplits : Prop :=
  ∀ (i : Instr) (g : Guard) (a : Addr) (s : State) (c : Ctx),
    ((∃ f : FormF, i = .br f ∧ g = f.g ∧ a = c.target f.off ∧ ClearJump s c f.g [])
      ∨ (∃ f : FormA, i = .brx f ∧ g = f.g ∧ a = BitVec.ofNat 80 (wrap 80 ((c.g.pointer (opndIdx f.a) : Int) + 8 * c.g.offset f.b 0))
          ∧ ClearJump s c f.g ((3, f.a) :: offUsed f.b))) →
    c.eff g ≠ 0 → c.eff g ≠ c.f.mask → s.reach c a = none → s.reach c c.succ = none →
    (c.f.blk.recOff ≠ 0 → c.splitHeader.bind (s.reach c) = none) →
    (c.splitEntries ≤ c.g.frags.rows.length → exec i s = .next (s.takeTrap c (faultAt .splitOverflow c.f.pc c.g.frags.rows.length)))
    ∧ (c.g.frags.rows.length < c.splitEntries →
      ∃ t h, exec i s = .next t ∧ OnlyGroup s t c.uid ∧ t.groups.get c.uid = some h ∧ SameRegs c.g h
      ∧ (c.g.nextFrag ≠ c.fid → c.g.frags.get c.g.nextFrag = none → c.g.frags.wf = true →
        (∃ x y fx fy, ((x = c.fid ∧ y = c.g.nextFrag) ∨ (x = c.g.nextFrag ∧ y = c.fid))
          ∧ h.frags.get x = some fx ∧ h.frags.get y = some fy
          ∧ fx.mask = c.eff g ∧ fx.pc = a ∧ fy.mask = c.f.mask &&& ~~~(c.eff g) ∧ fy.pc = c.succ
          ∧ fx.phase = .arrive ∧ fy.phase = .arrive ∧ fx.reconv = c.splitHeader ∧ fy.reconv = c.splitHeader ∧ fx.sib = some c.g.nextFrag ∧ fy.sib = some c.g.nextFrag
          ∧ fx.cause = c.f.cause ∧ fy.cause = c.f.cause ∧ fx.tpc = c.f.tpc ∧ fy.tpc = c.f.tpc
          ∧ fx.tinfo = c.f.tinfo ∧ fy.tinfo = c.f.tinfo ∧ fx.handler = c.f.handler ∧ fy.handler = c.f.handler
          ∧ (if (c.eff g).getLsbD (lowestLane c.f.mask) then x = c.fid ∧ fx.rnd = c.f.rnd ∧ fy.rnd = srStep c.f.rnd
             else y = c.fid ∧ fy.rnd = c.f.rnd ∧ fx.rnd = srStep c.f.rnd))
        ∧ (∀ k f, k ≠ c.fid → c.g.frags.get k = some f → ∃ on, h.frags.get k = some { f with onChip := on } ∧ (f.onChip = false → on = false))
        ∧ (h.frags.rows.filter fun r => r.2.onChip).length = min Config.splitEntries
            ((c.g.frags.rows.filter fun r => r.2.onChip).length + (if c.f.onChip then 1 else 0))
        ∧ ∀ k j fk fj, h.frags.get k = some fk → h.frags.get j = some fj → fk.onChip = false → fj.onChip = true →
            ((c.g.frags.get k).getD c.f).onChip = true → fk.stamp ≤ fj.stamp))

/-- 08 R209 and R210: exit with no lane goes on; with some of a fragment's lanes the others go on and those have exited; with all of a fragment's lanes the fragment is gone; the last lanes of a group, once its classes are zero and its publish is done, end the group, the last of its block as soon as the bounce buffer takes what the block writes back (13 R311); and at a tile sequencer the tile program ends. No register changes as lanes leave. -/
def Obligations.ExitComplete : Prop :=
  (∀ (f : FormG) s c, ClearJump s c f.g [] → c.eff f.g = 0 → s.reach c c.succ = none →
    ∃ t, exec (.exit f) s = .next t ∧ Moved s t c (c.f.goto c.succ))
  ∧ (∀ (f : FormG) s c, ClearJump s c f.g [] → c.b.check = none → c.g.seq = false → c.eff f.g ≠ 0 → c.f.mask &&& ~~~(c.eff f.g) ≠ 0 →
    s.reach c c.succ = none →
    ∃ t, exec (.exit f) s = .next t ∧ ({ t with groups := s.groups } : State) = s
      ∧ GroupNow s t c { c.g with exited := c.g.exited ||| c.eff f.g } { (c.f.goto c.succ) with mask := c.f.mask &&& ~~~(c.eff f.g) })
  ∧ (∀ (f : FormG) s c, ClearJump s c f.g [] → c.b.check = none → c.g.seq = false → c.eff f.g = c.f.mask → c.f.mask ≠ 0 →
    1 < c.g.frags.rows.length →
    ∃ t h n, exec (.exit f) s = .next t ∧ OnlyGroup s t c.uid ∧ t.groups.get c.uid = some h ∧ SameRegs c.g h
      ∧ h = ({ c.g with exited := c.g.exited ||| c.f.mask, frags := c.g.frags.del c.fid } : Group).fuseAll s.tick n)
  ∧ (∀ (f : FormG) s c u, ClearJump s c f.g [] → c.repeats = false → c.b.check = none → c.g.seq = false → c.eff f.g = c.f.mask → c.f.mask ≠ 0 →
    c.g.frags.rows.length ≤ 1 → c.g.idle = true → c.g.aside = false → c.g.delivered = [] →
    (∀ p ∈ c.g.late, p.code = .viewChange) →
    let left : State := s.updGroup c.uid fun g => { g with life := .leaving, frags := Table.empty, sibs := Table.empty, exited := g.exited ||| c.f.mask }
    let d : Ctx := { c with g := left.groups.getD c.uid c.g, f := { c.f with pend := .none } }
    (∀ n, left.handOver d = .wait n u → exec (.exit f) s = .next u)
    ∧ (∀ n, left.handOver d = .round n u → (u.groups.get c.uid).isSome = true →
        ∃ t h, exec (.exit f) s = .next t ∧ t.groups.get c.uid = some h ∧ (h.life = .publishing n ∨ h.life = .ended))
    ∧ (∀ g, left.handOver d = .clear u → u.groups.get c.uid = some g → g.pubPoison = none →
        let v : State := u.updGroup c.uid fun g => { g with life := .publishing 0 }
        let e : Ctx := { d with g := { g with life := .publishing 0 } }
        (v.lastOf e = true ∧ v.closeFits e = false → exec (.exit f) s = .next v)
        ∧ (v.lastOf e = false ∨ v.closeFits e = true →
          ∃ t h, exec (.exit f) s = .next t ∧ t.groups.get c.uid = some h ∧ h.life = .ended ∧ h.frags = Table.empty)))
  ∧ (∀ (f : FormG) s c u, ClearJump s c f.g [] → c.repeats = false → c.b.check = none → c.g.seq = true → c.eff f.g ≠ 0 →
    c.g.counter 3 = 0 → c.g.delivered = [] → s.publish c = .done u → (u.groups.get c.uid).isSome = true →
    ∃ t h, exec (.exit f) s = .next t ∧ t.groups.get c.uid = some h ∧ h.life = .ended ∧ h.frags = Table.empty)

/-- 08 R215: tret at the end of a handler clears the in-handler mark and goes back to the word that `$trappc` names, or past it, with the fragment's mask and no register changed; a fragment that took its trap while it waited at its reconvergence header waits there again. 08 R216: at the resume entry tret restores k0 to k31 and every saved fragment, but for the lanes that have exited (R209), and what was under way or waited for its delivery when they were saved (17 R364, 19 R406), and ends the handler's fragments, with what they waited on withdrawn; in a fragment not in a handler, with func[0] = 1 at the resume entry, in a pre-emption handler, and at the tile sequencer it raises ILLEGAL_ENCODING. The captured mask registers stand from the resume on (log 30). -/
def Obligations.TretComplete : Prop :=
  (∀ (f : FormG) (s : State) (c : Ctx), ClearJump s c f.g [] → c.g.seq = false → c.f.handler = .fault ∨ c.f.handler = .view → c.g.idle = true →
    (f.func = 1 → c.f.tretAtLast = true → s.reach c (nextWord c.f.tpc) = none) →
    ∃ t h, exec (.tret f) s = .next t
      ∧ (c.f.tphase ≠ .reconv → Moved s t c h)
      ∧ (c.f.tphase = .reconv → OnlyGroup s t c.uid ∧ t.groups.get c.uid = some ((c.g.putFrag c.fid h).fuseAll s.tick (c.g.sibs.rows.length + 1)))
      ∧ h.handler = .none ∧ h.mask = c.f.mask ∧ h.rnd = c.f.rnd
      ∧ h.cause = c.f.cause ∧ h.tpc = c.f.tpc ∧ h.tinfo = c.f.tinfo
      ∧ h.pc = (if f.func = 1 then nextWord c.f.tpc else c.f.tpc)
      ∧ h.phase = (if f.func = 1 then (if c.f.tretAtLast then .arrive else .run) else c.f.tphase))
  ∧ ((∀ (f : FormG) (s : State) (c : Ctx) (v : Saved) (vs : List Saved), ClearJump s c f.g [] → c.g.seq = false → c.f.handler = .resume → f.func ≠ 1 →
    c.g.idle = true → c.g.saved = v :: vs → v.frags.wf = true →
    ∃ (t : State) (h g : Group), exec (.tret f) s = .next t ∧ ({ t with groups := s.groups } : State) = s.dropOthers c ∧ OtherGroups s t c.uid
      ∧ t.groups.get c.uid = some h ∧ h.saved = vs
      ∧ h = g.fuseAll s.tick (c.g.sibs.rows.length + 1) ∧ g.sibs = c.g.sibs
      ∧ (∀ k, g.frags.get k = (v.frags.get k).bind fun x =>
          if x.mask &&& ~~~c.g.exited = 0 then none else some { x with mask := x.mask &&& ~~~c.g.exited, ready := s.tick })
      ∧ (∀ i, i < 32 → i < v.ks.length → h.sreg i = v.ks.getD i 0) ∧ (∀ i, 32 ≤ i ∨ v.ks.length ≤ i → h.sreg i = c.g.sreg i)
      ∧ h.flights = v.flights ∧ h.delivered = v.delivered ++ c.g.delivered
      ∧ h.vregs = c.g.vregs ∧ h.masks = c.g.masks)
  ∧ ∀ (f : FormG) (s : State) (c : Ctx), ClearJump s c f.g [] →
    c.g.seq = true ∨ c.f.handler = .none ∨ c.f.handler = .preempt ∨ (c.f.handler = .resume ∧ f.func = 1) →
    exec (.tret f) s = .next (s.takeTrap c (faultAt .illegalEncoding c.f.pc 0)))

/-- 08 R211 and R212, 10 R253, 02 R48, 09 R239: nop and prefetch change nothing; yield takes its fragment's age and moves the pointer of each pipe of its quarter past its group's slot, but for a sequencer, which is on no quarter, and does nothing else; a sleep of no cycles, or one whose count has run out, goes on, and a longer one holds its fragment where it is; a fence goes on, one of scope `.sys` once the group's reductions on host memory are made there and none that it has published stands in an open round, and a guest's of that scope is counted. That a fence goes on at once but for a reduction already handed is the model's choice (log 11), as are the ready time in steps and the numbers of slots (log 3). -/
def Obligations.HintsComplete : Prop :=
  (∀ (f : FormG) s c, Clear s c f.g [] [] false →
    (∃ t, exec (.yield f) s = .next t ∧ ({ t with groups := s.groups, pointers := s.pointers } : State) = s
        ∧ GroupNow s t c c.g { c.f.next with ready := s.tick }
        ∧ (c.g.seq = true → t.pointers = s.pointers)
        ∧ (c.g.seq = false → ∀ k, t.pointers.get k = if ∃ p, p < 4 ∧ k = c.g.pipeKey p then some ((s.slotOf c.uid c.g + 1) % 24) else s.pointers.get k))
    ∧ ∃ t, exec (.nop f) s = .next t ∧ Moved s t c c.f.next)
  ∧ (∀ (f : FormE) s c, Clear s c f.g [] (baseUsed f ++ offUsed f.off) false → ∃ t, exec (.prefetch f) s = .next t ∧ Moved s t c c.f.next)
  ∧ (∀ (f : FormC) s c, Clear s c f.g [] (if f.func.getLsbD 0 then [(1, f.a)] else []) false →
    let n := f.imm.toNat + (if f.func.getLsbD 0 then c.g.lane f.a 0 else 0)
    ((∃ op d, c.f.pend = .done op d) ∨ (c.f.pend = .none ∧ n = 0) → ∃ t, exec (.sleep f) s = .next t ∧ Moved s t c c.f.next)
    ∧ (c.f.pend = .none → n ≠ 0 → ∃ t, exec (.sleep f) s = .next t ∧ Moved s t c { c.f with pend := .sleep, stall := 14 }))
  ∧ (∀ (f : FormG) s c, Clear s c f.g [] [] false →
    (f.func.toNat % 8 ≠ 4 ∨ (c.l.host = true ∧ s.reducing c.uid = false ∧ ∀ u ∈ s.updates, u.group = c.uid → isHost u.addr = false) → ∃ t, exec (.fence f) s = .next t ∧ Moved s t c c.f.next)
    ∧ (f.func.toNat % 8 = 4 → c.l.host = true → s.reducing c.uid = true → ∃ t, exec (.fence f) s = .next t ∧ Moved s t c { c.f with stall := 6 })
    ∧ (f.func.toNat % 8 = 4 → c.l.host = true → s.reducing c.uid = false → ∃ t, exec (.fence f) s = .next t ∧ GroupNow s t c c.g c.f.next
      ∧ t.updates = (s.updates.filter fun u => !(decide (u.group = c.uid) && isHost u.addr))
      ∧ ({ t with groups := s.groups, mem := s.mem, versions := s.versions, parts := s.parts, handed := s.handed, handOrder := s.handOrder, updates := s.updates } : State) = s)
    ∧ (f.func.toNat % 8 = 4 → c.l.host = false → ∃ t, exec (.fence f) s = .next t ∧ Moved (s.clamp c 4) t c c.f.next
      ∧ ((s.parts.get c.l.part).isSome = true → ((t.part c.l.part).vd c.l.hdr.vdev).clamp = min (((s.part c.l.part).vd c.l.hdr.vdev).clamp + 1) (2 ^ 32 - 1))))

/-! ## Memory (chapters 9 and 10) -/

/-- 10 R249, R251 and R252: a load's value is fixed as it issues and is what the group reads at each lane's address; the operation flies in the class load with the writes of its destination, and with the POISON of the first poisoned line. No byte of memory or of a core store changes: of the machine, only the group, the translations cached and the lines in the L2. A load through a peer's aperture also flies, and is logged. 10 R249, R252 and 17 R369: LOAD_COMPLETE writes the destination of a load or a value-returning atomic and counts it done; one that met a poisoned line writes nothing, and its POISON waits for the fragment that holds the lowest lane left. That the value is read at issue and written at LOAD_COMPLETE is the model's choice (log 11 and 15). -/
def Obligations.LoadsComplete : Prop :=
  (∀ (stream : Bool) (f : FormE) (s : State) (c : Ctx) (as : List LaneAcc),
    let i : Instr := if stream then .ldu f else .ld f
    let n := sizeRegs f.size
    let size := sizeBytes f.size
    Clear s c f.g [(n, f.data)] (baseUsed f ++ offUsed f.off) false → c.g.full 0 = false → s.bounce = [] →
    let r := s.lanes c size .load (fun _ => true) (c.addrs f (dispE f) (c.eff f.g))
    r.2 = .ok as → (r.1.touchL2 c stream as).isSome = true →
    ((∀ a ∈ as, peerOf a.pa = none) → ∃ t val, exec i s = .next t
      ∧ ({ t with groups := s.groups, l2 := s.l2, tlbCore := s.tlbCore, tlbDie := s.tlbDie, usedPages := s.usedPages, uid := s.uid } : State) = s
      ∧ GroupNow s t c (c.g.raise { Flight.plain s.uid 0 c.f.pc (c.eff f.g) with blk := c.f.blk, writes := destWrites (c.eff f.g) n f.data val, vas := as.map (fun a => a.va), bad := (as.find? fun a => (s.readBytes c.reader a.pa size).2).map fun a => (.poison, BitVec.ofNat 64 (a.va / 128 * 128)) }) c.f.next
      ∧ ∀ a ∈ as, val a.lane = fromBytes (s.readBytes c.reader a.pa size).1)
    ∧ ((∃ a ∈ as, (peerOf a.pa).isSome = true) → c.repeats = false → c.g.replay = [] → (c.b.check = none ∨ s.areaFull c.l.part = false) →
      ∃ t h fl, exec i s = .next t ∧ t.mem = s.mem ∧ t.blocks = s.blocks ∧ OtherGroups s t c.uid ∧ t.groups.get c.uid = some h
        ∧ h.flights = c.g.flights ++ [fl] ∧ fl.cls = 0 ∧ fl.done = false ∧ fl.peer.isSome = true ∧ SameRegs c.g h))
  ∧ (∀ (s : State) (u op : Nat) (g : Group) (f : Flight), s.groups.get u = some g → (g.flights.find? fun x => x.id == op && !x.done) = some f →
    f.cls = 0 ∨ f.cls = 4 →
    ∃ t h, exec (.loadComplete u op) s = .next t ∧ ({ t with groups := s.groups } : State) = s ∧ OtherGroups s t u
      ∧ t.groups.get u = some h ∧ h.frags = g.frags
      ∧ (f.bad = none → SameRegs (g.writes f.writes) h ∧ h.late = g.late)
      ∧ (∀ code info, f.bad = some (code, info) → SameRegs g h ∧ (f.mask &&& g.liveLanes ≠ 0 → g.saved = [] →
          h.late = g.late ++ [{ mask := f.mask, code := code, pc := f.pc, blk := f.blk, info := info }]))
      ∧ ∀ x ∈ h.flights, x.id = op → x.done = true)

/-- 10 R251, 09 R227 and R228: a store puts every lane's bytes into the group's store buffer in ascending lane order, so that the group itself reads the last one's, and every byte outside them, and every byte that another party reads, is as before. A store through a peer's aperture is noted until its line has reached the peer (17 R373). Memory, versions and everything else stay, but for the signature of a checked block, the L2 and the translations. That a store leaves its class in the step of its issue is the model's choice (log 15). -/
def Obligations.StoresComplete : Prop :=
  ∀ (stream : Bool) (f : FormE) (s u v : State) (c : Ctx) (as : List LaneAcc),
    let i : Instr := if stream then .stu f else .st f
    let n := sizeRegs f.size
    let size := sizeBytes f.size
    let x := s.lanes c size .store (fun _ => true) (c.addrs f (dispE f) (c.eff f.g))
    Clear s c f.g [] ((n, f.data) :: baseUsed f ++ offUsed f.off) false → c.g.full 1 = false → s.bounce = [] → x.2 = .ok as →
    as.foldlM (fun t a => t.bufferStore c a.pa (toBytes size (c.g.wide n f.data a.lane)) (t.shareOf c.l.part a.pa a.region)) x.1 = some u →
    u.touchL2 c stream as = some v →
    ∃ t id, exec i s = .next t
      ∧ ({ t with groups := s.groups, buffer := s.buffer, handOrder := s.handOrder, checks := s.checks, l2 := s.l2, tlbCore := s.tlbCore, tlbDie := s.tlbDie, usedPages := s.usedPages, peerStores := s.peerStores, uid := s.uid } : State) = s
      ∧ GroupNow s t c (c.g.pass id 1 c.f.pc) c.f.next
      ∧ ((∀ a ∈ as, peerOf a.pa = none) → id = s.uid ∧ t.peerStores = s.peerStores)
      ∧ (∀ a ∈ as, (peerOf a.pa).isSome = true → ∃ x, (c.uid, a.pa / 128, x) ∈ t.peerStores ∧ x.pc = c.f.pc
          ∧ x.peer = (as.find? fun b => (peerOf b.pa).isSome && b.pa / 128 == a.pa / 128).map fun b => b.va)
      ∧ (∀ pa, (t.readBytes c.reader pa 1).1 =
          match (as.filter fun a => decide (a.pa ≤ pa ∧ pa < a.pa + size ∧ pa / 128 = a.pa / 128)).getLast? with
          | some a => [(toBytes size (c.g.wide n f.data a.lane)).getD (pa - a.pa) 0]
          | none => (s.readBytes c.reader pa 1).1)
      ∧ ∀ rd pa k, rd.party ≠ .group c.uid → t.readBytes rd pa k = s.readBytes rd pa k

/-- 10 R256 to R260 and 09 R234: window loads and stores, full/empty loads and stores and the bits themselves, where the window's lines are there: what each reads of the block's store and what it leaves there. Another block's store, memory, and every byte outside those stored to, are unchanged. That the access is performed at issue is the model's choice (log 11 and 15). -/
def Obligations.WindowAccessesComplete : Prop :=
  ∀ (f : FormG) (s : State) (c : Ctx) (w : Window), c.b.windows.get f.handle.toNat = some w →
    (w.mapped = true → ∀ l, 128 * l < w.len → s.lineFilled c.g.block f.handle.toNat w l = true) →
    let n := sizeRegs (winSize f)
    let size := sizeBytes (winSize f)
    let d4 : Int := signed 12 (f.func.toNat / 16)
    let offs4 := (accessLanes f.x (c.eff f.g)).map fun j => (j, c.g.winOff f d4 4 j)
    (∀ ls, Clear s c f.g [(n, f.x)] (offUsed f.y) false → c.g.full 0 = false → windowLanes w size (c.winOffs f (c.eff f.g) size) = .ok ls →
      (∀ l ∈ ls, c.b.poisonIn (w.off + l.2) size = none) →
      ∃ t val, exec (.ldw f) s = .next t ∧ ({ t with groups := s.groups, uid := s.uid } : State) = s
        ∧ GroupNow s t c (c.g.raise { Flight.plain s.uid 0 c.f.pc (c.eff f.g) with blk := c.f.blk, writes := destWrites (c.eff f.g) n f.x val }) c.f.next
        ∧ ∀ l ∈ ls, val l.1 = fromBytes (c.b.bytes (w.off + l.2) size))
    ∧ (∀ ls, Clear s c f.g [] ((n, f.x) :: offUsed f.y) false → c.g.full 1 = false → windowLanes w size (c.winOffs f (c.eff f.g) size) = .ok ls →
      ∃ t b, exec (.stw f) s = .next t ∧ ({ t with groups := s.groups, blocks := s.blocks, uid := s.uid } : State) = s
        ∧ GroupNow s t c (c.g.pass s.uid 1 c.f.pc) c.f.next ∧ OneBlock s t c.g.block b ∧ ({ b with store := c.b.store, windows := c.b.windows } : Block) = c.b
        ∧ (∀ o, b.byte o = match (ls.filter fun l => decide (w.off + l.2 ≤ o ∧ o < w.off + l.2 + size)).getLast? with
            | some l => (toBytes size (c.g.wide n f.x l.1)).getD (o - (w.off + l.2)) 0
            | none => c.b.byte o)
        ∧ ∀ k, (b.word k).full = ((c.b.word k).full || (w.mode == 1 && ls.any fun l => decide ((w.off + l.2) / 4 ≤ k ∧ 4 * k < w.off + l.2 + size))))
    ∧ (∀ ls, Clear s c f.g [(1, f.x)] (offUsed f.y) false → windowLanes w 4 offs4 = .ok ls →
      (∀ l ∈ ls, (c.b.word ((w.off + l.2) / 4)).full = true ∧ (c.b.word ((w.off + l.2) / 4)).poison = false) →
      ∃ t b h val, exec (.ldf f) s = .next t ∧ ({ t with groups := s.groups, blocks := s.blocks } : State) = s ∧ OtherGroups s t c.uid
        ∧ t.groups.get c.uid = some h ∧ h.frame = c.g.frame ∧ OneFrag c.g h c.fid c.f.next ∧ WroteReg c.g h (c.eff f.g) 1 f.x val
        ∧ OneBlock s t c.g.block b ∧ ({ b with store := c.b.store } : Block) = c.b
        ∧ (∀ l ∈ ls, val l.1 = (c.b.word ((w.off + l.2) / 4)).val.toNat)
        ∧ ∀ k, b.word k = if bitAt f.func.toNat 3 ∧ ∃ l ∈ ls, (w.off + l.2) / 4 = k then { c.b.word k with full := false } else c.b.word k)
    ∧ (∀ ls, Clear s c f.g [] ((1, f.x) :: offUsed f.y) false → windowLanes w 4 offs4 = .ok ls →
      (∀ l ∈ ls, (c.b.word ((w.off + l.2) / 4)).full = false ∨ (c.b.word ((w.off + l.2) / 4)).poison = true) →
      ∃ t b, exec (.ste f) s = .next t ∧ ({ t with groups := s.groups, blocks := s.blocks } : State) = s ∧ GroupNow s t c c.g c.f.next
        ∧ OneBlock s t c.g.block b ∧ ({ b with store := c.b.store, windows := c.b.windows } : Block) = c.b
        ∧ ∀ k, b.word k = match (ls.filter fun l => decide ((w.off + l.2) / 4 = k)).getLast? with
            | some l => { val := toWord (c.g.lane f.x l.1), full := true, poison := false }
            | none => c.b.word k)
    ∧ (Clear s c f.g [] [(1, f.x), (1, f.y)] false →
      let off := (c.g.sreg (opndIdx f.x)).toNat
      let len := (c.g.sreg (opndIdx f.y)).toNat
      windowRange w 4 off len = .ok () →
      ∃ t b, exec (.fefill f) s = .next t ∧ ({ t with groups := s.groups, blocks := s.blocks } : State) = s ∧ GroupNow s t c c.g c.f.next
        ∧ OneBlock s t c.g.block b ∧ ({ b with store := c.b.store } : Block) = c.b
        ∧ ∀ k, b.word k = if (w.off + off) / 4 ≤ k ∧ k < (w.off + off) / 4 + len / 4 then { c.b.word k with full := f.func.getLsbD 0 } else c.b.word k)
    ∧ (Clear s c f.g [(1, f.x)] [(1, f.y)] false →
      let off := (c.g.sreg (opndIdx f.y)).toNat
      off % 128 = 0 → off + 128 ≤ w.len →
      ∃ t h, exec (.feget f) s = .next t ∧ OnlyGroup s t c.uid ∧ t.groups.get c.uid = some h ∧ h.frame = c.g.frame
        ∧ OneFrag c.g h c.fid c.f.next ∧ WroteSca c.g h 1 (opndIdx f.x) (h.sreg (opndIdx f.x)).toNat
        ∧ ∀ k, k < 32 → (h.sreg (opndIdx f.x)).getLsbD k = (c.b.word ((w.off + off) / 4 + k)).full)

/-- 10 R256, R258: setw replaces a window's record and makes the dirty lines of the old one pending; fillw reads the lines of a mapped window and counts as a load, and does nothing on an unmapped one but count; flushw makes the dirty lines of its range pending and counts as a store. 10 R258, 09 R234: a line of a mapped window is filled as a load of the touching group reads it, with what its block has written back, where no write-back of the line is pending; every other byte of the store is unchanged. That flushw and an unmapped fillw leave their class at issue is the model's choice (log 15). -/
def Obligations.WindowManagementComplete : Prop :=
  ((∀ (f : FormG) (s : State) (c : Ctx) (rec : Option Window), Clear s c f.g [] [(8, f.x)] false →
    setwCheck c.f.pc c.l.hdr.store (c.g.scalars (opndIdx f.x) 8) = .ok rec →
    ∃ t b, exec (.setw f) s = .next t ∧ ({ t with groups := s.groups, blocks := s.blocks, uid := s.uid } : State) = s ∧ GroupNow s t c c.g c.f.next
      ∧ OneBlock s t c.g.block b ∧ ({ b with windows := c.b.windows, pending := c.b.pending } : Block) = c.b
      ∧ (c.b.windows.wf = true → b.windows.get f.handle.toNat = rec) ∧ (∀ k, k ≠ f.handle.toNat → b.windows.get k = c.b.windows.get k)
      ∧ b.pending.length = c.b.pending.length + (match c.b.windows.get f.handle.toNat with | some w => w.dirty.length | none => 0))
  ∧ (∀ (f : FormG) (s : State) (c : Ctx) (w : Window), Clear s c f.g [] [(1, f.x), (1, f.y)] false → c.b.windows.get f.handle.toNat = some w →
    let off := (c.g.sreg (opndIdx f.x)).toNat
    let len := (c.g.sreg (opndIdx f.y)).toNat
    windowRange w 128 off len = .ok () →
    (c.g.full 0 = false → w.mapped = false →
      ∃ t, exec (.fillw f) s = .next t ∧ ({ t with groups := s.groups, uid := s.uid } : State) = s ∧ GroupNow s t c (c.g.pass s.uid 0 c.f.pc) c.f.next)
    ∧ (c.g.full 0 = false → w.mapped = true → (∀ l, off / 128 ≤ l → l < off / 128 + len / 128 → l ∈ w.filled) →
      ∃ t, exec (.fillw f) s = .next t ∧ ({ t with groups := s.groups, uid := s.uid } : State) = s
        ∧ GroupNow s t c (c.g.raise { Flight.plain s.uid 0 c.f.pc (c.eff f.g) with blk := c.f.blk }) c.f.next)
    ∧ (c.g.full 1 = false →
      ∃ t b, exec (.flushw f) s = .next t ∧ ({ t with groups := s.groups, blocks := s.blocks, uid := s.uid } : State) = s
        ∧ GroupNow s t c (c.g.pass s.uid 1 c.f.pc) c.f.next
        ∧ OneBlock s t c.g.block b ∧ ({ b with windows := c.b.windows, pending := c.b.pending } : Block) = c.b
        ∧ b.pending.map (·.va) = c.b.pending.map (·.va) ++
            (w.dirty.filter fun l => len == 0 || (decide (off / 128 ≤ l) && decide (l < (off + len) / 128))).map fun l => (w.base + 128 * l) % 2 ^ 80)))
  ∧ (∀ (s : State) (c : Ctx) (n : Nat) (w : Window) (line lane pa : Nat) (r : Region), s.ctx = some c → c.repeats = false → s.bounce = [] →
    (c.b.check = none ∨ s.areaFull c.l.part = false) →
    let va := (w.base + 128 * line) % 2 ^ 80
    let rd : Reader := { c.reader with also := [(.block c.g.block, none)] }
    (s.translate c.l.part c.l.hdr.vdev c.g.core va .load).2 = .ok pa r → peerOf pa = none → (s.view rd (pa / 128)).2 = false →
    ((s.translate c.l.part c.l.hdr.vdev c.g.core va .load).1.touchL2 c false [{ lane := lane, va := va, pa := pa, region := r }]).isSome = true →
    (∀ p ∈ c.b.pending, p.va ≠ va) → w.off % 4 = 0 →
    ∃ t b, s.fillLine c n w line lane = (t, .ok none) ∧ t.mem = s.mem ∧ OneBlock s t c.g.block b
      ∧ (∀ o, b.byte o = if w.off + 128 * line ≤ o ∧ o < w.off + 128 * line + 128 then byteOf (s.view rd (pa / 128)).1 (o - (w.off + 128 * line)) else c.b.byte o)
      ∧ ∀ k, (b.word k).full = (c.b.word k).full)

/-- 09 R229 and 10 R254: a publish hands every buffered line of the group to its partition's open round, which it opens where none is, and waits for that round; memory is unchanged until the round closes. 10 R254, 09 R231, 08 R219: with nothing left to publish pub goes on; snap and phase raise the group's snapshot number to its partition's round; rmark, once every class is zero, makes the group's restart point where its fragment holds every live lane outside a handler. -/
def Obligations.PublishesComplete : Prop :=
  (∀ (f : FormG) (s : State) (c : Ctx), Clear s c f.g [] [] false → c.f.pend = .none → c.g.counter 1 = 0 → c.repeats = false →
    c.b.check = none → c.b.set = none → c.b.pending = [] → c.b.pubPoison = none → (∃ b ∈ s.buffer, b.group = c.uid) → (s.parts.get c.l.part).isSome = true →
    ∃ t, exec (.pub f) s = .next t ∧ t.mem = s.mem ∧ t.versions = s.versions ∧ (t.part c.l.part).roundOpen = true
      ∧ (∀ b, b ∈ t.buffer ↔ b ∈ s.buffer ∧ b.group ≠ c.uid)
      ∧ (∀ b ∈ s.buffer, b.group = c.uid → ∃ h ∈ t.handed, h.part = c.l.part ∧ h.round = (s.part c.l.part).round + 1
          ∧ h.group = c.uid ∧ h.line = b.line ∧ h.mask = b.mask ∧ h.data = b.data)
      ∧ GroupNow s t c c.g { c.f with pend := .round ((s.part c.l.part).round + 1), stall := 6 })
  ∧ (∀ (f : FormG) (s : State) (c : Ctx), Clear s c f.g [] [] false → c.b.check = none →
    let snapped := fun (g : Group) => { g with snap := max g.snap (s.part c.l.part).round, log := g.log ++ [{ kind := .snap, op := 0, data := [(s.part c.l.part).round], digest := 0 }] }
    (s.publish c = .done s → ∃ t, exec (.pub f) s = .next t ∧ Moved s t c c.f.next)
    ∧ (c.repeats = false → c.g.replay = [] →
      ∃ t, exec (.snap f) s = .next t ∧ ({ t with groups := s.groups, ownPuts := s.ownPuts } : State) = s ∧ GroupNow s t c (snapped c.g) c.f.next)
    ∧ (s.publish c = .done s → c.repeats = false → c.g.replay = [] →
      ∃ t, exec (.phase f) s = .next t ∧ ({ t with groups := s.groups, ownPuts := s.ownPuts } : State) = s ∧ GroupNow s t c (snapped c.g) c.f.next)
    ∧ (s.publish c = .done s → c.g.idle = true → c.rmarkSaves = false → ∃ t, exec (.rmark f) s = .next t ∧ Moved s t c c.f.next)
    ∧ (s.publish c = .done s → c.g.idle = true → c.f.mask = c.g.liveLanes → c.f.handler = .none →
      ∃ t h, exec (.rmark f) s = .next t ∧ OnlyGroup s t c.uid ∧ t.groups.get c.uid = some h ∧ SameRegs c.g h ∧ h.marks = c.g.marks + 1
        ∧ ∃ e, h.restart = some e ∧ e.pc = nextWord c.f.pc ∧ e.ks = c.g.scalars 0 32 ∧ e.rnd = c.f.rnd ∧ e.mask = c.f.mask ∧ e.windows = c.b.windows))

/-- 10 R250 and R280: waitc and waitr go on once no counter that they name is above its limit, unless a delivered fault that they cover is pending; until then they stay and report counter wait. -/
def Obligations.WaitsComplete : Prop :=
  (∀ (f : FormD) (s : State) (c : Ctx), Clear s c f.g [] [] false →
    ((∀ k, k < 5 → c.g.counter k ≤ f.imm.toNat / 2 ^ (6 * k) % 64) → c.g.delivered = [] → ∃ t, exec (.waitc f) s = .next t ∧ Moved s t c c.f.next)
    ∧ ((∃ k, k < 5 ∧ f.imm.toNat / 2 ^ (6 * k) % 64 < c.g.counter k) → ∃ t, exec (.waitc f) s = .next t ∧ Moved s t c { c.f with stall := 5 }))
  ∧ ∀ (f : FormG) (s : State) (c : Ctx), Clear s c f.g [] [(1, f.x)] false → f.func.toNat % 8 < 5 →
    (c.g.counter (f.func.toNat % 8) ≤ (c.g.sreg (opndIdx f.x)).toNat → c.g.delivered = [] → ∃ t, exec (.waitr f) s = .next t ∧ Moved s t c c.f.next)
    ∧ ((c.g.sreg (opndIdx f.x)).toNat < c.g.counter (f.func.toNat % 8) → ∃ t, exec (.waitr f) s = .next t ∧ Moved s t c { c.f with stall := 5 })

/-! ## Atomics, barriers and queues (chapter 10) -/

/-- 10 R261 and 09 R236: an atomic that returns a value changes memory lane by lane in ascending order, each lane's old value being what the lanes before it left, and flies in the class atomic with the old values as its destination's writes; every byte outside the words it names is unchanged, and so are the registers until it completes. 09 R237, R239 and 10 R261: a reduction in memory changes no byte of memory as it issues: each lane's operand enters the group's update-only copy of its element, to be combined when the round closes; it counts in the class atomic at once. One on a peer's memory, or of scope `.sys` on the host's, is made there at once, lane by lane; and one that goes to a peer is in flight until its answer (17 R373). That an atomic is performed at issue is the model's choice (log 11 and 15). -/
def Obligations.AtomicsComplete : Prop :=
  (∀ (i : Instr) (cls : Nat) (f : FormE) (s : State) (c : Ctx) (as : List LaneAcc),
    ((i = .atom f ∧ cls = 0) ∨ (i = .cas f ∧ cls = 1) ∨ (i = .atomf f ∧ cls = 3) ∨ (i = .atomw f ∧ cls = 4)) →
    let size := sizeBytes f.size
    let nin := (atomRegs cls (aopE f) f.size).1
    let chain := atomChain cls (aopE f) size (fun j => c.g.wide nin f.data j) s.mem
    Clear s c f.g [] ((nin, f.data) :: baseUsed f ++ offUsed f.off) false → c.g.full 4 = false → s.bounce = [] → c.repeats = false → c.g.replay = [] →
    let r := s.lanes c size .atomic (atomTypeOk cls) (c.addrs f (dispA f) (c.eff f.g))
    r.2 = .ok as → (∀ a ∈ as, a.pa / 128 ∉ s.poison) → ((r.1.clamp c (scopeCode f.scope)).touchL2 c false as).isSome = true →
    (c.b.check = none ∨ s.areaFull c.l.part = false) →
    ∃ t h fl old, exec i s = .next t ∧ OtherGroups s t c.uid ∧ t.groups.get c.uid = some h ∧ SameRegs c.g h ∧ OneFrag c.g h c.fid c.f.next
      ∧ t.blocks = s.blocks ∧ t.buffer = s.buffer ∧ t.updates = s.updates ∧ t.poison = s.poison
      ∧ h.flights = c.g.flights ++ [fl] ∧ fl.cls = 4 ∧ fl.done = false ∧ fl.bad = none
      ∧ fl.writes = destWrites (c.eff f.g) (atomRegs cls (aopE f) f.size).2 f.data old
      ∧ t.mem = chain as ∧ (∀ pre a post, as = pre ++ a :: post → old a.lane = fromBytes (Memory.readN (chain pre) a.pa size))
      ∧ ∀ p, (∀ a ∈ as, p < a.pa ∨ a.pa + size ≤ p) → Memory.read t.mem p = Memory.read s.mem p)
  ∧ (∀ (i : Instr) (cls : Nat) (f : FormE) (s : State) (c : Ctx) (as : List LaneAcc), ((i = .red f ∧ cls = 0) ∨ (i = .redf f ∧ cls = 3)) →
    let size := sizeBytes f.size
    let n := sizeRegs f.size
    Clear s c f.g [] ((n, f.data) :: baseUsed f ++ offUsed f.off) false → c.g.full 4 = false → s.bounce = [] → c.b.check = none →
    let r := s.lanes c size .atomic (atomTypeOk cls) (c.addrs f (dispA f) (c.eff f.g))
    let now := decide (scopeCode f.scope = 4) && c.l.host
    let direct := fun (a : LaneAcc) => (peerOf a.pa).isSome || (now && isHost a.pa)
    let arg := fun (j : Nat) => c.g.wide n f.data j
    r.2 = .ok as →
    ((∀ a ∈ as, direct a = false) →
      (as.foldlM (fun (t : State) a => t.contribute c now cls (aopE f) size (arg a.lane) a) (r.1.clamp c (scopeCode f.scope))).isSome = true →
      ∃ t, exec i s = .next t
        ∧ ({ t with groups := s.groups, parts := s.parts, updates := s.updates, l2 := s.l2, tlbCore := s.tlbCore, tlbDie := s.tlbDie, usedPages := s.usedPages, uid := s.uid } : State) = s
        ∧ GroupNow s t c (c.g.pass s.uid 4 c.f.pc) c.f.next
        ∧ (∀ u, u.group ≠ c.uid → (u ∈ t.updates ↔ u ∈ s.updates))
        ∧ ∀ a ∈ as, ∃ u ∈ t.updates, u.group = c.uid ∧ u.addr = a.pa ∧ u.aop = aopE f ∧ u.bytes = size ∧ u.float = (cls == 3)
            ∧ arg a.lane ∈ u.vals)
    ∧ ((∀ a ∈ as, direct a = true) →
      ∃ t, exec i s = .next t
        ∧ GroupNow s t c (match as.find? fun a => (peerOf a.pa).isSome with
            | none => c.g.pass s.uid 4 c.f.pc
            | some a => c.g.raise { Flight.plain s.uid 4 c.f.pc (c.eff f.g) with blk := c.f.blk, peer := some a.va, vas := as.map fun a => a.va }) c.f.next
        ∧ t.updates = s.updates ∧ t.blocks = s.blocks ∧ t.buffer = s.buffer
        ∧ t.mem = atomChain cls (aopE f) size arg s.mem as))

/-- 10 R261 to R263: the same on the words of a window, performed at once in the block's store; with a value returned it flies until it completes, and without one it counts at once. Memory is unchanged. That an atomic is performed at issue is the model's choice (log 11 and 15). -/
def Obligations.WindowAtomicsComplete : Prop :=
  ∀ (i : Instr) (cls : Nat) (returns : Bool) (f : FormG) (s : State) (c : Ctx) (w : Window) (ls : List (Nat × Nat)),
    ((i = .atomWindow f ∧ cls = 0 ∧ returns = true) ∨ (i = .casWindow f ∧ cls = 1 ∧ returns = true) ∨ (i = .atomfWindow f ∧ cls = 3 ∧ returns = true)
      ∨ (i = .redWindow f ∧ cls = 0 ∧ returns = false) ∨ (i = .redfWindow f ∧ cls = 3 ∧ returns = false)) →
    let size := sizeBytes (winSize f)
    let nin := (atomRegs cls (aopG f) (winSize f)).1
    let chain := storeChain cls (aopG f) size (fun j => c.g.wide nin f.x j) w.off c.b
    Clear s c f.g [] ((nin, f.x) :: offUsed f.y) false → c.g.full 4 = false → c.repeats = false → c.b.check = none →
    c.b.windows.get f.handle.toNat = some w → (w.mapped = true → ∀ l, 128 * l < w.len → s.lineFilled c.g.block f.handle.toNat w l = true) →
    windowLanes w size ((accessLanes f.x (c.eff f.g)).map fun j => (j, c.g.winOff f (dispG f) size j)) = .ok ls →
    (cls = 3 → ∀ l ∈ ls, c.shareCore (w.off + l.2) = c.g.core) → (∀ l ∈ ls, c.b.poisonIn (w.off + l.2) size = none) →
    ∃ t b h old, exec i s = .next t ∧ ({ t with groups := s.groups, blocks := s.blocks, uid := s.uid } : State) = s
      ∧ OtherGroups s t c.uid ∧ t.groups.get c.uid = some h ∧ SameRegs c.g h ∧ OneFrag c.g h c.fid c.f.next
      ∧ OneBlock s t c.g.block b ∧ ({ b with store := c.b.store, windows := c.b.windows, atoms := c.b.atoms } : Block) = c.b
      ∧ (if returns then ∃ fl, h.flights = c.g.flights ++ [fl] ∧ fl.cls = 4 ∧ fl.done = false ∧ fl.bad = none
            ∧ fl.writes = destWrites (c.eff f.g) (atomRegs cls (aopG f) (winSize f)).2 f.x old
         else h.flights = (c.g.pass s.uid 4 c.f.pc).flights)
      ∧ b.store = (chain ls).store ∧ (∀ pre l post, ls = pre ++ l :: post → old l.1 = fromBytes ((chain pre).bytes (w.off + l.2) size))
      ∧ ∀ o, (∀ l ∈ ls, o < w.off + l.2 ∨ w.off + l.2 + size ≤ o) → b.byte o = c.b.byte o

/-- 10 R264 to R266: a phase completes when both counts have reached their expectations and not before, a count beyond its expectation poisons the barrier, and a barrier that is poisoned or not initialised completes no phase. 10 R264 to R266: barinit, bararr, bartok and barwait on a barrier of the block: what the barrier is afterwards, and the status that barwait writes: 0 where the phase waited for has completed, 1 or 3 where it had before, 4 where the barrier is poisoned; a token that is the current phase waits, and one ahead of it raises PHASE_AHEAD. -/
def Obligations.BarriersComplete : Prop :=
  (∀ x : Barrier, x.poisoned = false →
    (x.init = true → x.cb = x.eb → x.ca = x.ea → x.test = { x with p := x.p + 1, cb := 0, ca := 0 })
    ∧ (x.init = true → x.eb < x.cb ∨ x.ea < x.ca → x.test = { x with poisoned := true })
    ∧ (x.init = true → x.cb ≤ x.eb → x.ca ≤ x.ea → (x.cb ≠ x.eb ∨ x.ca ≠ x.ea) → x.test = x)
    ∧ (x.init = false → x.test = x)
    ∧ (∀ n m, ({ x with poisoned := true } : Barrier).credit n m = { x with poisoned := true })
    ∧ ∀ n m, x.credit n m = ({ x with cb := x.cb + n, ca := x.ca + m } : Barrier).test)
  ∧ (∀ (f : FormG) (s : State) (c : Ctx), badBar f.handle c = false →
    let n := f.handle.toNat
    let x := c.b.bar n
    let rest := fun (t : State) (b : Block) => ({ t with groups := s.groups, blocks := s.blocks, uid := s.uid } : State) = s
      ∧ OneBlock s t c.g.block b ∧ ({ b with bars := c.b.bars } : Block) = c.b ∧ ∀ k, k ≠ n → b.bar k = c.b.bar k
    let status := fun (v : Word) => ∃ t, exec (.barwait f) s = .next t ∧ WroteFrom s t c c.f 0 1 f.x fun _ => v.toNat
    (Clear s c f.g [] [(1, f.x), (1, f.y)] false →
      let eb := (c.g.sreg (opndIdx f.x)).toNat
      let ea := (c.g.sreg (opndIdx f.y)).toNat
      let y := ({ x with eb := eb, ea := ea, cb := if x.init then 0 else x.cb, ca := if x.init then 0 else x.ca, init := true, poisoned := false } : Barrier).test
      eb ≠ 0 ∨ ea ≠ 0 → ∃ t b, exec (.barinit f) s = .next t ∧ rest t b ∧ b.bar n = y
        ∧ GroupNow s t c (if y.poisoned then { c.g with delivered := c.g.delivered ++ [overrun s.uid arrivalClass 0 n c.f.pc c.f.blk] } else c.g) c.f.next)
    ∧ (Clear s c f.g [] (if f.func.getLsbD 0 then [(1, f.x)] else []) false →
      let y := x.credit (if f.func.getLsbD 0 then (c.g.sreg (opndIdx f.x)).toNat else 0) 1
      ∃ t b, exec (.bararr f) s = .next t ∧ rest t b ∧ b.bar n = y
        ∧ GroupNow s t c (if overran x y then { c.g with delivered := c.g.delivered ++ [overrun s.uid arrivalClass 0 n c.f.pc c.f.blk] } else c.g) c.f.next)
    ∧ (Clear s c f.g [(1, f.x)] [] false → opndScalar f.x = true →
      ∃ t, exec (.bartok f) s = .next t ∧ WroteFrom s t c c.f 0 1 f.x fun _ => x.p.toNat)
    ∧ (Clear s c f.g [(1, f.x)] [(1, f.y)] false → opndScalar f.x = true → (∀ d ∈ c.g.delivered, d.bar ≠ some n) →
      let d := signed 32 (x.p - c.g.sreg (opndIdx f.y)).toNat
      (x.poisoned = true → status 4)
      ∧ (x.poisoned = false → c.f.pend = .none → 0 < d → status (if 2 ≤ d then 3 else 1))
      ∧ (x.poisoned = false → ∀ k, c.f.pend = .bar k → x.p.toNat ≠ k → status 0)
      ∧ (x.poisoned = false → c.f.pend = .none → d = 0 →
          ∃ t, exec (.barwait f) s = .next t ∧ Moved s t c { c.f with pend := .bar (c.g.sreg (opndIdx f.y)).toNat, stall := 6 })
      ∧ (x.poisoned = false → c.f.pend = .none → d < 0 →
          exec (.barwait f) s = .next (s.takeTrap c (faultAt .phaseAhead c.f.pc (c.g.sreg (opndIdx f.y)).toNat)))))

/-- 08 R220 and R221: deq takes the head item of a work queue into its pair and snaps, a `.try` on an empty queue writes its status and takes nothing; enq, once its publish is done, puts its pair at the tail where there is room. -/
def Obligations.WorkQueuesComplete : Prop :=
  ∀ (f : FormG) (s : State) (c : Ctx) (n : Nat) (w : WorkQueue), unboundQ f.handle c = false → c.repeats = false → c.g.replay = [] →
    s.workQueue c f.handle.toNat = some (n, w) → (c.b.check = none ∨ s.areaFull c.l.part = false) →
    (∀ item rest, opndScalar f.x = true → Clear s c f.g [(2, f.x)] [] false → f.func = 0 → w.items = item :: rest → w.waiters = [] → (∀ k, c.f.pend ≠ .deq k) →
      ∃ t h, exec (.deq f) s = .next t ∧ ({ t with groups := s.groups, parts := s.parts, ownPuts := s.ownPuts } : State) = s ∧ OtherGroups s t c.uid
        ∧ t.groups.get c.uid = some h ∧ WroteSca c.g h 2 (opndIdx f.x) item.toNat ∧ OneFrag c.g h c.fid c.f.next
        ∧ h.snap = max c.g.snap (s.part c.l.part).round ∧ (t.part c.l.part).queues.get n = some { w with items := rest, waiters := [] })
    ∧ (Clear s c f.g [(2, f.x), (1, f.y)] [] false → f.func = 1 → w.items = [] → opndScalar f.y = true → (∀ k, c.f.pend ≠ .deq k) → s.uid ∉ w.waiters →
      ∃ t h, exec (.deq f) s = .next t ∧ ({ t with groups := s.groups } : State) = s ∧ OtherGroups s t c.uid
        ∧ t.groups.get c.uid = some h ∧ WroteSca c.g h 1 (opndIdx f.y) 1 ∧ OneFrag c.g h c.fid c.f.next)
    ∧ (Clear s c f.g [] [(2, f.y)] false → f.func = 0 → c.f.pend = .none →
      s.publish c (fun m => .handed m [c.g.pair (opndIdx f.y)]) = .done s → w.items.length < w.cap →
      ∃ t h, exec (.enq f) s = .next t ∧ ({ t with groups := s.groups, parts := s.parts } : State) = s ∧ OtherGroups s t c.uid
        ∧ t.groups.get c.uid = some h ∧ SameRegs c.g h ∧ OneFrag c.g h c.fid c.f.next
        ∧ (t.part c.l.part).queues.get n = some { w with items := w.items ++ [BitVec.ofNat 64 (c.g.pair (opndIdx f.y))] })

/-- 10 R268 and 06 R161: qpush and qpop move words between a tile set's groups and its sequencer in order, qpop of the result queue writes the oldest chunk in the lanes of the effective mask, and qstat writes how much waits and how much room there is. The lanes that qpop of the result queue writes are the model's reading (log 19). -/
def Obligations.EnginePortsComplete : Prop :=
  ∀ (f : FormG) (s : State) (c : Ctx) (k : Nat) (ts : TileSet), unboundQ f.handle c = false → s.setOf c = some (k, ts) →
    let q := f.handle.toNat
    let rest := fun (t : State) (u : TileSet) => ({ t with groups := s.groups, sets := s.sets } : State) = s ∧ t.sets.get k = some u ∧ ∀ j, j ≠ k → t.sets.get j = s.sets.get j
    let got := fun (t : State) (w : Word) => ∃ h, OtherGroups s t c.uid ∧ t.groups.get c.uid = some h ∧ h.frame = c.g.frame ∧ OneFrag c.g h c.fid c.f.next
      ∧ WroteSca c.g h 1 (opndIdx f.x) w.toNat
    (Clear s c f.g [] [(1, f.y)] false →
      (c.port q = some 4 → c.g.seq = false → ts.toSeq.length < 256 →
        ∃ t, exec (.qpush f) s = .next t ∧ rest t { ts with toSeq := ts.toSeq ++ [c.g.sreg (opndIdx f.y)] } ∧ GroupNow s t c c.g c.f.next)
      ∧ (c.port q = some 5 → c.g.seq = true → ts.toGrp.length < 256 →
        ∃ t, exec (.qpush f) s = .next t ∧ rest t { ts with toGrp := ts.toGrp ++ [c.g.sreg (opndIdx f.y)] } ∧ GroupNow s t c c.g c.f.next))
    ∧ (Clear s c f.g [(1, f.x)] [] false →
      (∀ w ws, c.port q = some 4 → c.g.seq = true → opndScalar f.x = true → ts.toSeq = w :: ws →
        ∃ t, exec (.qpop f) s = .next t ∧ rest t { ts with toSeq := ws } ∧ got t w)
      ∧ (∀ w ws, c.port q = some 5 → c.g.seq = false → opndScalar f.x = true → ts.toGrp = w :: ws →
        ∃ t, exec (.qpop f) s = .next t ∧ rest t { ts with toGrp := ws } ∧ got t w)
      ∧ (∀ r rs, c.port q = some 1 → opndScalar f.x = false → s.results c = r :: rs →
        ∃ t h, exec (.qpop f) s = .next t ∧ OtherGroups s t c.uid ∧ t.groups.get c.uid = some h ∧ h.frame = c.g.frame ∧ OneFrag c.g h c.fid c.f.next
          ∧ (∀ j, j < 128 → laneOf (h.vreg (opndIdx f.x)) j = if (c.eff f.g).getLsbD j then laneOf r j else laneOf (c.g.vreg (opndIdx f.x)) j)
          ∧ t.results c = rs))
    ∧ (Clear s c f.g [(1, f.x)] [] false → opndScalar f.x = true →
      (c.port q = some 1 → ∃ t, exec (.qstat f) s = .next t ∧ WroteFrom s t c c.f 0 1 f.x fun _ => (statWord (s.results c).length 32).toNat)
      ∧ (c.port q = some 2 → ∃ t, exec (.qstat f) s = .next t ∧ WroteFrom s t c c.f 0 1 f.x fun _ => (statWord (s.cards false c.g.core) 64).toNat)
      ∧ (c.port q = some 3 → ∃ t, exec (.qstat f) s = .next t ∧ WroteFrom s t c c.f 0 1 f.x fun _ => (statWord (s.cards true c.g.core) 16).toNat)
      ∧ (c.port q = some 4 → ∃ t, exec (.qstat f) s = .next t ∧ WroteFrom s t c c.f 0 1 f.x fun _ => (statWord ts.toSeq.length 256).toNat)
      ∧ (c.port q = some 5 → ∃ t, exec (.qstat f) s = .next t ∧ WroteFrom s t c c.f 0 1 f.x fun _ => (statWord ts.toGrp.length 256).toNat))

/-- 10 R269 to R271 and 09 R240: a copy or gather whose card is in order joins the jobs with its issuer's snapshot number and import mark and flies in the class copy, later than every job of lower number, which a checked primary logs and a run that repeats it takes from its log; one of length or count 0 counts at once; a card that is not in order is a fault with no effect. That a card of length 0 leaves its class at issue is the model's choice (log 15), as is the detail of a fault for a length (log 66). -/
def Obligations.CopyCardsComplete : Prop :=
  ∀ (i : Instr) (f : FormG) (n : Nat) (card : Ctx → List Word → Except Trap Job) (len : Nat) (s : State) (c : Ctx),
    ((i = .copy f ∧ n = 8 ∧ card = Ctx.copyCard ∧ len = 3) ∨ (i = .gcopy f ∧ n = 12 ∧ card = Ctx.gcopyCard ∧ len = 5)) →
    let ws := c.g.scalars (opndIdx f.x) n
    let name := [2, c.g.ordOf 2 + 1 - c.g.base.getD 2 0]
    let entered := fun (j : Job) (seen : Nat) =>
      { j with part := c.l.part, group := c.uid, block := c.g.block, snap := c.g.snap, mark := c.g.mark, flight := s.uid, pc := c.f.pc, blk := c.f.blk,
               order := s.handOrder, seen := seen }
    unboundQ f.handle c = false → Clear s c f.g [] [(n, f.x)] false → c.port f.handle.toNat = some 2 →
    (∀ t, card c ws = .error t → exec i s = .next (s.takeTrap c t))
    ∧ ∀ j, card c ws = .ok j → c.g.full 2 = false → s.cards false c.g.core < 64 →
      (ws.getD len 0 = 0 → ∃ t, exec i s = .next t ∧ ({ t with groups := s.groups, uid := s.uid } : State) = s ∧ GroupNow s t c (c.g.pass s.uid 2 c.f.pc) c.f.next)
      ∧ (ws.getD len 0 ≠ 0 → c.repeats = false → (c.b.check = none ∨ s.areaFull c.l.part = false) →
        ∃ t, exec i s = .next t ∧ ({ t with groups := s.groups, jobs := s.jobs, uid := s.uid } : State) = s
        ∧ GroupNow s t c ((if c.b.check.isNone then c.g else c.g.logs { kind := .pub, op := 3, data := name ++ [s.uid], digest := 0 }).raise
            { Flight.plain s.uid 2 c.f.pc 0 with blk := c.f.blk, peer := s.peerIn c j }) c.f.next
        ∧ t.jobs.get s.uid = some (entered j s.uid) ∧ ∀ k, k ≠ s.uid → t.jobs.get k = s.jobs.get k)
      ∧ (∀ e u, ws.getD len 0 ≠ 0 → c.repeats = true → c.b.check ≠ none → c.holdsUp s = false →
        s.takeOwn c.uid (fun e => decide (e.kind = .pub ∧ e.op = 3 ∧ e.data.take 2 = name)) = some (e, u) →
        ∃ t, exec i s = .next t ∧ t.jobs.get s.uid = some (entered j (e.data.getD 2 0)) ∧ ∀ k, k ≠ s.uid → t.jobs.get k = s.jobs.get k)

/-! ## Tile and expert instructions (chapter 6) -/

/-- 06 R146 to R159 and R169: the tile instructions that queue stand last in the set's queue with the operand values, windows, pairing and unfolding of their issue, whatever the sequencer does after; tcfg and unf change what the next ones capture. What takes an entry of the command queue is the model's reading (log 19), and the order of an instruction's checks its choice (log 66). -/
def Obligations.TileIssueComplete : Prop :=
  ∀ (f : FormG) (s : State) (c : Ctx) (i : Nat) (ts : TileSet), s.setOf c = some (i, ts) → c.g.full 3 = false → s.entries i ts < 32 →
    let k := fun (n : Nat) => (c.g.sreg n).toNat
    let w := f.func.toNat
    let p := (w % 16, w / 16 % 16, w / 256 % 4)
    let at_ := fun (t : State) (u : TileSet) => ({ t with groups := s.groups, sets := s.sets, uid := s.uid } : State) = s
      ∧ GroupNow s t c (c.g.pass s.uid 3 c.f.pc) c.f.next ∧ t.sets.get i = some u
    (Clear s c f.g [] [] false → (pairKind p).isSome = true → c.g.counter 3 = 0 →
      ∃ t, exec (.tcfg f) s = .next t ∧ at_ t { ts with pairing := some p, unfold := none })
    ∧ (∀ pr wins, Clear s c f.g [] (unfUsed f) false → opndIdx f.x + 8 ≤ 256 →
      let ws := c.g.scalars (opndIdx f.x) 8
      let u := shapeOf ws
      ts.pairing = some pr → u.ok = true → (pairQuantA pr && u.scale % 2 == 1) = false → s.engineWindows ts f.handle.toNat = some wins →
      (∀ x ∈ wins, ∀ e ∈ u.ends pr, e ≤ x.len) →
      ∃ t, exec (.unf f) s = .next t ∧ at_ t { ts with unfold := some { desc := ws, win := f.handle.toNat, windows := wins } })
    ∧ (∀ pr u, Clear s c f.g [] [(2, f.x), (1, f.y)] false → ts.pairing = some pr → ts.unfold = some u →
      ts.kinds.getD (w % 4) false = pairInt pr →
      ∃ t, exec (.mma f) s = .next t ∧ QueuedTile s t c i ts ts
        (TileCmd.mk' 0xC4 w [k (opndIdx f.x), k (opndIdx f.x + 1), k (opndIdx f.y) % 1024, k (opndIdx f.y) / 65536] u.windows (some u)))
    ∧ (Clear s c f.g [] [] false →
      ∃ t, exec (.accz f) s = .next t ∧ QueuedTile s t c i ts (ts.setKinds (bitAt w) ts.zeroKind) (TileCmd.mk' 0xC5 w [] [] none))
    ∧ (∀ wins, Clear s c f.g [] [(1, f.x)] false → k (opndIdx f.x) % 128 = 0 → s.engineWindows ts f.handle.toNat = some wins →
      (∀ x ∈ wins, k (opndIdx f.x) + 8192 ≤ x.len) →
      (∃ t, exec (.accld f) s = .next t ∧ QueuedTile s t c i ts (ts.setKinds (· == w % 4) (bitAt w 2)) (TileCmd.mk' 0xC6 w [k (opndIdx f.x), f.handle.toNat] wins none))
      ∧ ∃ t, exec (.accst f) s = .next t ∧ QueuedTile s t c i ts ts (TileCmd.mk' 0xC7 w [k (opndIdx f.x), f.handle.toNat] wins none))
    ∧ (let quant := w / 16 % 4 == 1 || w / 16 % 4 == 2
      Clear s c f.g [] ((if bitAt w 2 then [(1, f.x)] else []) ++ (if quant then [(2, f.y)] else [])) false →
      (w / 16 % 4 = 3 → ts.kinds.getD (w % 4) false = true ∧ bitAt w 2 = false ∧ bitAt w 3 = false ∧ bitAt w 6 = false) → (w / 16 % 4 = 0 → bitAt w 6 = false) →
      ∃ t, exec (.drain f) s = .next t ∧ QueuedTile s t c i ts
        (if bitAt w 7 then { ts with drains := ts.drains + 1 }.setKinds (· == w % 4) ts.zeroKind else { ts with drains := ts.drains + 1 })
        (TileCmd.mk' 0xC8 w [if bitAt w 2 then k (opndIdx f.x) % 1024 else 0, if quant then k (opndIdx f.y) else 0, if quant then k (opndIdx f.y + 1) % 256 else 0] [] none))
    ∧ (Clear s c f.g [] [(1, f.x)] false →
      ∃ t, exec (.chain f) s = .next t ∧ QueuedTile s t c i ts ts (TileCmd.mk' 0xC9 0 [k (opndIdx f.x) % 1024] [] none))

/-- 06 R154, R166, R168, 09 R240: bload and xfetch join the jobs as cards that read their locations and fill their range of the buffer, xfetch with the fallback chosen where the expert is marked, which a checked primary logs. 06 R171, R164, R165, R167, R168: tsync and tsig, once every tile instruction is done, snap the sequencer (09 R231), tsync with the fallback marks cleared, tsig with one arrival at the barrier of each block, an overrun of which is on its way to the sequencer; ecnt counts an expert for each lane, and xstat reads a counter, and zeroes it where told to. That ecnt leaves its class at issue is the model's choice (log 15). -/
def Obligations.TileLoadsAndExpertsComplete : Prop :=
  (∀ (f : FormG) (s : State) (c : Ctx) (i : Nat) (ts : TileSet), s.setOf c = some (i, ts) → c.g.full 3 = false → s.entries i ts < 32 →
    c.repeats = false → (c.b.check = none ∨ s.areaFull c.l.part = false) →
    let k := fun (n : Nat) => (c.g.sreg n).toNat
    let o := 64 * (f.func.toNat % 1024)
    let entered := fun (t : State) (g : Group) (j : Job) =>
      ({ t with groups := s.groups, jobs := s.jobs, uid := s.uid } : State) = s
      ∧ GroupNow s t c (g.raise { Flight.plain s.uid 3 c.f.pc 0 with blk := c.f.blk, peer := s.peerIn c j }) c.f.next
      ∧ t.jobs.get s.uid = some { j with part := c.l.part, group := c.uid, block := c.g.block, snap := c.g.snap, mark := c.g.mark, flight := s.uid,
                                         pc := c.f.pc, blk := c.f.blk, order := s.handOrder, seen := s.uid }
      ∧ ∀ n, n ≠ s.uid → t.jobs.get n = s.jobs.get n
    let named := if c.b.check.isNone then c.g
      else c.g.logs { kind := .pub, op := 3, data := [3, c.g.ordOf 3 + 1 - c.g.base.getD 3 0, s.uid], digest := 0 }
    (Clear s c f.g [] [(3, f.x), (1, f.y)] false →
      let va := c.g.pointer (opndIdx f.x)
      let n := k (opndIdx f.y)
      va % 64 = 0 → n % 64 = 0 → n ≤ 65536 →
      (n = 0 → ∃ t, exec (.bload f) s = .next t ∧ ({ t with groups := s.groups, uid := s.uid } : State) = s ∧ GroupNow s t c (c.g.pass s.uid 3 c.f.pc) c.f.next)
      ∧ (n ≠ 0 → ∃ t, exec (.bload f) s = .next t
          ∧ entered t named (Job.card .bload [va, n, o, i] none none none [globalRange va n] (bufferRanges i o n))))
    ∧ (Clear s c f.g [] [(2, f.x), (2, f.y)] false →
      let x := k (opndIdx f.x)
      let e := (s.part c.l.part).expert x
      let off := k (opndIdx f.x + 1)
      let n := k (opndIdx f.y)
      let first := e.primary.toNat + off
      let second := e.fallback.toNat + off
      let card := fun (aux : Nat) => { Job.card .xfetch [first, n, o, i, second, x, k (opndIdx f.y + 1)] none none none
          [globalRange first n, globalRange second n] (bufferRanges i o n) with aux := [aux] }
      x < 4096 → e.valid = true → off % 64 = 0 → n % 64 = 0 → n ≤ 65536 → off + n ≤ e.len →
      (n = 0 → ∃ t, exec (.xfetch f) s = .next t ∧ ({ t with groups := s.groups, uid := s.uid } : State) = s ∧ GroupNow s t c (c.g.pass s.uid 3 c.f.pc) c.f.next)
      ∧ (n ≠ 0 → x ∉ ts.marks → ∃ t, exec (.xfetch f) s = .next t ∧ entered t named (card 0))
      ∧ (n ≠ 0 → x ∈ ts.marks → ∃ t, exec (.xfetch f) s = .next t
          ∧ entered t (if c.b.check.isNone then named
              else named.logs { kind := .xfetch, op := 0xC3, data := [c.g.partOrd 3 (c.g.ordOf 3 + 1), 1], digest := 0 }) (card 1))))
  ∧ (∀ (f : FormG) (s : State) (c : Ctx),
    let round := (s.part c.l.part).round
    let snapped := fun (g : Group) => { g with snap := max g.snap round, log := g.log ++ [{ kind := .snap, op := 0, data := [round], digest := 0 }] }
    (∀ i ts, s.setOf c = some (i, ts) → Clear s c f.g [] [] false → c.g.counter 3 = 0 → c.g.delivered = [] → c.repeats = false → c.g.replay = [] →
      (c.b.check = none ∨ s.areaFull c.l.part = false) →
      (∃ t, exec (.tsync f) s = .next t ∧ ({ t with groups := s.groups, sets := s.sets, ownPuts := s.ownPuts } : State) = s
        ∧ t.ownPuts = (s.snapTo c.uid round).ownPuts ∧ GroupNow s t c (snapped c.g) c.f.next
        ∧ t.sets.get i = some { ts with marks := [] } ∧ ∀ j, j ≠ i → t.sets.get j = s.sets.get j)
      ∧ (badBar f.handle c = false → (∀ b ∈ ts.blocks, (s.blocks.get b).isSome = true) → ts.blocks.Nodup →
        let n := f.handle.toNat
        let late := ts.blocks.filter fun b => (s.blocks.get b).any fun x => overran (x.bar n) ((x.bar n).credit 0 1)
        ∃ t, exec (.tsig f) s = .next t ∧ ({ t with groups := s.groups, blocks := s.blocks, ownPuts := s.ownPuts, uid := s.uid } : State) = s
          ∧ t.ownPuts = (s.snapTo c.uid round).ownPuts
          ∧ GroupNow s t c (snapped { c.g with delivered := late.map fun _ => overrun s.uid 3 (c.g.ordOf 3) n c.f.pc c.f.blk }) c.f.next
          ∧ (∀ b ∈ ts.blocks, ∀ x, s.blocks.get b = some x → ∃ y, t.blocks.get b = some y ∧ y.bar n = (x.bar n).credit 0 1
              ∧ ({ y with bars := x.bars } : Block) = x ∧ ∀ m, m ≠ n → y.bar m = x.bar m)
          ∧ ∀ b, b ∉ ts.blocks → t.blocks.get b = s.blocks.get b))
    ∧ (Clear s c f.g [] [(1, f.x)] false → c.g.full 4 = false → c.repeats = false → c.g.replay = [] → (c.b.check = none ∨ s.areaFull c.l.part = false) →
      let ids := (lanesOf (c.eff f.g)).map fun j => (j, c.g.lane f.x j)
      let entry : LogEntry := { kind := .digest, op := 0xD8, data := [], digest := opDigest 0xD8 (ids.map fun x => (x.1, 0, [x.2])) }
      ∃ t, exec (.ecnt f) s = .next t ∧ ({ t with groups := s.groups, parts := s.parts, uid := s.uid } : State) = s
        ∧ GroupNow s t c ((if c.b.check.isNone then c.g else c.g.logs entry).pass s.uid 4 c.f.pc) c.f.next
        ∧ (∀ q, q ≠ c.l.part → t.parts.get q = s.parts.get q)
        ∧ ((s.parts.get c.l.part).isSome = true → ({ t.part c.l.part with experts := (s.part c.l.part).experts } : Part) = s.part c.l.part
          ∧ ∀ x, let e := (s.part c.l.part).expert x
            e.routed ≤ 2 ^ 48 - 1 → (t.part c.l.part).expert x =
              if x < 4096 ∧ e.valid = true then { e with routed := min (e.routed + (ids.filter fun y => y.2 == x).length) (2 ^ 48 - 1) } else e))
    ∧ (Clear s c f.g [(2, f.x)] [(1, f.y)] false → c.g.full 4 = false → c.repeats = false → c.g.replay = [] → (c.b.check = none ∨ s.areaFull c.l.part = false) →
      let x := (c.g.sreg (opndIdx f.y)).toNat
      let e := (s.part c.l.part).expert x
      let fld := f.func.toNat % 4
      let clr := bitAt f.func.toNat 2
      let v := if !e.valid then 0 else match fld with | 0 => e.routed | 1 => e.fetched | 2 => e.fell | _ => 1
      x < 4096 → (fld = 3 → clr = false) →
      ∃ t, exec (.xstat f) s = .next t ∧ ({ t with groups := s.groups, parts := s.parts, uid := s.uid } : State) = s
        ∧ GroupNow s t c ((c.g.logs { kind := .xstat, op := 0xD9, data := [v], digest := opDigest 0xD9 [(0, 0, [x])] }).raise
            { Flight.plain s.uid 4 c.f.pc (c.eff f.g) with blk := c.f.blk, writes := sclWrites (opndIdx f.x) (toWords 2 v) }) c.f.next
        ∧ (∀ q, q ≠ c.l.part → t.parts.get q = s.parts.get q)
        ∧ (clr = false ∨ e.valid = false → t.parts = s.parts)
        ∧ ((s.parts.get c.l.part).isSome = true → ({ t.part c.l.part with experts := (s.part c.l.part).experts } : Part) = s.part c.l.part
          ∧ (∀ y, y ≠ x → (t.part c.l.part).expert y = (s.part c.l.part).expert y)
          ∧ (clr = true → e.valid = true → (t.part c.l.part).expert x =
              match fld with | 0 => { e with routed := 0 } | 1 => { e with fetched := 0 } | _ => { e with fell := 0 }))))

/-! ## Collectives, gates and the system (chapters 14, 17 and 19) -/

/-- 19 R387, R396, R401 and R403: cview writes the group's view, cpolicy sets the group's policy, cack makes the choices that are due, cjoin gives the expected digest or answers or asks to rejoin, each in the log, and a coll of some elements whose card is in order joins the jobs under the group's next operation number. The answer of cjoin on a device that is no member is the model's reading (log 44). -/
def Obligations.CollectivesComplete : Prop :=
  ∀ (f : FormG) (s : State) (c : Ctx), c.repeats = false → c.g.replay = [] → (c.b.check = none ∨ s.areaFull c.l.part = false) →
    let w := fun (i : Nat) => (c.g.sreg (opndIdx f.y + i)).toNat
    let gid := w 0 % 65536
    (∀ g, Clear s c f.g [(12, f.x)] [(1, f.y)] false → s.collOf c.l.part gid = some g →
      ∃ t h, exec (.cview f) s = .next t ∧ OnlyGroup s t c.uid ∧ t.groups.get c.uid = some h ∧ OneFrag c.g h c.fid c.f.next
        ∧ h.sreg (opndIdx f.x) = toWord g.view ∧ (h.sreg (opndIdx f.x + 2)).toNat = (slotsOf g.members).length
        ∧ h.sreg (opndIdx f.x + 1) = toWord (gid + g.slot * 2 ^ 16 + (if g.member then 2 ^ 24 else 0) + (if g.joining || g.joiner.isSome then 2 ^ 25 else 0))
        ∧ h.sreg (opndIdx f.x + 3) = toWord (min g.stale (2 ^ 32 - 1))
        ∧ (∀ i, i < 8 → h.sreg (opndIdx f.x + 4 + i) = toWord (g.members.toNat / 2 ^ (32 * i)))
        ∧ (∀ k, k < opndIdx f.x ∨ opndIdx f.x + 12 ≤ k → h.sreg k = c.g.sreg k) ∧ h.vregs = c.g.vregs ∧ h.masks = c.g.masks)
    ∧ (Clear s c f.g [] [] false → ∃ t, exec (.cpolicy f) s = .next t ∧ ({ t with groups := s.groups } : State) = s
        ∧ GroupNow s t c { c.g with policy := f.func.toNat % 4, trapBit := bitAt f.func.toNat 2 } c.f.next)
    ∧ (Clear s c f.g [] [(1, f.y)] false → (s.collOf c.l.part gid).isSome = true →
      let choice := f.func.toNat % 4
      let entry : LogEntry := { kind := .view, op := 0xE3, data := [], digest := opDigest 0xE3 [(0, 0, [gid, choice])] }
      let due := (s.awaitingOf c.uid).filter fun x => x.1 == gid
      ∃ t, exec (.cack f) s = .next t
        ∧ (due = [] → OnlyGroup s t c.uid ∧ GroupNow s t c (c.g.logs entry) c.f.next)
        ∧ t = (due.foldl (fun s x => s.collChoose gid x.2.1 (if choice = 0 then x.2.2 else choice))
            (s.updGroup c.uid fun g => g.logs entry)).advance c.uid c.fid)
    ∧ (∀ g, Clear s c f.g [] [(4, f.y)] false → f.func = 1 → s.collOf c.l.part gid = some g →
      let dig : BitVec 64 := BitVec.ofNat 64 (w 2 + 2 ^ 32 * w 3)
      ∃ t, exec (.cjoin f) s = .next t ∧ ({ t with groups := s.groups, colls := s.colls, sent := s.sent } : State) = s
        ∧ GroupNow s t c (c.g.logs { kind := .view, op := 0xE4, data := [], digest := opDigest 0xE4 [(0, 0, [gid, w 2, w 3])] }) c.f.next
        ∧ (∀ k, k ≠ gid → t.colls.get k = s.colls.get k)
        ∧ (if g.member = true ∧ lowSlot g.members = g.slot then t.colls.get gid = some { g with digest := some dig } else t.colls = s.colls)
        ∧ t.sent = if g.member = true ∧ lowSlot g.members ≠ g.slot then s.sent ++ [.digest gid dig] else s.sent)
    ∧ (∀ g v, Clear s c f.g [(1, f.x)] [(4, f.y)] false → f.func = 0 → opndScalar f.x = true → s.collOf c.l.part gid = some g →
      let same := g.digest = some (BitVec.ofNat 64 (w 2 + 2 ^ 32 * w 3))
      let digest := opDigest 0xE4 [(0, 0, [gid, w 2, w 3])]
      ((∃ op d, c.f.pend = .done op d ∧ v = d.getD 0 0) ∨ (c.f.pend = .none ∧ g.member = true ∧ v = 3)
        ∨ (c.f.pend = .none ∧ g.member = false ∧ s.joinReady = false ∧ v = 2)
        ∨ (c.f.pend = .none ∧ g.member = false ∧ s.joinReady = true ∧ ¬same ∧ v = 1) →
        ∃ t h, exec (.cjoin f) s = .next t ∧ OnlyGroup s t c.uid ∧ t.groups.get c.uid = some h ∧ WroteSca c.g h 1 (opndIdx f.x) v ∧ OneFrag c.g h c.fid c.f.next
          ∧ h.log = c.g.log ++ [{ kind := .view, op := 0xE4, data := [v], digest := digest }])
      ∧ (c.f.pend = .none → g.member = false → s.joinReady = true → same →
        ∃ t, exec (.cjoin f) s = .next t ∧ GroupNow s t c c.g { c.f with pend := .join gid digest, stall := 14 }
          ∧ t.colls.get gid = some { g with joining := true } ∧ t.sent = s.sent ++ [.join gid g.slot (BitVec.ofNat 64 (w 2 + 2 ^ 32 * w 3))]))
    ∧ ∀ g j, unboundQ f.handle c = false → Clear s c f.g [] [(12, f.x)] false → c.port f.handle.toNat = some 3 →
      s.collCard c (c.g.scalars (opndIdx f.x) 12) = .ok (g, j) → c.g.full 2 = false → s.cards true c.g.core < 16 →
      c.g.keyed = [] → s.detached c = none → g.member = true → g.ops.get g.opNum = none → j.vals.getD 1 0 ≠ 0 →
      ∃ t h o, exec (.coll f) s = .next t ∧ ({ t with groups := s.groups, jobs := s.jobs, colls := s.colls, uid := s.uid } : State) = s
        ∧ GroupNow s t c ((if c.b.check.isNone then c.g
            else c.g.logs { kind := .pub, op := 3, data := [2, c.g.ordOf 2 + 1 - c.g.base.getD 2 0, s.uid], digest := 0 }).raise
              { Flight.plain s.uid 2 c.f.pc 0 with blk := c.f.blk, peer := s.peerIn c j }) c.f.next
        ∧ t.jobs.get s.uid = some { j with part := c.l.part, group := c.uid, block := c.g.block, snap := c.g.snap, mark := c.g.mark, flight := s.uid, pc := c.f.pc, blk := c.f.blk, order := s.handOrder, seen := s.uid }
        ∧ t.colls.get (j.aux.getD 0 0) = some h ∧ h.opNum = (g.opNum + 1) % 2 ^ 32 ∧ h.ops.get g.opNum = some o ∧ o.job = s.uid ∧ o.members = g.members

/-- 14 R318 to R325 and R331: a gate operation leaves for its server and its fragment waits; once the outcome is there the result block is written and logged, and a success of gwait or gtry raises the import mark and snaps; a denial raises GATE_DENIED. That the snapshot of a gwait or gtry is taken as its result reaches the fragment is the model's reading (log 67). -/
def Obligations.GateOperationsComplete : Prop :=
  ∀ (i : Instr) (op nx ny : Nat) (pair payload : Bool) (f : FormG) (s : State) (c : Ctx),
    ((i = .gsig f ∧ op = 0xE8 ∧ nx = 8 ∧ ny = 4 ∧ pair = true ∧ payload = false) ∨ (i = .gwait f ∧ op = 0xE9 ∧ nx = 8 ∧ ny = 4 ∧ pair = true ∧ payload = false)
      ∨ (i = .gtry f ∧ op = 0xEA ∧ nx = 8 ∧ ny = 4 ∧ pair = true ∧ payload = false)
      ∨ (i = .gxch f ∧ op = 0xEB ∧ nx = (if f.func.getLsbD 0 then 20 else 8) ∧ ny = (if f.func.getLsbD 1 then 16 else 4) ∧ pair = false ∧ payload = f.func.getLsbD 1)
      ∨ (i = .gstat f ∧ op = 0xEC ∧ nx = 8 ∧ ny = 4 ∧ pair = false ∧ payload = false)) →
    Clear s c f.g [(nx, f.x), (ny, f.y)] (gateReads (opndIdx f.y) pair payload) false → c.repeats = false → c.g.replay = [] →
    (∀ p d, c.f.pend = .done p d → d.length = 23 → (c.b.check = none ∨ s.areaFull c.l.part = false) →
      ∃ t h, exec i s = .next t ∧ ({ t with groups := s.groups, ownPuts := s.ownPuts } : State) = s ∧ OtherGroups s t c.uid ∧ t.groups.get c.uid = some h
        ∧ (∀ r, r < nx → r < d.length → h.sreg (opndIdx f.x + r) = toWord (d.getD r 0))
        ∧ (∀ k, k < opndIdx f.x ∨ opndIdx f.x + nx ≤ k → h.sreg k = c.g.sreg k) ∧ h.vregs = c.g.vregs ∧ h.masks = c.g.masks
        ∧ OneFrag c.g h c.fid c.f.next
        ∧ h.log = c.g.log ++ [{ kind := .result, op := op, data := d.take 22 ++ [(s.part c.l.part).round], digest := d.getD 22 0 }]
        ∧ (if d.getD 20 0 = 1 then h.mark = max c.g.mark (d.getD 21 0) ∧ h.snap = max c.g.snap (s.part c.l.part).round
           else h.mark = c.g.mark ∧ h.snap = c.g.snap))
    ∧ (∀ g, c.f.pend = .denied g → exec i s = .next (s.takeTrap c (faultAt .gateDenied c.f.pc g)))
    ∧ (∀ g, c.f.pend = .gate g → ∃ t, exec i s = .next t ∧ Moved s t c { c.f with stall := 11 })
    ∧ (c.f.pend = .none →
      let gate := (c.g.sreg (opndIdx f.y)).toNat
      let operand := c.g.pair (opndIdx f.y + 2)
      let o := c.gateOp f op gate operand
      gate < 4096 → s.pendingGate c o = none →
      (op = 0xE8 → c.holds = false ∧ s.publish c.openly (fun n => .handed n [gate, operand]) (s.firing c) = .done s) →
      ∃ t, exec i s = .next t ∧ ({ t with groups := s.groups, gateOps := s.gateOps, uid := s.uid } : State) = s
        ∧ GroupNow s t c c.g { c.f with pend := .gate s.uid, stall := 11 } ∧ t.gateOps.get s.uid = some o ∧ ∀ k, k ≠ s.uid → t.gateOps.get k = s.gateOps.get k)

/-- 17 R377 and R383: sysrd writes a system register's value into its pair, and a write takes effect where the value is in the register's range; a guest that reads a register kept from guests, or writes any, raises PRIVILEGE with no effect. 16 R360 and R361: clk writes the device's time into its pair; runk, a host's, notes an injection in the named runs of a checked block and otherwise does nothing; 08 R218: pdone marks its group as saved. The nanoseconds that clk reads past the last bucket tick are a free value, by the model's choice (log 5). -/
def Obligations.SystemRegistersComplete : Prop :=
  (∀ (f : FormG) (s : State) (c : Ctx), c.repeats = false → c.g.replay = [] → (c.b.check = none ∨ s.areaFull c.l.part = false) →
    let n := f.func.toNat
    let x := c.g.pair (opndIdx f.y)
    (Clear s c f.g [(2, f.x)] [] false → c.l.host = true ∨ n < 0x040 →
      ∃ t h, exec (.sysrd f) s = .next t ∧ OnlyGroup s t c.uid ∧ t.groups.get c.uid = some h ∧ OneFrag c.g h c.fid c.f.next
        ∧ WroteSca c.g h 2 (opndIdx f.x) (s.sysRead c.l.part c.l.hdr.vdev n))
    ∧ (s.ctx = some c → c.l.host = false → 0x040 ≤ n → exec (.sysrd f) s = .next (s.takeTrap c (faultAt .privilege c.f.pc s.word.toNat)))
    ∧ (s.ctx = some c → c.l.host = false → exec (.syswr f) s = .next (s.takeTrap c (faultAt .privilege c.f.pc s.word.toNat)))
    ∧ (Clear s c f.g [] [(2, f.y)] false → c.l.host = true → (s.parts.get c.l.part).isSome = true →
      ∃ t, exec (.syswr f) s = .next t
        ∧ (n ≠ 0x031 → n ≠ 0x032 → t.mem = s.mem ∧ ∃ h, t.groups.get c.uid = some h ∧ SameRegs c.g h ∧ OneFrag c.g h c.fid c.f.next ∧ OtherGroups s t c.uid)
        ∧ (n = 0x030 → (t.part c.l.part).wdGroup = if 1 ≤ x ∧ x ≤ 2 ^ 32 - 1 then x else (s.part c.l.part).wdGroup)
        ∧ (n = 0x033 → (t.part c.l.part).progWin = if 10 ≤ x ∧ x ≤ 1000000 then x else (s.part c.l.part).progWin)
        ∧ (n = 0x041 → t.rotation = if 1 ≤ x ∧ x ≤ 3600 then x else s.rotation)
        ∧ (n = 0x042 → t.abortPrio = if x ≤ 15 then x else s.abortPrio)))
  ∧ (∀ (f : FormG) (s : State) (c : Ctx),
    (Clear s c f.g [(2, f.x)] [] false → c.repeats = false → c.g.replay = [] → (c.b.check = none ∨ s.areaFull c.l.part = false) →
      ∃ t h, exec (.clk f) s = .next t ∧ OnlyGroup s t c.uid ∧ t.groups.get c.uid = some h ∧ OneFrag c.g h c.fid c.f.next
        ∧ WroteSca c.g h 2 (opndIdx f.x) s.now)
    ∧ (Clear s c f.g [] [] false → c.l.host = true →
      (c.b.check = none ∨ ((c.b.runName = 1 → f.func.getLsbD 0 = false) ∧ (c.b.runName = 2 → f.func.getLsbD 1 = false)) →
        ∃ t, exec (.runk f) s = .next t ∧ Moved s t c c.f.next)
      ∧ (∀ k ch r, c.check = some k → (c.b.runName = 1 ∧ f.func.getLsbD 0 = true) ∨ (c.b.runName = 2 ∧ f.func.getLsbD 1 = true) →
        s.checks.get k = some ch → ch.runs.get c.b.run = some r →
        ∃ t ch' r', exec (.runk f) s = .next t ∧ GroupNow s t c c.g c.f.next ∧ ({ t with groups := s.groups, checks := s.checks } : State) = s
          ∧ t.checks.get k = some ch' ∧ ch'.runs.get c.b.run = some r' ∧ r'.injected = true))
    ∧ (ClearJump s c f.g [] → c.eff f.g ≠ 0 → c.f.handler = .preempt → c.g.idle = true →
      ∃ t h, exec (.pdone f) s = .next t ∧ t.groups.get c.uid = some h ∧ h = { c.g with doneMark := true } ∧ OtherGroups s t c.uid ∧ t.mem = s.mem))

/-- 17 R378 to R380: brk stops its block where a debugger may stop, has no effect in a repeat run, and raises DEBUG_STOP in a group that no debugger watches; mark has no effect with trace off and changes no register with it on; sampctl turns sampling on with its mean held to its range, or off. -/
def Obligations.ObservationComplete : Prop :=
  (∀ (f : FormG) (s : State) (c : Ctx), Clear s c f.g [] [] false →
    (c.repeats = true ∨ (s.stops c.l.part = false ∧ c.g.seq = true) → ∃ t, exec (.brk f) s = .next t ∧ Moved s t c c.f.next)
    ∧ (c.repeats = false → s.stops c.l.part = false → c.g.seq = false → exec (.brk f) s = .next (s.takeTrap c (faultAt .debugStop c.f.pc f.func.toNat)))
    ∧ (c.repeats = false → s.stops c.l.part = true → s.holdable c.b = true → c.b.set = none →
      ∃ t b, exec (.brk f) s = .next t ∧ t.blocks.get c.g.block = some b ∧ b.hold = some { cause := 0, bp := 0, code := f.func.toNat, step := none }
        ∧ ∃ h, t.groups.get c.uid = some h ∧ SameRegs c.g h ∧ OneFrag c.g h c.fid c.f.next))
  ∧ (∀ (f : FormD) (s : State) (c : Ctx), Clear s c f.g [] (if f.func.getLsbD 4 then [(1, f.dst)] else []) false →
    ∃ t, exec (.mark f) s = .next t ∧ GroupNow s t c c.g c.f.next ∧ t.blocks = s.blocks
      ∧ (c.repeats = true ∨ ((s.part c.l.part).vd c.l.hdr.vdev).trace = false → Moved s t c c.f.next))
  ∧ (∀ (f : FormG) (s : State) (c : Ctx) (v : Vdev), Clear s c f.g [] (if f.func.getLsbD 0 then [(1, f.y)] else []) false →
    c.repeats = false → ((s.part c.l.part).sampleRings.get c.l.hdr.vdev).isSome = true → (s.part c.l.part).vdev.get c.l.hdr.vdev = some v →
    ∃ t v', exec (.sampctl f) s = .next t ∧ GroupNow s t c c.g c.f.next ∧ ({ t with groups := s.groups, parts := s.parts } : State) = s
      ∧ (t.part c.l.part).vdev.get c.l.hdr.vdev = some v' ∧ v'.sampling = f.func.getLsbD 0
      ∧ (f.func.getLsbD 0 = true → v'.mean = min (max (c.g.lane f.y 0) 256) (2 ^ 24)))

/-- 17 R381: svc writes 0xFFFFFFFF where no ring is registered, and the reply where it has come; with a ring that has room its request is posted and it waits. REPLY answers the fragment that waits. -/
def Obligations.ServicesComplete : Prop :=
  (∀ (f : FormC) (s : State) (c : Ctx), Clear s c f.g [(1, f.dst)] (if f.func.getLsbD 0 then [(1, f.a)] else []) false → c.repeats = false → c.g.replay = [] → (c.b.check = none ∨ s.areaFull c.l.part = false) →
    opndScalar f.dst = true →
    let arg := if f.func.getLsbD 0 then c.g.lane f.a 0 else 0
    (c.f.pend = .none → s.pendingSvc c f.imm.toNat arg = none → (s.part c.l.part).svcRing = none →
      ∃ t h, exec (.svc f) s = .next t ∧ OnlyGroup s t c.uid ∧ t.groups.get c.uid = some h ∧ WroteSca c.g h 1 (opndIdx f.dst) 0xFFFFFFFF ∧ OneFrag c.g h c.fid c.f.next)
    ∧ (∀ op d, c.f.pend = .done op d →
      ∃ t h, exec (.svc f) s = .next t ∧ OnlyGroup s t c.uid ∧ t.groups.get c.uid = some h ∧ WroteSca c.g h 1 (opndIdx f.dst) (d.getD 0 0) ∧ OneFrag c.g h c.fid c.f.next
        ∧ h.log = c.g.log ++ [{ kind := .svc, op := 0xF7, data := d.take 1, digest := svcDigest f.imm.toNat arg }])
    ∧ (∀ r, c.f.pend = .none → s.pendingSvc c f.imm.toNat arg = none → (s.part c.l.part).svcRing = some r → r.windex - fromBytes (Memory.readN s.mem (r.desc + 0x20) 8) < r.entries →
      ∃ t q, exec (.svc f) s = .next t ∧ GroupNow s t c c.g { c.f with pend := .svc (s.part c.l.part).svcSeq, stall := 14 }
        ∧ (t.part c.l.part).svcs.get (s.part c.l.part).svcSeq = some q ∧ q.group = c.uid ∧ q.frag = c.fid))
  ∧ ∀ (part seq : Nat) (value : Word) (s : State) (q : SvcReq) (g : Group) (f : Frag), (s.part part).svcs.get seq = some q → s.groups.get q.group = some g →
    g.life = .live → g.frags.get q.frag = some f → f.pend = .svc seq →
    ∃ t h x, exec (.reply part seq value) s = .next t ∧ t.groups.get q.group = some h ∧ h.frags.get q.frag = some x ∧ x = { f with pend := .done 0xF7 [value.toNat, svcDigest q.words.1 q.words.2] }
      ∧ ((s.part part).svcs.wf = true → (t.part part).svcs.get seq = none) ∧ t.mem = s.mem

/-! ## Steps of the hardware -/

/-- 07 R187 and R190, 08 R212, 19 R403, 21 R418: a spilled fragment comes back on chip; one whose patience runs out goes past its header alone; a sleep's count runs out; a join that no member answers ends with status 4; and a sampling interval steps its quarter's generator and tags the word about to issue. No register changes. When a sampling record is written is the model's reading (log 29). -/
def Obligations.FragmentEvents : Prop :=
  (∀ (s : State) (u k : Nat) (g : Group) (f : Frag), s.groups.get u = some g → g.frags.get k = some f → f.onChip = false →
    ∃ t h x, exec (.splitEntryReturn u k) s = .next t ∧ OnlyGroup s t u ∧ t.groups.get u = some h ∧ SameRegs g h ∧ h.frags.get k = some x
      ∧ x = { f with onChip := true, ready := s.tick })
  ∧ (∀ (s : State) (u k id : Nat) (c : Ctx) (o : SibSet), s.ctxOf u k = some c → c.f.phase = .reconv → c.f.sib = some id → c.g.sibs.get id = some o →
    c.b.life = .resident ∨ c.b.life = .quiesced → c.b.hold = none → c.b.quiesce = none → s.running = true → (s.part c.l.part).frozen = false → c.repeats = false →
    ∃ t h n x, exec (.mergePatienceExpiry u k) s = .next t ∧ OnlyGroup s t u ∧ t.groups.get u = some h ∧ SameRegs c.g h
      ∧ ∃ g : Group, h = g.fuseAll s.tick n ∧ g.frags.get k = some x ∧ x.phase = .run ∧ x.pc = nextWord c.f.pc ∧ x.mask = c.f.mask ∧ x.reconv = o.reconv ∧ x.sib = o.sib)
  ∧ (∀ (s : State) (u k : Nat) (g : Group) (f : Frag), s.groups.get u = some g → g.frags.get k = some f → f.pend = .sleep →
    ∃ t h, exec (.sleepCountRunsOut u k) s = .next t ∧ OnlyGroup s t u ∧ t.groups.get u = some h ∧ SameRegs g h ∧ h.frags.get k = some { f with pend := .done 0 [] })
  ∧ (∀ (s : State) (u k gid d : Nat) (c : Ctx), s.ctxOf u k = some c → c.f.pend = .join gid d →
    ∃ t h, exec (.joinTimeout u k) s = .next t ∧ t.mem = s.mem ∧ t.groups.get u = some h ∧ SameRegs c.g h ∧ h.frags.get k = some { c.f with pend := .done 0xE4 [4, d] })
  ∧ ∀ (s : State) (core quarter u k : Nat) (c : Ctx) (v : Vdev), s.ctxOf u k = some c → (s.part c.l.part).vdev.get c.l.hdr.vdev = some v → v.sampling = true →
    c.g.core = core → c.g.quarter = quarter → c.f.phase = .run → c.g.seq = false → c.issues s = true → c.outsideTrap = false →
    ∃ t v', exec (.sampleTag core quarter u k) s = .next t ∧ t.groups = s.groups ∧ t.mem = s.mem
      ∧ (∀ w, s.peek c c.f.pc = .word w → ∃ x, t.samples = s.samples ++ [x] ∧ x.group = u ∧ x.frag = k ∧ x.pc = c.f.pc ∧ x.retired = none
        ∧ x.mask = c.eff { neg := w.getLsbD 55, mask := (w.extractLsb' 51 4) })
      ∧ (t.part c.l.part).vdev.get c.l.hdr.vdev = some v'
      ∧ v'.gens.get (4 * core + quarter) = some (srStep (v.gens.getD (4 * core + quarter) v.seed))

/-- 09 R229, R230 and R232, 10 R258 and R249, 17 R373: the open round of a partition closes with the next number, and waits while a line of it has no place; a version that no reader needs retires; an operation of a peer without route completes with its fault, and a store of one with what its group has in those lines; and a dirty line of a window becomes pending. That a round may close at any time, and which versions may retire, are the model's reading (log 53 and 49); when a line finds a place, and how a timeout names a store, are its choice (log 64 and 69). -/
def Obligations.RoundAndLineEvents : Prop :=
  (∀ (s x : State) (p : Nat), (s.parts.get p).isSome = true → (s.part p).roundOpen = true → s.closeRound p = some x →
    ∃ t, exec (.roundClose p) s = .next t ∧ (t.part p).round = (s.part p).round + 1 ∧ (∀ h ∈ s.handed, h.part ≠ p → h.layer = none → h ∈ t.handed)
      ∧ ((∀ r ∈ s.groups.rows, r.2.life ≠ .leaving ∧ ∀ n, r.2.life ≠ .publishing n) →
        (t.part p).roundOpen = false ∧ t.handed = s.handed.filter fun h => decide (h.part ≠ p)))
  ∧ (∀ (s : State) (p : Nat), (s.part p).roundOpen = true → s.closeRound p = none → exec (.roundClose p) s = .next s)
  ∧ (∀ (s : State) (p line n : Nat) (v w : Version), (s.versions.find? fun v => decide (v.line = line ∧ v.part = some p ∧ v.round = n)) = some v →
    (s.versions.find? fun w => decide (w.line = line)) = some w → w ≠ v → s.fetches v = false → (s.readers.all fun rd => decide (s.versionFor rd line ≠ some v)) = true →
    ∃ t, exec (.versionRetire p line n) s = .next t ∧ ({ t with versions := s.versions } : State) = s ∧ ∀ x, x ∈ t.versions ↔ x ∈ s.versions ∧ x ≠ v)
  ∧ (∀ (s : State) (u op va : Nat) (g : Group) (x : Flight), s.groups.get u = some g → x ∈ g.flights → x.id = op → x.done = false → x.peer = some va →
    (s.peerStores.find? fun y => y.1 == u && y.2.2.id == op) = none → (∀ c, s.groupCtx u = some c → ∀ w ∈ c.b.pending, w.group = u → w.seq ≠ op) → (∀ c, s.groupCtx u = some c → s.behindRoute c va = []) →
    (∀ y ∈ g.flights, y.id = op → y.done = false → y.peer = some va) →
    ∃ t h, exec (.peerRouteTimeout u op) s = .next t ∧ OnlyGroup s t u ∧ t.groups.get u = some h ∧ SameRegs g h
      ∧ { x with bad := some (.accessProtection, BitVec.ofNat 64 va) } ∈ h.flights)
  ∧ (∀ (s : State) (u op : Nat) (x : Nat × Nat × Flight), (s.peerStores.find? fun y => y.1 == u && y.2.2.id == op) = some x →
    ∃ t, exec (.peerRouteTimeout u op) s = .next t ∧ ((∀ c va, s.groupCtx u = some c → s.behindRoute c va = []) → t.mem = s.mem) ∧ (∀ y ∈ t.peerStores, y.1 = u → y.2.1 ≠ x.2.1)
      ∧ (∀ e ∈ t.buffer, e.group = u → e.line ≠ x.2.1) ∧ ∀ h ∈ t.handed, h.group = u → h.line ≠ x.2.1)
  ∧ ∀ (s : State) (bid w line : Nat) (b : Block) (x : Window), s.blocks.get bid = some b → b.onCores = true → b.windows.get w = some x → line ∈ x.dirty →
    ∃ t y z, exec (.windowWriteback bid w line) s = .next t ∧ ({ t with blocks := s.blocks, uid := s.uid } : State) = s ∧ OneBlock s t bid y
      ∧ y.store = b.store ∧ y.windows.get w = some z ∧ z.dirty = x.dirty.filter (· != line)
      ∧ y.pending.map (·.va) = b.pending.map (·.va) ++ (x.dirty.filter (· == line)).map fun l => (x.base + 128 * l) % 2 ^ 80

/-- 09 R230 and R237: a line of a closing round. The stores handed for it, any number of them, lie over one another and over what its home held in ascending order of identifier and then of handing: each byte is the last store's. Over that the update-only copies of each element are combined with it, in ascending order too. The result is the line's new version and the home's new value, and no other line changes. -/
def Obligations.ClosingLine : Prop :=
  ∀ (s : State) (part n line : Nat) (puts : List Handed) (upds : List HandedUpd), s.adminRing = none →
    let r := roundFor puts upds line
    let t := s.closeLine part n puts upds line
    let put := fun (i : Nat) => match (r.1.filter fun h => h.mask.getLsbD i).getLast? with | some h => byteOf h.data i | none => Memory.read s.mem (128 * line + i)
    (r.1.Perm (puts.filter fun h => decide (h.line = line)) ∧ r.1.Pairwise fun a b => a.ident < b.ident ∨ (a.ident = b.ident ∧ a.order ≤ b.order))
    ∧ (r.2.Perm (upds.filter fun h => decide (h.upd.addr / 128 = line)) ∧ r.2.Pairwise fun a b => a.ident < b.ident ∨ (a.ident = b.ident ∧ a.order ≤ b.order))
    ∧ ∃ v, t.versions.head? = some v ∧ v.line = line ∧ v.part = some part ∧ v.round = n
      ∧ (s.mem.wf = true → (∀ i, i < 128 → Memory.read t.mem (128 * line + i) = byteOf v.data i)
        ∧ ∀ a, a / 128 ≠ line → Memory.read t.mem a = Memory.read s.mem a)
      ∧ (∀ i, i < 128 → (∀ u ∈ r.2, i < u.upd.addr % 128 ∨ u.upd.addr % 128 + u.upd.bytes ≤ i) → byteOf v.data i = put i)
      ∧ ∀ a k, a / 128 = line → a % 128 + k ≤ 128 → (∀ u ∈ r.2, (u.upd.addr = a ∧ u.upd.bytes = k) ∨ u.upd.addr + u.upd.bytes ≤ a ∨ a + k ≤ u.upd.addr) →
        ((List.range k).map fun i => byteOf v.data (a % 128 + i)) =
          toBytes k ((r.2.filter fun u => decide (u.upd.addr = a ∧ u.upd.bytes = k)).foldl (fun old u => combine u.upd.float u.upd.aop k old u.upd.vals % 2 ^ (8 * k))
            (fromBytes ((List.range k).map fun i => put (a % 128 + i))))

/-- 07 R178 to R184, R198 to R200, 10 R276 to R278: packets, and what they bring, each in every form. A launch packet at the head of its queue takes its identifier, once, and is taken, and its launch submitted; with its header on a page that is not resident the page is asked for in that identifier's name; and a packet that breaks its table is answered. A copy packet becomes a job. A work item enters its queue, and waits while that is full. A launch whose blocks have ended, or that a fault ended, has its record. A block, or a tile set, that admission chooses is admitted; one that it chooses to restart or to resume is. With nothing at the head of a queue, a packet's step changes nothing. That a launch carries its privilege with its packet (log 18) and that a restart clears barriers (log 31) are the model's reading; that a step without its condition does nothing is its choice (log 14), and so is the order of resumption (log 66). -/
def Obligations.FrontEndEvents : Prop :=
  (∀ (s : State) (p q : Nat), s.packetAt p q = none →
    (∀ host, exec (.launchPacket p q host) s = .next s) ∧ exec (.copyPacket p q) s = .next s ∧ exec (.workItemPacket p q) s = .next s)
  ∧ (∀ (s : State) (p q n slot : Nat) (pq : PacketQueue) (bs : List Byte), s.packetAt p q = some (pq, n, slot, bs) → packetOk bs = false →
    (fromBytes (bs.take 1) ≠ 2 → fromBytes (bs.take 1) ≠ 3 → ∀ host, exec (.launchPacket p q host) s = .next (s.badPacket p q pq n slot bs))
    ∧ (fromBytes (bs.take 1) = 2 → exec (.copyPacket p q) s = .next (s.badPacket p q pq n slot bs))
    ∧ (fromBytes (bs.take 1) = 3 → exec (.workItemPacket p q) s = .next (s.badPacket p q pq n slot bs)))
  ∧ (∀ (s : State) (p q n slot : Nat) (pq : PacketQueue) (bs : List Byte) (host : Bool), s.packetAt p q = some (pq, n, slot, bs) →
    fromBytes (bs.take 1) = 1 → packetOk bs = true →
    let x := s.takeIdent p q pq
    let r := x.1.readHeader p (fromBytes ((bs.drop 8).take 16))
    let wants := bitAt (fromBytes ((bs.drop 1).take 1)) 0
    let taken := fun (head : Except (Nat × Nat) Header) => (r.1.takePacket p q pq n slot wants).submit p q n (fromBytes ((bs.drop 4).take 4)) x.2 wants host head
    (∀ code, r.2 = .refused code → exec (.launchPacket p q host) s = .next (taken (.error (1, codeNum code))))
    ∧ (∀ h e, r.2 = .bytes h → headerOf h = .error e → exec (.launchPacket p q host) s = .next (taken (.error (e, 0))))
    ∧ (∀ h hd, r.2 = .bytes h → headerOf h = .ok hd → exec (.launchPacket p q host) s = .next (taken (.ok hd)))
    ∧ ∀ page, r.2 = .absent page → exec (.launchPacket p q host) s = .next (r.1.requestPage p 0 page 0 x.2 0xFFFFFFFF).1)
  ∧ (∀ (s : State) (p q : Nat) (pq : PacketQueue), (∀ i, pq.ident = some i → s.takeIdent p q pq = (s, i))
    ∧ (pq.ident = none → (s.parts.get p).isSome = true → (s.part p).packets.get q = some pq →
      (s.takeIdent p q pq).2 = (s.part p).nextLaunch ∧ ({ (s.takeIdent p q pq).1 with parts := s.parts } : State) = s
      ∧ ((s.takeIdent p q pq).1.part p).nextLaunch = (if (s.part p).nextLaunch = 0xFFFFFFFE then 0 else (s.part p).nextLaunch + 1)
      ∧ ((s.takeIdent p q pq).1.part p).packets.get q = some { pq with ident := some (s.part p).nextLaunch }))
  ∧ (∀ (s : State) (p q n tag ident : Nat) (wants host : Bool) (hd : Header), (s.parts.get p).isSome = true → (s.part p).vdevs.getLsbD hd.vdev = true →
    s.couldFit (Launch.start hd p ident host q tag wants n s.uid) = true →
    ∃ l, (s.submit p q n tag ident wants host (.ok hd)).launches.get s.uid = some l ∧ l.part = p ∧ l.ident = ident ∧ l.nextBlock = 0 ∧ l.ended = none ∧ l.recorded = false)
  ∧ (∀ (s : State) (p q n slot : Nat) (pq : PacketQueue) (bs : List Byte), s.packetAt p q = some (pq, n, slot, bs) → fromBytes (bs.take 1) = 2 → packetOk bs = true →
    ∃ t j, exec (.copyPacket p q) s = .next t ∧ t.jobs.get s.uid = some j ∧ j.kind = .hostCopy ∧ j.part = p ∧ j.life = .queued
      ∧ j.vals.take 3 = [fromBytes ((bs.drop 8).take 16), fromBytes ((bs.drop 40).take 8), fromBytes ((bs.drop 24).take 16)])
  ∧ (∀ (s : State) (p q n slot : Nat) (pq : PacketQueue) (bs : List Byte) (w : WorkQueue), s.packetAt p q = some (pq, n, slot, bs) → fromBytes (bs.take 1) = 3 →
    packetOk bs = true → (s.part p).queues.get (fromBytes ((bs.drop 8).take 2)) = some w →
    (w.items.length < w.cap → ∃ t, exec (.workItemPacket p q) s = .next t ∧ t.groups = s.groups
      ∧ (t.part p).queues.get (fromBytes ((bs.drop 8).take 2)) = some { w with items := w.items ++ [BitVec.ofNat 64 (fromBytes ((bs.drop 16).take 8))] })
    ∧ (w.cap ≤ w.items.length → exec (.workItemPacket p q) s = .next s))
  ∧ (∀ (s : State) (id : Nat) (l : Launch), s.launches.get id = some l → l.recorded = false →
    ((∃ e, l.ended = some e) ∨ (l.ended = none ∧ s.launchDone id l = true) →
      ∃ t l', exec (.launchComplete id) s = .next t ∧ t.launches.get id = some l' ∧ l'.recorded = true
        ∧ l'.ended = some (l.ended.getD (0, 0)) ∧ ∀ r ∈ t.blocks.rows, r.2.launch ≠ id)
    ∧ (l.ended = none → s.launchDone id l = false → exec (.launchComplete id) s = .next s))
  ∧ (∀ (s : State) (p lid cl : Nat) (pl : Placed) (l : Launch), s.admission p = some (.fresh lid, cl, pl) → s.launches.get lid = some l →
    (l.hdr.tile = 0 → ∃ t bid b l', exec (.blockAdmission p) s = .next t ∧ t = s.admitBlock lid l pl ∧ t.launches.get lid = some l' ∧ l'.nextBlock = l.nextBlock + 1
      ∧ t.blocks.get bid = some b ∧ b.launch = lid ∧ b.index = l.nextBlock ∧ b.workid = blockWork l.hdr l.nextBlock ∧ b.cores = pl.cores ∧ b.life = .resident)
    ∧ (l.hdr.tile ≠ 0 → ∃ t ts l', exec (.blockAdmission p) s = .next t ∧ t = s.admitSet lid l cl pl ∧ t.launches.get lid = some l' ∧ l'.nextBlock = l.nextBlock + pl.cores.length
      ∧ t.sets.get s.uid = some ts ∧ ts.launch = lid ∧ ts.cluster = cl ∧ ts.blocks.length = pl.cores.length))
  ∧ (∀ (s : State) (b cl : Nat) (pl : Placed) (l : Launch), s.launchOf b = some l → s.admission l.part = some (.restart b, cl, pl) →
    ((∀ y ts, s.blocks.get b = some y → y.set.bind s.sets.get = some ts → ts.again = false) →
      ∃ t y, exec (.blockRestart b) s = .next t ∧ t = s.restartBlock b l pl ∧ t.blocks.get b = some y ∧ y.life = .resident ∧ y.cores = pl.cores ∧ y.bars = Table.empty)
    ∧ ∀ y ts, s.blocks.get b = some y → y.set.bind s.sets.get = some ts → ts.again = true →
      ∃ t, exec (.blockRestart b) s = .next t ∧ t = (s.moveUnit b l cl pl State.restartBlock).restartSeq ts l)
  ∧ ∀ (s : State) (b cl : Nat) (pl : Placed) (l : Launch) (y : Block), s.launchOf b = some l → s.admission l.part = some (.resume b, cl, pl) → s.blocks.get b = some y →
    ∃ t z, exec (.resume b) s = .next t ∧ t = s.moveUnit b l cl pl State.backBlock ∧ (y.set = none → t.blocks.get b = some z ∧ z.cores = pl.cores)

/-- 09 R240, 10 R265, R273, 06 R154, R157 to R159, R166 and R169: a copy from window to window performs in the block's store and leaves the table; a job whose round has closed completes, its class falling; the oldest tile instruction executes and leaves its queue; an undecided xfetch takes its fallback at the deadline, counted and marked, or its primary within it, counted. That a job performs in one move, and that the first of the two ends of an xfetch decides, are the model's choice (log 3 and 54). -/
def Obligations.JobEvents : Prop :=
  (∀ (s : State) (id : Nat) (j : Job) (c : Ctx) (b : Block) (w x : Window), s.jobs.get id = some j → j.kind = .copy → j.life = .queued →
    s.groupCtx j.group = some c → s.running = true → (s.part j.part).frozen = false → s.jobReady id j = true → c.g.block = j.block →
    s.blocks.get j.block = some b → j.src = some w → j.dst = some x → w.mapped = false → x.mapped = false →
    b.poisonIn (w.off + j.vals.getD 0 0) (j.vals.getD 1 0) = none →
    ∃ t y, exec (.jobPerform id) s = .next t ∧ (s.jobs.wf = true → t.jobs.get id = none) ∧ t.mem = s.mem ∧ t.blocks.get j.block = some y
      ∧ y.store = (b.writeBytes (x.mode == 1) (x.off + j.vals.getD 2 0) (b.bytes (w.off + j.vals.getD 0 0) (j.vals.getD 1 0))).store)
  ∧ (∀ (s : State) (id n : Nat) (j : Job) (g : Group), s.jobs.get id = some j → j.kind = .copy ∨ j.kind = .gcopy ∨ j.kind = .bload ∨ j.kind = .xfetch →
    j.life = .performed n → n ≤ (s.part j.part).round → (s.part j.part).frozen = false → s.groups.get j.group = some g →
    ∃ t h, exec (.jobComplete id) s = .next t ∧ (s.jobs.wf = true → t.jobs.get id = none) ∧ t.mem = s.mem ∧ t.groups.get j.group = some h
      ∧ SameRegs g h ∧ (∀ f ∈ h.flights, f.id = j.flight → f.done = true) ∧ OtherGroups s t j.group)
  ∧ (∀ (s : State) (i : Nat) (ts : TileSet) (k : TileCmd) (ks : List TileCmd) (c : Ctx), s.sets.get i = some ts → ts.queue = k :: ks →
    s.groupCtx ts.seqr = some c → ts.ended = false → c.b.off = false → c.b.hold = none → s.bufferReady i k = true →
    k.op = 0xC5 ∨ k.op = 0xC9 ∨ (k.op = 0xC8 ∧ ∀ e ∈ ts.engines, e.results.length + drainSize k.func ≤ 32) →
    ∃ t h, exec (.tileInstructionComplete i) s = .next t ∧ t.mem = s.mem ∧ t.blocks = s.blocks ∧ t.groups.get ts.seqr = some h
      ∧ SameRegs c.g h ∧ (∀ f ∈ h.flights, f.id = k.flight → f.done = true)
      ∧ t.sets.get i = some { (if k.op = 0xC5 then ts.doAccz k else if k.op = 0xC9 then ts.doChain k
          else ts.doDrain k c.l.hdr.seed.toNat (workId c.l.hdr c.b.workid 0 0)) with queue := ks })
  ∧ (∀ (s : State) (id : Nat) (j : Job) (c : Ctx) (ts : TileSet), s.openFetch id = some (j, c) → s.sets.get (j.vals.getD 3 0) = some ts →
    (s.parts.get j.part).isSome = true →
    ∃ t ts', exec (.xfetchDeadline id) s = .next t ∧ t.sets.get (j.vals.getD 3 0) = some ts' ∧ j.vals.getD 5 0 ∈ ts'.marks
      ∧ ((t.part j.part).expert (j.vals.getD 5 0)).fell = min (((s.part j.part).expert (j.vals.getD 5 0)).fell + 1) (2 ^ 32 - 1))
  ∧ ∀ (s u : State) (id : Nat) (j : Job) (c : Ctx), s.openFetch id = some (j, c) → j.vals.getD 6 0 ≠ 0 → s.landed id j c = some u →
    (s.parts.get j.part).isSome = true → c.repeats = false →
    ∃ t, exec (.xfetchPrimaryLanded id) s = .next t ∧ t.mem = s.mem ∧ (s.jobs.wf = true → t.jobs.get id = none)
      ∧ ((t.part j.part).expert (j.vals.getD 5 0)).fetched = min (((s.part j.part).expert (j.vals.getD 5 0)).fetched + j.vals.getD 1 0) (2 ^ 48 - 1)

/-- 07 R197, R201 to R203, 13 R298, R299 and R310: a block whose trigger holds stops issuing, and is captured once nothing of it is under way; a handler that has used its budget ends the launch; the pager's answers queue the blocks that waited; a watchdog and a stall, of entitled time alone, are counted and told; a partition resumed has its fragments ready from then on; and a period gives each device its balance. 13 R302 to R304: an idle cluster that the lender's head block does not need joins the borrower's map; a reclaim takes an idle one back at once, and one that holds blocks goes with the last of them; and the lender reclaims by itself where its head block fits no other way. Balances and triggers are the model's reading (log 39 and 42), and so are the list of fired blocks (log 40) and the clean end of a reclaim (log 43); the snapshot of a stall is its choice (log 41), and what a gate's launch counts for (log 71); whether a core's issue is withheld is a free value (log 42). -/
def Obligations.SchedulerEvents : Prop :=
  ((∀ (s : State) (bid k : Nat) (b : Block) (l : Launch), s.blocks.get bid = some b → s.launchOf bid = some l → b.preemptible = true → b.hold = none → b.set = none →
    s.triggered bid k b l = true →
    (s.jobs.wf = true → (∃ r ∈ s.jobs.rows, r.2.block = bid ∧ r.2.kind ≠ .coll ∧ r.2.life ≠ .queued) → ∃ t y, exec (.preemption bid k) s = .next t ∧ t.blocks.get bid = some y ∧ y.life = .resident ∧ y.quiesce = some k)
    ∧ (s.jobs.rows = [] → s.gateOps.rows = [] → (∀ r ∈ s.groups.rows, r.2.block = bid → r.2.flights = [] ∧ r.2.life ≠ .leaving ∧ ∀ n, r.2.life ≠ .publishing n) →
      ∃ t y, exec (.preemption bid k) s = .next t ∧ t.blocks.get bid = some y ∧ y.quiesce = none ∧ y.trigger = k
        ∧ (y.life = .saved ∨ (y.life = .quiesced ∧ l.hdr.handler ≠ 0)) ∧ y.store = b.store))
  ∧ (∀ (s : State) (bid : Nat) (b : Block) (l : Launch), s.blocks.get bid = some b → b.life = .quiesced → s.launches.get b.launch = some l → l.ended = none →
    ∃ t x, exec (.preemptTimeout bid) s = .next t ∧ t.launches.get b.launch = some x ∧ x.ended = some (0x05, codeNum .preemptTimeout))
  ∧ (∀ (s : State) (bid : Nat) (b : Block), s.blocks.get bid = some b → b.preemptible = true → b.hold = none → b.set = none →
    ∃ t y, exec (.hostPreempt bid) s = .next t ∧ t.blocks.get bid = some y ∧ y.quiesce = some 5 ∧ y.store = b.store ∧ t.mem = s.mem)
  ∧ (∀ (s : State) (p n bid : Nat) (q : PageReq) (b : Block) (l : Launch), (s.part p).pageReqs.get n = some q → s.blocks.get bid = some b → s.blocks.wf = true →
    (s.part p).pageReqs.wf = true → b.life = .waitPage → b.pages = [n] → s.launches.get b.launch = some l → l.part = p →
    (∃ t y, exec (.resident p n) s = .next t ∧ (t.part p).pageReqs.get n = none ∧ t.blocks.get bid = some y ∧ y.life = .queued ∧ y.pages = [] ∧ y.declined = b.declined)
    ∧ ∃ t y, exec (.declined p n) s = .next t ∧ (t.part p).pageReqs.get n = none ∧ t.blocks.get bid = some y ∧ y.life = .queued ∧ y.pages = [] ∧ y.declined = q.va :: b.declined)
  ∧ (∀ (s : State) (u : Nat) (c : Ctx), s.groupCtx u = some c → s.watchable c.g c.b c.l = true → (s.parts.get c.l.part).isSome = true →
    (s.part c.l.part).clusterFires.getD (c.g.core / 4) 0 + 1 < (s.part c.l.part).wdCluster →
    (s.withheld c.g.core = true → exec (.groupWatchdogFiring u) s = .next s)
    ∧ (s.withheld c.g.core = false → ∃ t, exec (.groupWatchdogFiring u) s = .next t ∧ t.groups = s.groups ∧ t.blocks = s.blocks
      ∧ (t.part c.l.part).clusterFires.getD (c.g.core / 4) 0 = (s.part c.l.part).clusterFires.getD (c.g.core / 4) 0 + 1
      ∧ (t.part c.l.part).lastFired.getLast? = some c.g.block))
  ∧ (∀ (s : State) (p : Nat), (s.parts.get p).isSome = true → (s.part p).frozen = false → s.anyHeld p = false → s.monitored p = true →
    (s.entitled p = true → ∃ t, exec (.stall p) s = .next t ∧ (t.part p).frozen = true ∧ t.groups = s.groups ∧ t.sent = s.sent ++ [.bytes false (s.snapshot p)])
    ∧ (s.entitled p = false → exec (.stall p) s = .next s))
  ∧ (∀ (s : State) (p : Nat), (s.part p).frozen = true →
    ∃ t, exec (.partitionResume p) s = .next t ∧ t.parts.get p = some { s.part p with frozen := false } ∧ ({ t with parts := s.parts, groups := s.groups } : State) = s
      ∧ ∀ u g, s.groups.get u = some g → t.groups.get u = some (if s.partOf u = some p then { g with frags := g.frags.map fun _ (f : Frag) => { f with ready := s.tick } } else g))
  ∧ (∀ (s : State) (p v : Nat), (s.parts.get p).isSome = true → v < 8 → (s.part p).vdevs.getLsbD v = true →
    ∃ t, exec (.allowancePeriod p) s = .next t ∧ ({ t with parts := s.parts } : State) = s
      ∧ ((t.part p).vd v).idle = ((s.part p).vd v).idle ∧ (s.active p v = false → ((t.part p).vd v).balance = ((s.part p).vd v).balance)
      ∧ (s.active p v = true → ((t.part p).vd v).balance ≤ ((s.part p).vd v).cap * s.logicalCores p * 10
        ∧ ((∀ w, w < 8 → w ≠ v → (s.part p).vdevs.getLsbD w = true → s.active p w = false) → ((s.part p).vd v).cap = 100 → 0 < ((s.part p).vd v).weight →
          ((t.part p).vd v).balance = min (((s.part p).vd v).balance + 1000 * s.logicalCores p) (1000 * s.logicalCores p))))
  ∧ ∀ (s : State) (p v bid : Nat) (b : Block) (l : Launch), ((s.part p).vd v).balance ≤ 0 → s.blocks.get bid = some b → s.launches.get b.launch = some l →
    l.part = p → l.hdr.vdev = v → b.preemptible = true → b.hold = none → b.set = none →
    ∃ t y, exec (.allowanceExhausted p v) s = .next t ∧ t.blocks.get bid = some y ∧ y.quiesce = some 0 ∧ y.store = b.store ∧ t.mem = s.mem)
  ∧ ((∀ (s : State) (p cl : Nat), (s.part p).lendOn = true → (s.part p).owns cl = true → s.lentAway p cl = false → (s.part p).lendTo ≠ p →
    (s.part (s.part p).lendTo).enable = true → s.clusterBusy cl = false → s.needs p cl = false →
    ∃ t, exec (.lend p cl) s = .next t ∧ ({ t with parts := s.parts } : State) = s ∧ cl ∈ (t.part (s.part p).lendTo).lent
      ∧ ∀ q, q ≠ (s.part p).lendTo → cl ∉ (t.part q).lent)
  ∧ (∀ (s : State) (p cl : Nat), (s.part p).owns cl = true → s.lentAway p cl = true →
    (s.clusterBusy cl = false → ∃ t, exec (.reclaim p cl) s = .next t ∧ ∀ q, cl ∉ (t.part q).lent)
    ∧ (s.clusterBusy cl = true → ∀ q, q ≠ p → cl ∈ (s.part q).lent → ∃ t, exec (.reclaim p cl) s = .next t ∧ cl ∈ (t.part q).lent ∧ cl ∈ (t.part q).reclaim))
  ∧ ∀ (s : State) (p cl : Nat) (h : Head), (s.part p).autoReclaim = true → (∀ x, x < Config.clusters → ((s.part p).owns x && s.lentAway p x) = decide (x = cl)) →
    cl < Config.clusters → s.head p 0 = some h → (∀ v, 0 < v → s.head p v = none) → s.placeHead h = none →
    (((({ s with blocks := s.blocks.filter fun _ b => !(b.onCores && b.cores.any fun c => c / 4 == cl) } : State).unlend cl)).placeHead h).isSome = true →
    ∃ t, exec (.autoReclaim p) s = .next t ∧ exec (.reclaim p cl) s = .next t ∧ (s.clusterBusy cl = false → ∀ q, cl ∉ (t.part q).lent))

/-- 13 R291, R305, R306, R308, R309, R312, 10 R275, 06 R164, 07 R182, 16 R344, 17 R382, 13 R296: what the drivers write: a record, a range, an attribute that an invalidation puts into effect, rings and queues, an expert's location, the check area, counters, and tenant keys. Each takes its value where its rules hold, and nothing else of the partition's record. What goes through the function of a disabled partition is answered Unsupported Request (22 R427). The rules on records, ranges and attributes are the model's reading (log 45 to 48), and so are the overlap of ranges (log 64), physical addresses of descriptors and rings, and what goes through a virtual function (log 28). -/
def Obligations.ConfigurationEvents : Prop :=
  (∀ (s : State) (p : Nat) (conf : PartConfig), p ≤ 15 → confOk conf = true → s.confFits p conf = true → s.partBusy p = false →
    ∃ t q, exec (.partitionConfigWrite p conf) s = .next t ∧ t.parts.get p = some q ∧ q.enable = conf.enable ∧ q.base = conf.base ∧ q.limit = conf.limit
      ∧ q.colours = conf.colours ∧ q.vdevs = conf.vdevs ∧ q.lendOn = conf.lendOn ∧ q.lendTo = conf.lendTo ∧ q.autoReclaim = conf.autoReclaim ∧ q.status = true
      ∧ q.ranges = (s.part p).ranges
      ∧ ((s.part p).roundOpen = false → t.mem = s.mem ∧ t.groups = s.groups ∧ ∀ r, r ≠ p → t.parts.get r = s.parts.get r))
  ∧ (∀ (s : State) (p i : Nat) (e : BitVec 128) (r : RangeEntry), rangeOf e = some r → p ≤ 15 → i ≤ 15 → (s.parts.get p).isSome = true → s.partBusy p = false →
    (r.valid = true → r.inPlace = true ∧ (s.part p).rangeClear i r = true ∧ s.rangeFits p r = true) →
    ∃ t, exec (.rangeTableWrite p i e) s = .next t ∧ (t.part p).ranges = (s.part p).ranges.put i r ∧ (t.part p).status = true ∧ ((s.part p).roundOpen = false → t.mem = s.mem))
  ∧ (∀ (s : State) (p v i : Nat) (e : BitVec 128) (r : Region), regionOf e = some r → v ≤ 7 → i ≤ 15 → (s.part p).enable = true →
    ∃ t, exec (.regionAttributeWrite p v i e) s = .next t ∧ ({ t with parts := s.parts } : State) = s
      ∧ ((t.part p).vd v).written.get i = some r ∧ ((t.part p).vd v).regions = ((s.part p).vd v).regions)
  ∧ (∀ (s : State) (p v : Nat) (range : Option (Nat × Nat × Nat)), (s.parts.get p).isSome = true → s.drained p v range = true →
    ∃ t, exec (.tlbInvalidation p v range) s = .next t ∧ t.mem = s.mem
      ∧ (∀ k es, t.tlbCore.get k = some es ∨ t.tlbDie.get k = some es → ∀ e ∈ es, e.part = p → e.vdev = v → pageNamed range e.page e.shift = false)
      ∧ (range = none → ((s.part p).vd v).written.wf = true → ∀ k r, ((s.part p).vd v).written.get k = some r → ((t.part p).vd v).regions.get k = some r))
  ∧ (∀ (s : State) (p base n : Nat), 16 ≤ n → n ≤ 4096 → (s.parts.get p).isSome = true →
    ∃ t r, exec (.pageRequestRingRegister p base n) s = .next t ∧ (t.part p).pageRing = some r ∧ r.base = base ∧ r.entries = n)
  ∧ (∀ (s : State) (p q a : Nat), q < 64 → a % 128 = 0 → isDevice a = true → (s.part p).enable = true →
    let d : PacketQueue := { desc := a, open_ := [], ready := Table.empty, taken := 0, wants := Table.empty }
    ringSize (s.queueField d 0x10 4) = true → ringSize (s.queueField d 0x14 4) = true → s.queueField d 0 16 < 2 ^ 80 → s.queueField d 0 16 % (64 * s.queueField d 0x10 4) = 0 →
    s.queueField d 0x28 16 < 2 ^ 80 → s.queueField d 0x28 16 % (16 * s.queueField d 0x14 4) = 0 → s.queueField d 0x40 64 = 0 →
    ∃ t, exec (.packetQueueRegister p q a) s = .next t ∧ ({ t with parts := s.parts } : State) = s ∧ (t.part p).packets = (s.part p).packets.put q d)
  ∧ (∀ (s : State) (p q n : Nat), q < 256 → 64 ≤ n → n ≤ 65536 → (s.part p).enable = true →
    ∃ t w, exec (.workQueueCapacity p q n) s = .next t ∧ (t.part p).queues.get q = some w ∧ w.cap = n
      ∧ w.items = (((s.part p).queues.get q).map (·.items)).getD [] ∧ t.mem = s.mem)
  ∧ (∀ (s : State) (p i : Nat) (e : BitVec 512) (x : Expert), i ≤ 4095 → expertOf e ((s.part p).expert i) = some x → (s.parts.get p).isSome = true →
    (x.valid = true → (s.part p).deviceResident x.fallback.toNat = true) →
    ∃ t, exec (.expertTableWrite p i e) s = .next t ∧ ({ t with parts := s.parts } : State) = s ∧ (t.part p).expert i = x
      ∧ x.routed = ((s.part p).expert i).routed ∧ x.fetched = ((s.part p).expert i).fetched ∧ x.fell = ((s.part p).expert i).fell)
  ∧ (∀ (s : State) (p base : Nat), (s.parts.get p).isSome = true →
    (∃ e ∈ (s.part p).rangesOver base, e.kind = 0) → (∃ e ∈ (s.part p).rangesOver (base + 2 ^ 26 - 1), e.kind = 0) →
    ∃ t, exec (.checkAreaRegister p base (2 ^ 26)) s = .next t ∧ ({ t with parts := s.parts } : State) = s
      ∧ (t.part p).checkBase = base ∧ (t.part p).checkBytes = 2 ^ 26)
  ∧ (∀ (s : State) (p a : Nat) (r : Ring), s.ringAt a = some r → (s.parts.get p).isSome = true →
    ((s.part p).enable = true → ∃ t, exec (.serviceRingRegister p a) s = .next t ∧ ({ t with parts := s.parts } : State) = s ∧ (t.part p).svcRing = some r)
    ∧ ∃ t, exec (.adminQueueRegister a) s = .next t ∧ ({ t with adminRing := s.adminRing } : State) = s ∧ t.adminRing = some r)
  ∧ (∀ (s : State) (p i n : Nat), (s.part p).enable = true →
    (∃ t, exec (.counterWrite p 0x050 i 0) s = .next t ∧ ({ t with parts := s.parts } : State) = s ∧ (t.part p).pageCount = 0)
    ∧ (∃ t, exec (.counterWrite p 0x060 i 0) s = .next t ∧ ({ t with parts := s.parts } : State) = s ∧ ((t.part p).expert i).routed = 0 ∧ ((t.part p).expert i).fetched = ((s.part p).expert i).fetched)
    ∧ (1 ≤ n → n < 2 ^ 32 → ∃ t, exec (.counterWrite p 0x030 i n) s = .next t ∧ ({ t with parts := s.parts } : State) = s ∧ (t.part p).wdGroup = n)
    ∧ (n < 16 → ∃ t, exec (.counterWrite p (0x010 + n) i 0) s = .next t ∧ ({ t with parts := s.parts } : State) = s ∧ (t.part p).errs.getD n 0 = 0))
  ∧ (∀ (s : State) (p : Nat), (s.part p).enable = false → let o : Out := .next { s with sent := s.sent ++ [.unsupported] }
    (∀ q a, exec (.packetQueueRegister p q a) s = o) ∧ (∀ q n, exec (.workQueueCapacity p q n) s = o) ∧ (∀ v i e, exec (.regionAttributeWrite p v i e) s = o)
    ∧ (∀ a, exec (.serviceRingRegister p a) s = o) ∧ ∀ r i n, exec (.counterWrite p r i n) s = o)
  ∧ ∀ (s : State) (p v : Nat) (key : BitVec 256), p ≤ 15 → v ≤ 7 →
    ((s.part p).enable = true → (s.part p).vdevs.getLsbD v = true →
      ∃ t, exec (.tenantKeyLoad p v key) s = .next t ∧ ({ t with keys := s.keys } : State) = s ∧ t.keys.get (8 * p + v) = some key)
    ∧ ∃ t, exec (.tenantKeyClear p v) s = .next t ∧ ({ t with keys := s.keys } : State) = s ∧ (s.keys.wf = true → t.keys.get (8 * p + v) = none)

/-- 09 R238, 10 R262 and 17 R370: what the host and the peers do to memory: a write to a line that no partition holds stands there at once, one that a partition holds is handed to its open round; a read answers the newest closed version with its poison; a peer's atomic is performed and answers the old value. Host memory reads zero before its first write by the model's choice (log 1). -/
def Obligations.HostAndPeerEvents : Prop :=
  (∀ (s : State) (a : Nat) (bs : List Byte), bs ≠ [] → a % 128 + bs.length ≤ 128 → isDevice a = true → isDevice (a + bs.length - 1) = true → s.codeProtected a = false →
    (s.holders a = [] → ∃ t, exec (.hostMemWrite a bs) s = .next t ∧ exec (.peerWrite a bs) s = .next t ∧ t.mem = Memory.writeN s.mem a bs ∧ t.groups = s.groups)
    ∧ ∀ p, s.holders a = [p] → ∃ t h, exec (.hostMemWrite a bs) s = .next t ∧ exec (.peerWrite a bs) s = .next t ∧ t.mem = s.mem ∧ t.groups = s.groups
        ∧ h ∈ t.handed ∧ h.part = p ∧ h.line = a / 128 ∧ h.ident = 1024 ∧ h.mask = byteMask (a % 128) bs.length ∧ h.data = lineWith (a % 128) bs)
  ∧ (∀ (s : State) (a n : Nat), isDevice a = true → isDevice (a + n - 1) = true →
    ∃ t, exec (.hostMemRead a n) s = .next t ∧ exec (.inboundPeerRead a n) s = .next t ∧ ({ t with sent := s.sent } : State) = s
      ∧ t.sent = s.sent ++ [.bytes ((List.range n).any fun i => (s.newest ((a + i) / 128)).2)
          ((List.range n).map fun i => byteOf (s.newest ((a + i) / 128)).1 ((a + i) % 128))])
  ∧ (∀ (s : State) (a : Nat) (bs : List Byte), bs ≠ [] → a % 128 + bs.length ≤ 128 → isHost a = true → isHost (a + bs.length - 1) = true → s.mem.wf = true → s.codeProtected a = false →
    ∃ t, exec (.hostLineSnoop a bs) s = .next t ∧ t.groups = s.groups ∧ (∀ i, i < bs.length → Memory.read t.mem (a + i) = bs.getD i 0)
      ∧ ∀ x, x < a ∨ a + bs.length ≤ x → Memory.read t.mem x = Memory.read s.mem x)
  ∧ ∀ (s : State) (a : Nat) (op : BitVec 6) (wide : Bool) (x : Nat), isDevice a = true → a % (if wide then 8 else 4) = 0 →
    aopOk 0 op.toNat (if wide then .b64 else .b32) = true → s.poison.contains (a / 128) = false → s.codeProtected a = false → s.holders a = [] →
    let n := if wide then 8 else 4
    ∃ t, exec (.inboundPeerAtomic a op wide x) s = .next t ∧ t.groups = s.groups
      ∧ t.mem = Memory.writeN s.mem a (toBytes n (atomNew 0 op.toNat n (fromBytes (Memory.readN s.mem a n)) x))
      ∧ t.sent = s.sent ++ [.bytes false (toBytes n (fromBytes (Memory.readN s.mem a n)))]

/-- 14 R314, R315, R322, R323, R328 and R329: the host's gate commands, each where its rule holds; and a signal with the right on a gate without a rate, which adds its operand to the value, raises the sequence and stamps the gate with the next number of the device, and a wait that its value has passed, whose fragment has its result block. 14 R317: a bucket tick of the device timebase, at its instant, sets the level of every gate whose rate is not 0 to min(level + rate, depth); a gate of rate 0, and one with queued signals, which are served then, apart. Which parties an EXPORT sends away and an IMPORT brings back is the model's reading (log 67). The rules of SETACL, SETRATE and IMPORT are the model's reading (log 26 and 67). -/
def Obligations.GateEvents : Prop :=
  ((∀ (s : State) (id : Nat) (w : BitVec 1024) (g : Gate), id < 4096 → s.gates.get id = none → gateOf w = some g →
    (∃ t, exec (.gateCreate id w) s = .next t ∧ ({ t with gates := s.gates } : State) = s ∧ t.gates.get id = some { g with level := g.depth, stamp := 0, deferred := 0 })
    ∧ ∀ qs : List (Nat × Nat), qs.length ≤ 256 → ∃ t, exec (.gateImport id w qs) s = .next t ∧ t.mem = s.mem ∧ t.blocks = s.blocks
      ∧ (∀ p ∈ g.listed, (s.part p).moved = true → (t.part p).moved = false ∧ ∀ r ∈ t.launches.rows, r.2.part = p → r.2.mark = 0)
      ∧ ((∀ p ∈ g.listed, (s.part p).moved = false) → ({ t with gates := s.gates } : State) = s)
      ∧ t.gates.get id = some { g with stamp := 0, frozen := true, queue := qs.map fun q => { addend := q.1 % 2 ^ 64, group := 0, part := q.2 % 16 } })
  ∧ (∀ (s : State) (id : Nat) (g : Gate), s.gates.get id = some g →
    (∀ acl, aclOk acl g.owner = true → ∃ t, exec (.gateSetAcl id acl) s = .next t ∧ (s.adminRing = none → t.mem = s.mem) ∧ t.gates.get id = some { g with acl := acl })
    ∧ (∀ rate depth, rate < 2 ^ 16 → depth < 256 → (rate = 0 ∨ depth ≠ 0) → g.queue = [] → (∀ r ∈ s.gateOps.rows, r.2.gate = id → r.2.seen = false) →
      ∃ t, exec (.gateSetRate id rate depth) s = .next t ∧ ({ t with gates := s.gates } : State) = s
        ∧ t.gates.get id = some { g with rate := rate, depth := depth, level := min g.level depth })
    ∧ (∃ t, exec (.deferredCountClear id) s = .next t ∧ ({ t with gates := s.gates } : State) = s ∧ t.gates.get id = some { g with deferred := 0 })
    ∧ (g.frozen = false →
      (∃ t, exec (.gateFreeze id) s = .next t ∧ ({ t with gates := s.gates } : State) = s ∧ t.gates.get id = some { g with frozen := true })
      ∧ ∃ t, exec (.gateDestroy id) s = .next t ∧ (s.adminRing = none → t.mem = s.mem) ∧ (s.gates.wf = true → t.gates.get id = none))
    ∧ (g.frozen = true →
      ((∀ r ∈ s.gateOps.rows, r.2.gate = id → r.2.op = 0xE8 → r.2.seen = false) → ∃ t, exec (.gateExport id) s = .next t ∧ ({ t with gates := s.gates, sent := s.sent, parts := s.parts } : State) = s ∧ (∀ p, ({ (t.part p) with moved := (s.part p).moved } : Part) = s.part p) ∧ (s.gates.wf = true → t.gates.get id = none)
        ∧ t.sent = s.sent ++ [.bytes false ({ g with stamp := 0 } : Gate).bytes, .reply (g.queue.flatMap fun q => [q.addend, q.part])])
      ∧ (g.queue = [] → (∀ r ∈ s.gateOps.rows, r.2.gate = id → r.2.seen = false) →
        ∃ t, exec (.gateThaw id) s = .next t ∧ (s.adminRing = none → t.mem = s.mem) ∧ t.gates.get id = some { g with frozen := false })))
  ∧ ∀ (s : State) (op : Nat) (o : GateOp) (g : Gate) (u : Group) (f : Frag), s.gateOps.get op = some o → s.gates.get o.gate = some g → g.allows o = true →
    g.frozen = false → g.queue = [] → s.groups.get o.group = some u → u.frags.get o.frag = some f → f.pend = .gate op →
    (∀ r ∈ s.launches.rows, (r.2.hdr.prereqs.any fun p => p.kind == 2 && !p.held) = false) →
    (o.op = 0xE8 → g.rate = 0 →
      ∃ t h, exec (.gateServerPerform op) s = .next t ∧ t.mem = s.mem ∧ t.gateStamp = s.gateStamp + 1
        ∧ t.gates.get o.gate = some { g with value := (g.value + o.operand) % 2 ^ 64, seq := (g.seq + 1) % 2 ^ 64, stamp := s.gateStamp + 1 }
        ∧ t.groups.get o.group = some h ∧ SameRegs u h
        ∧ h.frags.get o.frag = some { f with pend := .done o.op (gateResult
            { g with value := (g.value + o.operand) % 2 ^ 64, seq := (g.seq + 1) % 2 ^ 64, stamp := s.gateStamp + 1 } o 0 0 false) })
    ∧ (o.op = 0xE9 ∨ o.op = 0xEA → passed g.value o.operand = true →
      ∃ t h, exec (.gateServerPerform op) s = .next t ∧ t.mem = s.mem ∧ t.gates = s.gates ∧ t.groups.get o.group = some h ∧ SameRegs u h
        ∧ h.frags.get o.frag = some { f with pend := .done o.op (gateResult g o 0 0 true) }))
  ∧ (∀ (s : State), ∃ t, exec .bucketTick s = .next t ∧ t.timebase = s.timebase + 1000
    ∧ ∀ id g, s.gates.wf = true → s.gates.get id = some g → g.queue = [] →
      t.gates.get id = some (if g.rate = 0 then g else { g with level := min (g.level + g.rate) g.depth }))

/-- 16 R339, R341, R350, R351, R353, R355 and R356: a repeat run that is the head of its partition's order starts; two runs that agree decide a segment, and a first mismatch makes a keeping run pending; the core next in rotation goes under test, a pass ends the test, a failure takes the core out of the map with a suspect interval, and a launch of the abort priority ends one. What a failed test does to undecided runs is the model's reading (log 50). -/
def Obligations.KilnEvents : Prop :=
  (∀ (s : State) (key cl : Nat) (ch : Check) (l : Launch) (p : Placed), s.checks.get key = some ch → s.launches.get ch.launch = some l → l.hdr.tile = 0 →
    let cores := (ch.present.map fun x => p.cores.getD (l.coreOf p.cores.length x) 0).eraseDups
    (s.admission l.part = some (.run key 2, cl, p) → ∃ t ch' b, exec (.shadowRunStart key) s = .next t ∧ t.checks.get key = some ch'
      ∧ ch'.runs.get 2 = some { SegRun.idle with life := .running, block := s.uid, cores := cores } ∧ t.blocks.get s.uid = some b ∧ b.run = 2 ∧ b.seg = ch.seg ∧ b.launch = ch.launch)
    ∧ (s.admission l.part = some (.run key 3, cl, p) → ∃ t ch' b, exec (.keepingRunStart key) s = .next t ∧ t.checks.get key = some ch'
      ∧ ch'.runs.get 3 = some { SegRun.idle with life := .running, block := s.uid, cores := cores } ∧ t.blocks.get s.uid = some b ∧ b.run = 3 ∧ b.seg = ch.seg ∧ b.launch = ch.launch)
    ∧ (s.admission l.part = some (.run key 4, cl, p) → ∃ t ch' b, exec (.keepingRunStart key) s = .next t ∧ t.checks.get key = some ch'
      ∧ ch'.runs.get 4 = some { SegRun.idle with life := .running, block := s.uid, cores := cores } ∧ t.blocks.get s.uid = some b ∧ b.run = 4 ∧ b.seg = ch.seg ∧ b.launch = ch.launch))
  ∧ (∀ (s : State) (key : Nat) (ch : Check) (l : Launch), s.checks.get key = some ch → s.launches.get ch.launch = some l → ch.decided = false → l.ended = none →
    ch.runs.get 4 = none → (ch.run 1).over = true → (ch.run 2).over = true → s.cannotCheck ch l = false →
    ((ch.run 1).agrees (ch.run 2) = true → ∃ t ch', exec (.kilnDecision key) s = .next t ∧ t.checks.get key = some ch' ∧ ch'.decided = true
      ∧ t.counters.getD 5 0 = min (s.counters.getD 5 0 + 1) (2 ^ 64 - 1))
    ∧ ((ch.run 1).agrees (ch.run 2) = false → (ch.run 3).life = .none → ∃ t ch', exec (.kilnDecision key) s = .next t ∧ t.checks.get key = some ch' ∧ ch'.decided = false
      ∧ ch'.runs.get 3 = some { SegRun.idle with life := .pending }))
  ∧ (∀ (s : State) (die c : Nat), die ≤ 3 → s.running = true → (∀ i, i < 80 → (s.core (80 * die + i)).testing = false) →
    (s.rotationOrder die).find? (fun c => (s.core c).good) = some c →
    ∃ t, exec (.coneTest die) s = .next t ∧ t.groups = s.groups ∧ t.mem = s.mem ∧ (t.core c).testing = true ∧ (t.core c).targeted = false
      ∧ t.nextTest.get die = some ((c % 80 + 1) % 80))
  ∧ (∀ (s : State) (c : Nat), s.underTest c = true →
    (∃ t, exec (.coneTestComplete c true) s = .next t ∧ (t.core c).testing = false ∧ (t.core c).lastPass = s.now ∧ t.groups = s.groups)
    ∧ ∃ t, exec (.coneTestComplete c false) s = .next t ∧ (t.core c).scanFailed = true ∧ (t.core c).good = false
      ∧ (s.suspects.length < 64 → ∃ x, t.suspects = s.suspects ++ [x] ∧ x.core = c ∧ x.from_ = (s.core c).lastPass ∧ x.segs = (s.core c).held))
  ∧ ∀ (s : State) (c p v lid : Nat) (l : Launch), s.underTest c = true → (s.core c).targeted = false → (s.parts.get p).isSome = true → v < 8 →
    s.head p v = some (.fresh lid) → s.launches.get lid = some l → s.abortPrio ≤ l.hdr.priority → s.placeHead (.fresh lid) = none →
    ((s.updCore c fun r => { r with testing := false, aborted := min (r.aborted + 1) 255 }).placeHead (.fresh lid)).isSome = true →
    ∃ t, exec (.coneTestAbort c) s = .next t ∧ (t.core c).testing = false ∧ (t.core c).aborted = min ((s.core c).aborted + 1) 255
      ∧ t.nextTest.get (dieOfCore c) = some (c % 80) ∧ t.groups = s.groups ∧ t.mem = s.mem

/-- 17 R366, R368, R369 and R372, 16 R354: errors of the silicon: a corrected one is counted, a bank that passes its self-test is a demerit, an uncorrectable one is counted and poisons what it struck, a link that retrains keeps the lanes good now, and goes down without a good half. Fields that an error entry leaves open, and the owner of a bank, are the model's choice (log 52 and 69). -/
def Obligations.SiliconEvents : Prop :=
  (∀ (s : State) (core unit line : Nat) (dram : Bool),
    (∃ t, exec (.correctedError dram core unit line) s = .next t ∧ t.groups = s.groups
      ∧ t.counters.getD (if dram then 1 else 0) 0 = min (s.counters.getD (if dram then 1 else 0) 0 + 1) (2 ^ 64 - 1)
      ∧ (dram = false → t.bankTests = s.bankTests ++ [(core, unit)]) ∧ (dram = true → t.bankTests = s.bankTests ++ [(s.home line, 3)]))
    ∧ ∃ t, exec (.patrolScrub line true) s = .next t ∧ t.groups = s.groups ∧ t.counters.getD 1 0 = min (s.counters.getD 1 0 + 1) (2 ^ 64 - 1))
  ∧ (∀ (s : State) (core : Nat) (slice : Bool) (x : Nat × Nat), core < Config.cores → (s.bankTests.find? fun x => x.1 == core && bankTakes x.2 slice) = some x →
    (∃ t, exec (.bankSelfTest core slice true) s = .next t ∧ t.groups = s.groups ∧ t.bankTests = s.bankTests.erase x ∧ (t.core core).demerits = 0 :: (s.core core).demerits)
    ∧ (slice = false → ∃ t, exec (.bankSelfTest core slice false) s = .next t ∧ t.groups = s.groups ∧ t.bankTests = s.bankTests.erase x ∧ (t.core core).aside = true)
    ∧ (slice = true → (s.core core).slice = true → ∃ t, exec (.bankSelfTest core slice false) s = .next t ∧ t.bankTests = s.bankTests.erase x ∧ (t.core core).slice = false))
  ∧ (∀ (s : State) (u r lane : Nat) (g : Group), s.groups.get u = some g → lane < 128 →
    ∃ t h, exec (.uncorrectableError (.vreg u r lane)) s = .next t ∧ t.groups.get u = some h ∧ OtherGroups s t u
      ∧ h.vregs = g.vregs ∧ h.sregs = g.sregs ∧ h.masks = g.masks ∧ h.vpoison.get r = some (g.vpoison.getD r 0 ||| BitVec.ofNat 128 (2 ^ lane))
      ∧ t.counters.getD 2 0 = min (s.counters.getD 2 0 + 1) (2 ^ 64 - 1))
  ∧ (∀ (s : State) (line : Nat), ∃ t, exec (.uncorrectableError (.dram line true)) s = .next t ∧ t.groups = s.groups ∧ t.poison.contains line = true
      ∧ t.counters.getD 3 0 = min (s.counters.getD 3 0 + 1) (2 ^ 64 - 1))
  ∧ ∀ (s : State) (link : Nat) (lanes : BitVec 8), link ≤ 17 →
    ∃ t, exec (.linkRetrain link lanes) s = .next t ∧ t.groups = s.groups ∧ (t.link link).lanes = (s.link link).lanes &&& lanes
      ∧ (t.link link).losses = min ((s.link link).losses + 1) (2 ^ 32 - 1)
      ∧ ((s.link link).down = true → (t.link link).down = true)
      ∧ ((s.link link).down = false → (t.link link).down = !(decide ((s.link link).lanes &&& lanes &&& 0x0F = 0x0F) || decide ((s.link link).lanes &&& lanes &&& 0xF0 = 0xF0)))

/-- 22 R428 to R437 and 16 R357: the mailbox, whose commands answer 0x8001 where their conditions fail, the starts, the power states and the cooling. A start that verifies, a warm one with the checksum of its calibration, leaves a ready device with zero memory and no work; one that fails is counted, and the third in a row ends in maintenance. The list handle and the bytes of a segment list are the model's choice (log 13), and so are the calibration's checksum (log 7) and the forms of answers (log 6). A start is one move, its outcome an operand, and the third failure in a row ends in maintenance (log 55 to 57). -/
def Obligations.DeviceEvents : Prop :=
  (∀ (s : State),
    (∃ t, exec (.readKilsy none) s = .next t ∧ t = { s.woken with sent := s.sent ++ [.bytes false s.woken.kilsyRecord] })
    ∧ (∀ h x, s.suspects[h]? = some x → ∃ t, exec (.readKilsy (some h)) s = .next t ∧ t = { s.woken with sent := s.sent ++ [.bytes false (x.segs.flatMap SegName.bytes)] })
    ∧ (∀ h, s.suspects[h]? = none → exec (.readKilsy (some h)) s = .next { s.woken with sent := s.sent ++ [.returns 0x8001] })
    ∧ (∀ die, (∃ t, exec (.readErrors ⟨die, none⟩) s = .next t
        ∧ t = { s.woken with sent := s.sent ++ [.reply [s.overwritten.getD die 0], .bytes false ((s.errors.getD die []).flatMap (·.bytes))] })
      ∧ ∀ p, (s.part p).enable = true → ∃ t, exec (.readErrors ⟨die, some p⟩) s = .next t
        ∧ t = { s with sent := s.sent ++ [.bytes false ((s.errors.getD die []).filterMap fun e => e.seenBy p).flatten] }
      ∧ ∀ p, (s.part p).enable = false → exec (.readErrors ⟨die, some p⟩) s = .next { s with sent := s.sent ++ [.unsupported] })
    ∧ (∃ t, exec .deviceState s = .next t ∧ t = { s.woken with sent := s.sent ++ [.reply [s.dev.code]] })
    ∧ (s.dev ≠ .maintenance → (∃ t, exec .wake s = .next t ∧ ({ t with dev := s.dev } : State) = s ∧ (∀ a, s.dev = .power a → t.dev = .ready))
      ∧ ∀ n, n < 2 ^ 32 → ∃ t, exec (.setTolerance n none) s = .next t ∧ t.tolerance = n ∧ t.a4Region = none ∧ t.mem = s.mem)
    ∧ (s.dev = .maintenance → let o : Out := .next { s with sent := s.sent ++ [.returns 0x8001] }; exec .wake s = o ∧ ∀ n r, exec (.setTolerance n r) s = o)
    ∧ (s.dev ≠ .maintenance → (∃ r ∈ s.parts.rows, r.2.enable = true) → ∀ c, exec (.updateConfig c) s = .next { s.woken with sent := s.sent ++ [.returns 0x8001] })
    ∧ (s.dev = .maintenance ∨ (∀ r ∈ s.parts.rows, r.2.enable = false) → ∀ c, ∃ t, exec (.updateConfig c) s = .next t ∧ t.config = c ∧ t.mem = s.mem)
    ∧ (s.dev = .ready → s.idle = true → s.lowest ≠ 0 → ∃ t, exec .idlePowerEntry s = .next t ∧ t = { s with dev := .power s.lowest })
    ∧ (∀ a, s.dev = .power a → ∃ t, exec (.wakeEvent true) s = .next t ∧ t = { s with dev := .ready }))
  ∧ (∀ (s : State) (failing : List Nat) (ok : Bool),
    let good := ok && configKeeps s.config s.serial && Config.configVerifies s.config
    ∃ t, exec (.startCold failing ok) s = .next t
      ∧ (good = true → t.dev = .ready ∧ t.startFails = 0 ∧ t.launches = Table.empty ∧ t.blocks = Table.empty ∧ t.groups = Table.empty ∧ t.gates = Table.empty
        ∧ t.keys = Table.empty ∧ (∀ a, isDevice a = true → Memory.read t.mem a = 0) ∧ t.startCount = (s.startCount + 1) % 2 ^ 32 ∧ t.config = s.config
        ∧ t.calibSum = Config.calibrationSum t.calib)
      ∧ (good = false → t.startFails = s.startFails + 1 ∧ t.dev = (if s.startFails + 1 < 3 then .startingCold else .maintenance)))
  ∧ (∀ (s : State) (ok : Bool), s.startFails = 0 → s.dev ≠ .off →
    let good := ok && configKeeps s.config s.serial && Config.configVerifies s.config && s.calibSum == Config.calibrationSum s.calib
    ∃ t, exec (.startWarm ok) s = .next t
      ∧ (good = true → t.dev = .ready ∧ t.warm = true ∧ t.groups = Table.empty ∧ t.timebase = s.timebase ∧ t.calib = s.calib ∧ t.calibSum = s.calibSum ∧ (∀ a, isDevice a = true → Memory.read t.mem a = 0)
        ∧ ∀ c, c < Config.cores → (t.core c).aside = (s.core c).aside ∧ (t.core c).testedSince = false)
      ∧ (good = false → t.startFails = 1 ∧ t.dev = .startingCold))
  ∧ ∀ (s : State),
    (∃ t, exec .thermalThrottle s = .next t ∧ t.throttled = true ∧ t.groups = s.groups ∧ t.dev = s.dev)
    ∧ ∃ t, exec .thermalShutdown s = .next t ∧ t.dev = .off ∧ t.groups = Table.empty ∧ t.errors = s.errors ∧ t.counters = s.counters ∧ t.config = s.config

/-- 19 R393 to R404: a collective group's steps where each has its own effect: creation, heartbeats, suspicion at a member that is not the lowest believed live and at the one that is, with a quorum and without, proposal, acknowledgement, commit, lapse, packets, stale and differing ones among them, choices, those before their commit too, joins, and a completed operation's status record. The forms of fabric events and abandoned broadcasts are the model's (log 21 and 22); what keeps a join waiting, a replaced proposal, stale packets and early choices are its reading (log 44). -/
def Obligations.MembershipEvents : Prop :=
  (∀ (s : State) (id p slot v : Nat) (m : BitVec 256) (fabric : List Nat), id < 65536 → slot < 256 → p < 16 → s.colls.rows.length < 64 →
    ∃ t g, exec (.collGroupCreate id p slot v m fabric) s = .next t ∧ ({ t with colls := s.colls } : State) = s ∧ t.colls.get id = some g
      ∧ g.part = p ∧ g.slot = slot ∧ g.view = v % 2 ^ 32 ∧ g.members = m ∧ g.member = m.getLsbD slot ∧ g.opNum = 0 ∧ g.ops = Table.empty)
  ∧ (∀ (s : State) (id : Nat) (g : CollGroup), s.colls.get id = some g →
    (∀ d, ∃ t, exec (.expectedDigestSet id d) s = .next t ∧ ({ t with colls := s.colls } : State) = s ∧ t.colls.get id = some { g with digest := some d })
    ∧ (∀ view num live, g.view < view → (g.member = true ∨ g.joining = true ∨ live.getLsbD g.slot = false) → ∃ t h, exec (.commit id view num live) s = .next t ∧ (g.ops = Table.empty → t.mem = s.mem) ∧ t.colls.get id = some h ∧ h.view = view ∧ h.members = live
      ∧ h.member = live.getLsbD g.slot)
    ∧ ∀ view num live, g.member = false → g.joining = false → live.getLsbD g.slot = true → exec (.commit id view num live) s = .next s)
  ∧ (∀ (s : State) (id : Nat) (g : CollGroup), s.colls.get id = some g → g.member = true →
    (s.deep = false → ∃ t, exec (.heartbeat id) s = .next t ∧ ({ t with sent := s.sent } : State) = s
      ∧ t.sent = s.sent ++ ((slotsOf g.members).filter (· != g.slot)).map fun k => .heartbeat id k)
    ∧ (∀ slot, g.members.getLsbD slot = true →
      (∃ t, exec (.heartbeatReceived id slot) s = .next t ∧ ({ t with colls := s.colls } : State) = s ∧ t.colls.get id = some { g with heard := g.heard ||| slotBit slot })
      ∧ (g.heard.getLsbD slot = true → ∃ t, exec (.heartbeatTimeout id slot) s = .next t ∧ ({ t with colls := s.colls } : State) = s
        ∧ t.colls.get id = some { g with heard := g.heard &&& ~~~slotBit slot })
      ∧ (slot ≠ g.slot → g.suspects.getLsbD slot = false →
        let live := g.members &&& ~~~(g.suspects ||| slotBit slot)
        let next := { g with suspects := g.suspects ||| slotBit slot, proposed := none, pending := none, replaced := g.replaced || g.proposed.isSome }
        (lowSlot live ≠ g.slot → ∃ t, exec (.memberRemove id slot) s = .next t ∧ exec (.suspectReport id slot) s = .next t
          ∧ (g.heard.getLsbD slot = false → exec (.heartbeatTimeout id slot) s = .next t) ∧ ({ t with colls := s.colls, sent := s.sent } : State) = s
          ∧ t.colls.get id = some next ∧ t.sent = s.sent ++ [.suspect id slot])
        ∧ (lowSlot live = g.slot → quorum g.members live = true → g.view + 1 < 2 ^ 32 → live &&& ~~~slotBit g.slot ≠ 0 →
          ∃ t, exec (.memberRemove id slot) s = .next t ∧ exec (.suspectReport id slot) s = .next t
          ∧ t.colls.get id = some { next with proposed := some live, acked := (if g.mayAck g.slot live then some (g.slot, live) else g.acked), acks := (if g.mayAck g.slot live then slotBit g.slot else 0), pending := none }
          ∧ t.sent = s.sent ++ [.suspect id slot, .proposal id (g.view + 1) live])
        ∧ (lowSlot live = g.slot → quorum g.members live = false → g.view + 1 < 2 ^ 32 →
          ∃ t h, exec (.memberRemove id slot) s = .next t ∧ t.colls.get id = some h ∧ h.member = false ∧ h.lastReason = 5)))
    ∧ (∀ slot live, live.getLsbD g.slot = true → quorum g.members live = true → live &&& ~~~g.members = 0 → g.mayAck slot live = true →
      ∃ t, exec (.propose id slot (g.view + 1) live) s = .next t ∧ ({ t with colls := s.colls, sent := s.sent } : State) = s
        ∧ t.colls.get id = some { g with acked := some (slot, live), pending := none } ∧ t.sent = s.sent ++ [.ack id (g.view + 1) g.slot])
    ∧ (∀ slot live, live.getLsbD g.slot = true → quorum g.members live = true → live &&& ~~~g.members ≠ 0 → g.mayAck slot live = true →
      (s.collBusy id g = true → ∃ t, exec (.propose id slot (g.view + 1) live) s = .next t ∧ ({ t with colls := s.colls } : State) = s
        ∧ t.colls.get id = some { g with joiner := some (lowSlot (live &&& ~~~g.members)), pending := some (slot, live) })
      ∧ (s.collBusy id g = false → ∃ t, exec (.propose id slot (g.view + 1) live) s = .next t ∧ ({ t with colls := s.colls, sent := s.sent } : State) = s
        ∧ t.colls.get id = some { g with joiner := some (lowSlot (live &&& ~~~g.members)), acked := some (slot, live) } ∧ t.sent = s.sent ++ [.ack id (g.view + 1) g.slot]))
    ∧ (∀ slot live, g.mayAck slot live = false → exec (.propose id slot (g.view + 1) live) s = .next s)
    ∧ (g.replaced = true → ∀ slot, exec (.acknowledge id slot (g.view + 1)) s = .next s)
    ∧ (∀ slot live, g.proposed = some live → g.replaced = false → live.getLsbD g.slot = true →
      (live &&& ~~~(g.acks ||| slotBit slot) ≠ 0 → ∃ t, exec (.acknowledge id slot (g.view + 1)) s = .next t ∧ ({ t with colls := s.colls } : State) = s
        ∧ t.colls.get id = some { g with acks := g.acks ||| slotBit slot })
      ∧ (live &&& ~~~(g.acks ||| slotBit slot) = 0 → ∃ t h, exec (.acknowledge id slot (g.view + 1)) s = .next t ∧ (g.ops = Table.empty → t.mem = s.mem)
        ∧ t.colls.get id = some h ∧ h.view = g.view + 1 ∧ h.members = live ∧ h.member = true))
    ∧ (g.acked.isSome = true ∨ g.replaced = true → lowSlot (g.members &&& ~~~g.suspects) ≠ g.slot → ∃ t, exec (.ackLapse id) s = .next t ∧ ({ t with colls := s.colls } : State) = s
      ∧ t.colls.get id = some { g with acked := none, proposed := none, acks := 0, replaced := false })
    ∧ (∀ slot d, lowSlot g.members = g.slot → g.members.getLsbD slot = false → g.digest ≠ some d →
      ∃ t, exec (.joinRequest id slot d) s = .next t ∧ ({ t with sent := s.sent } : State) = s ∧ t.sent = s.sent ++ [.reply [id, slot, 1]])
    ∧ (∀ slot d, slot < 256 → lowSlot g.members = g.slot → g.members.getLsbD slot = false → g.digest = some d → g.suspects = 0 → s.collBusy id g = false → g.view + 1 < 2 ^ 32 →
      g.slot < 256 → g.joiner = none → g.proposed = none → g.acked = none →
      ∃ t, exec (.joinRequest id slot d) s = .next t ∧ t.sent = s.sent ++ [.proposal id (g.view + 1) (g.members ||| slotBit slot)]
        ∧ t.colls.get id = some { g with joiner := some slot, proposed := some (g.members ||| slotBit slot), acked := some (g.slot, g.members ||| slotBit slot), acks := slotBit g.slot, pending := none }))
  ∧ (∀ (s : State) (id op slot : Nat) (g : CollGroup) (card : List Nat) (bs : List Byte), s.colls.get id = some g → g.member = true → g.members.getLsbD slot = true → card ≠ [] →
    (∀ o, g.ops.get op = some o → o.card = card → o.ended = none → ∃ t, exec (.collPacket id g.view op slot card bs) s = .next t ∧ ({ t with colls := s.colls } : State) = s
      ∧ t.colls.get id = some { g with ops := g.ops.put op { o with contrib := o.contrib.put slot bs } })
    ∧ (g.ops.get op = none → g.opNum ≤ op → ∃ t o, exec (.collPacket id g.view op slot card bs) s = .next t ∧ ({ t with colls := s.colls } : State) = s
      ∧ t.colls.get id = some { g with ops := g.ops.put op o } ∧ o.card = card ∧ o.contrib.get slot = some bs)
    ∧ (∀ o, g.ops.get op = some o → o.ended = none → o.card ≠ [] → o.card ≠ card → (∀ j, s.jobs.get o.job = some j → j.dst = none) → g.ops.wf = true → g.pending = none →
      ∃ t h, exec (.collPacket id g.view op slot card bs) s = .next t ∧ t.mem = s.mem ∧ t.colls.get id = some h ∧ h.lastReason = 4
        ∧ ∀ x, h.ops.get op = some x → x.ended = some 4 ∧ s.jobs.get o.job = none)
    ∧ ∀ v, v ≠ g.view → ∃ t h, exec (.collPacket id v op slot card bs) s = .next t ∧ t.mem = s.mem ∧ t.colls.get id = some h
      ∧ h.stale = min (g.stale + 1) (2 ^ 32 - 1)
      ∧ (∀ o, g.ops.get op = some o → ({ t with colls := s.colls } : State) = s ∧ h.ops.get op = some { o with stale := min (o.stale + 1) (2 ^ 32 - 1) })
      ∧ (g.ops.get op = none → g.opNum ≤ op → s.jobs = Table.empty → ∃ o, h.ops.get op = some o ∧ o.stale = 1 ∧ o.job = 0))
  ∧ (∀ (s : State) (id op : Nat) (g : CollGroup) (o : CollOp), s.colls.get id = some g → g.ops.get op = some o → o.deciding = true →
    g.pending = none →
    (∀ slot choice, o.choices.get slot = none → ((slotsOf g.members).any fun k => ((o.choices.put slot choice).get k).isNone) = true →
      ∃ t, exec (.policyChoice id op slot choice) s = .next t ∧ ({ t with colls := s.colls } : State) = s
        ∧ t.colls.get id = some { g with ops := g.ops.put op { o with choices := o.choices.put slot choice } })
    ∧ (g.members ≠ 0 → g.ops.wf = true → ∃ t h, exec (.choiceTimeout id op) s = .next t ∧ ((∀ j, s.jobs.get o.job = some j → j.dst = none) → t.mem = s.mem) ∧ t.colls.get id = some h ∧ h.view = g.view
      ∧ ∀ x, h.ops.get op = some x → x.deciding = false))
  ∧ (∀ (s : State) (id op slot choice : Nat) (g : CollGroup) (o : CollOp), s.colls.get id = some g → g.ops.get op = some o → o.deciding = false → o.job ≠ 0 → g.pending = none →
    ∃ t, exec (.policyChoice id op slot choice) s = .next t ∧ ({ t with colls := s.colls } : State) = s
      ∧ t.colls.get id = some { g with ops := g.ops.put op { o with ahead := o.ahead.put slot choice } })
  ∧ ∀ (s : State) (id n : Nat) (j : Job) (u : Group), s.jobs.get id = some j → j.kind = .coll → j.life = .performed n → n ≤ (s.part j.part).round →
    s.groups.get j.group = some u → (∀ g, s.colls.get (j.aux.getD 0 0) = some g → g.pending = none) →
    (s.part j.part).frozen = false → s.collAway j = false → (∀ w, j.dst = some w → w.mapped = false) →
    ∃ t h, exec (.collComplete id) s = .next t ∧ t.mem = s.mem ∧ (s.jobs.wf = true → t.jobs.get id = none) ∧ t.groups.get j.group = some h ∧ SameRegs u h
      ∧ ∀ w b, j.dst = some w → s.blocks.get j.block = some b →
        ∃ y, t.blocks.get j.block = some y ∧ y.store = (b.writeBytes (w.mode == 1) (w.off + j.vals.getD 8 0) (((j.aux.drop 4).take 4).flatMap fun x => toBytes 4 x)).store

/-- 21 R412 to R425: the debugger's commands, trace, rings and dumps, each where its rule holds. 21 R422 to R425: a dump with a key, a configured device, a free engine and a counter left holds the device's blocks, takes the engine and the next counter and reports the length; its end writes the chunks of the stream as it then stood, releases the blocks and frees the engine. The formats of answers and of dumps, the setting of sampling by a WRITE (log 13 and 34) and the place of a ring's indices (log 28) are the model's choice. -/
def Obligations.DebugEvents : Prop :=
  ((∀ (s : State) (p : Nat), (s.parts.get p).isSome = true →
    (∀ stops, (s.part p).debugger = none → ∃ t, exec (.debugAttach p stops) s = .next t ∧ ({ t with parts := s.parts } : State) = s ∧ (t.part p).debugger = some stops)
    ∧ ((s.part p).debugger.isSome = true → ∃ t, exec (.debugDetach p) s = .next t ∧ t.mem = s.mem ∧ (t.part p).debugger = none ∧ (t.part p).bps = Table.empty
      ∧ ∀ bid b l, s.blocks.get bid = some b → s.launches.get b.launch = some l → l.part = p → b.set = none → ∃ y, t.blocks.get bid = some y ∧ y.hold = none ∧ y.holdAtResume = none ∧ y.store = b.store)
    ∧ (∀ n a lid, s.stops p = true → n ≤ 7 → a.toNat % 8 = 0 → ∃ t, exec (.debugSetBp p n a lid) s = .next t ∧ ({ t with parts := s.parts } : State) = s
      ∧ (t.part p).bps.get n = some { addr := a, launch := lid })
    ∧ (∀ n, (s.part p).bps.wf = true → ∃ t, exec (.debugClrBp p n) s = .next t ∧ ({ t with parts := s.parts } : State) = s ∧ (t.part p).bps.get n = none)
    ∧ (∀ v on ch ks, ∃ t, exec (.traceEnable p v on ch ks) s = .next t ∧ ({ t with parts := s.parts } : State) = s
      ∧ ((t.part p).vd v).trace = on ∧ ((t.part p).vd v).channels = ch ∧ ((t.part p).vd v).kinds = ks ∧ ((t.part p).vd v).balance = ((s.part p).vd v).balance)
    ∧ (∀ base n d, ringOk base n = true → d % 64 = 0 → isHost d = true ∨ isDevice d = true → let r : Ring := { desc := d, base := base, entries := n, windex := 0, dropped := 0 }
      (∃ t, exec (.ringRegister p (.debug d) base n) s = .next t ∧ (t.part p).debugRing = some r)
      ∧ (∀ v, ∃ t, exec (.ringRegister p (.sample v d) base n) s = .next t ∧ (t.part p).sampleRings.get v = some r)
      ∧ ∀ v, ∃ t, exec (.ringRegister p (.trace v d) base n) s = .next t ∧ (t.part p).traceRings.get v = some r)
    ∧ ∀ v vd lid idx m, (s.part p).debugger.isSome = true → (s.part p).vdev.get v = some vd →
      ∃ t x, exec (.debugWrite p lid idx (.sampling v) [m]) s = .next t ∧ ({ t with parts := s.parts } : State) = s ∧ (t.part p).vdev.get v = some x
        ∧ x.sampling = (m != 0) ∧ (m ≠ 0 → x.mean = min (max m.toNat 256) (2 ^ 24)))
  ∧ (∀ (s : State) (p lid idx bid : Nat) (b : Block) (l : Launch), s.stops p = true → s.blocks.wf = true → s.blocks.get bid = some b → s.launches.get b.launch = some l → l.part = p → l.ident = lid →
    (idx = 0xFFFFFFFF ∨ b.index = idx) → s.holdable b = true → b.set = none →
    ∃ t y, exec (.debugHold p lid idx) s = .next t ∧ t.blocks.get bid = some y ∧ y.hold = some { cause := 2, bp := 0, code := 0, step := none } ∧ y.store = b.store)
  ∧ ∀ (s : State) (p lid idx bid : Nat) (b : Block), s.heldBlock p lid idx = some (bid, b) → s.blocks.wf = true → b.set = none →
    (∃ t y, exec (.debugRelease p lid idx) s = .next t ∧ t.mem = s.mem ∧ t.blocks.get bid = some y ∧ y.hold = none ∧ y.store = b.store
      ∧ ∀ u g, s.groups.get u = some g → g.block = bid → ∃ h, t.groups.get u = some h ∧ SameRegs g h ∧ ∀ r ∈ h.frags.rows, r.2.free = true)
    ∧ (∀ u g i fid f, s.groups.rows.find? (fun x => decide (x.2.block = bid ∧ x.2.idx = i) && !x.2.seq) = some (u, g) → g.fragOfLowest g.liveLanes = some fid → g.frags.get fid = some f →
      s.groups.wf = true →
      ∃ t y h, exec (.debugOne p lid idx i) s = .next t ∧ t.mem = s.mem ∧ t.blocks.get bid = some y ∧ y.hold = b.hold.map (fun h => { h with step := some u })
        ∧ t.groups.get u = some h ∧ SameRegs g h ∧ h.frags.get fid = some { f with free := true })
    ∧ (∀ u g i, s.groupAt bid i = some (u, g) → s.groups.wf = true → ∀ r,
      (∃ t, exec (.debugRead p lid idx (.vreg i r)) s = .next t ∧ ({ t with sent := s.sent } : State) = s ∧ t.sent = s.sent ++ [.reply ((g.vreg r).toList.map (·.toNat))])
      ∧ (∃ t, exec (.debugRead p lid idx (.sreg i r)) s = .next t ∧ ({ t with sent := s.sent } : State) = s ∧ t.sent = s.sent ++ [.reply [(g.sreg r).toNat]])
      ∧ (b.run = 0 → ∀ d, ∃ t h, exec (.debugWrite p lid idx (.sreg i r) d) s = .next t ∧ OnlyGroup s t u ∧ t.groups.get u = some h ∧ h.frame = g.frame ∧ h.frags = g.frags
        ∧ WroteSca g h 1 r (d.getD 0 0).toNat))
    ∧ (b.run = 0 → ∀ i d, ∃ t y, exec (.debugWrite p lid idx (.storeWord i) d) s = .next t ∧ ({ t with blocks := s.blocks } : State) = s ∧ OneBlock s t bid y
      ∧ ∃ x, y.store.get i = some x ∧ x.val = d.getD 0 0 ∧ x.poison = false))
  ∧ ((∀ (s : State) (p v dest : Nat) (key : BitVec 256), s.keys.get (8 * p + v) = some key → (s.part p).vdevs.getLsbD v = true → (s.parts.get p).isSome = true →
    (s.part p).dumping = none → s.dumpCounts.getD (8 * p + v) 0 < 2 ^ 64 - 1 →
    let held := (s.dumpBlocks p v).foldl (fun s x => s.holdBlock x.1 4 0 0 0) s
    let bs := held.dumpStream p v (held.ownedGates p)
    let n := bs.length + (bs.length + 65535) / 65536 * 48
    isHost dest = true → isHost (dest + n - 1) = true →
    ∃ t, exec (.dump p v dest) s = .next t ∧ (t.part p).dumping = some (v, dest, bs) ∧ t.sent = held.sent ++ [.reply [n]] ∧ t.dumpCounts.getD (8 * p + v) 0 = s.dumpCounts.getD (8 * p + v) 0 + 1 ∧ t.keys = s.keys)
  ∧ ∀ (s : State) (p v dest : Nat) (bs : List Byte), (s.part p).dumping = some (v, dest, bs) →
    ∃ t, exec (.dumpComplete p v) s = .next t ∧ (t.part p).dumping = none
      ∧ (∀ bid b h, s.blocks.get bid = some b → b.hold = some h → h.cause = 4 → s.ofDevice p v b = true → b.set = none → ∃ y, t.blocks.get bid = some y ∧ y.hold = none ∧ y.store = b.store)
      ∧ t.mem = Memory.writeN s.mem dest (dumpChunks ((s.keys.get (8 * p + v)).getD 0) p v (s.dumpCounts.getD (8 * p + v) 0)
          (bs.length / 65536 + 1) 0 bs))
end

