-- ==== Sys2Proof/Laws/Table.lean ====
section
/-! SUPPORT. The laws of tables and of the byte memory: a read after a write, and the canonical form kept by every operation. -/

namespace Sys2Proof.Machine

/-! ### Lists of pairs -/

theorem assocGet_assocPut {α : Type} (l : List (Nat × α)) (a b : Nat) (x : α) :
    assocGet (assocPut l a x) b = if b = a then some x else assocGet l b := by
  induction l with
  | nil => rfl
  | cons r l ih =>
    by_cases hlt : r.1 < a
    · simp only [assocPut, if_pos hlt, assocGet, ih]
      by_cases hb : b = r.1
      · rw [if_pos hb, if_pos hb, if_neg (by omega)]
      · rw [if_neg hb, if_neg hb]
    · simp only [assocPut, if_neg hlt, assocGet]
      by_cases hb : b = a
      · rw [if_pos hb, if_pos hb]
      · rw [if_neg hb, if_neg hb]
        split
        · rfl
        · rw [if_neg (by omega)]

theorem assocGet_assocDel_ne {α : Type} (l : List (Nat × α)) {a b : Nat} (h : b ≠ a) :
    assocGet (assocDel l a) b = assocGet l b := by
  induction l with
  | nil => rfl
  | cons r l ih =>
    simp only [assocDel]
    split
    · rename_i hr; simp only [assocGet]; rw [if_neg (by omega)]
    · simp only [assocGet, ih]

theorem assocFrom_mono {α : Type} {l : List (Nat × α)} {m n : Nat} (h : n ≤ m) (hl : assocFrom m l = true) :
    assocFrom n l = true := by
  cases l with
  | nil => rfl
  | cons r l => simp only [assocFrom, Bool.and_eq_true, decide_eq_true_eq] at *; exact ⟨by omega, hl.2⟩

/-- No key below the bound of a canonical list. -/
theorem assocGet_eq_none_of_lt {α : Type} {l : List (Nat × α)} {n a : Nat} (hl : assocFrom n l = true) (h : a < n) :
    assocGet l a = none := by
  induction l generalizing n with
  | nil => rfl
  | cons r l ih =>
    obtain ⟨k, v⟩ := r
    simp only [assocFrom, Bool.and_eq_true, decide_eq_true_eq] at hl
    have hk : a ≠ k := by omega
    simp only [assocGet, hk, if_false]
    exact ih hl.2 (by omega)

theorem assocGet_assocDel {α : Type} {l : List (Nat × α)} {n : Nat} (hl : assocFrom n l = true) (a b : Nat) :
    assocGet (assocDel l a) b = if b = a then none else assocGet l b := by
  by_cases hb : b = a
  · subst hb
    simp only [if_true]
    induction l generalizing n with
    | nil => rfl
    | cons r l ih =>
      simp only [assocFrom, Bool.and_eq_true, decide_eq_true_eq] at hl
      simp only [assocDel]
      split
      · exact assocGet_eq_none_of_lt hl.2 (by omega)
      · rename_i h; simp only [assocGet, h, if_false]; exact ih hl.2
  · simp [assocGet_assocDel_ne l hb, hb]

theorem assocFrom_assocPut {α : Type} {l : List (Nat × α)} {n a : Nat} (x : α) (hl : assocFrom n l = true) (h : n ≤ a) :
    assocFrom n (assocPut l a x) = true := by
  induction l generalizing n with
  | nil => simp [assocPut, assocFrom, h]
  | cons r l ih =>
    simp only [assocFrom, Bool.and_eq_true, decide_eq_true_eq] at hl
    by_cases hlt : r.1 < a
    · simp only [assocPut, if_pos hlt, assocFrom, Bool.and_eq_true, decide_eq_true_eq]
      exact ⟨hl.1, ih hl.2 (by omega)⟩
    · simp only [assocPut, if_neg hlt, assocFrom, Bool.and_eq_true, decide_eq_true_eq]
      refine ⟨h, ?_⟩
      split
      · simp only [assocFrom, Bool.and_eq_true, decide_eq_true_eq]; exact ⟨by omega, hl.2⟩
      · rw [show a = r.1 by omega]; exact hl.2

theorem assocFrom_assocDel {α : Type} {l : List (Nat × α)} {n : Nat} (a : Nat) (hl : assocFrom n l = true) :
    assocFrom n (assocDel l a) = true := by
  induction l generalizing n with
  | nil => rfl
  | cons r l ih =>
    simp only [assocFrom, Bool.and_eq_true, decide_eq_true_eq] at hl
    simp only [assocDel]
    split
    · exact assocFrom_mono (by omega) hl.2
    · simp only [assocFrom, Bool.and_eq_true, decide_eq_true_eq]; exact ⟨hl.1, ih hl.2⟩

/-! ### Tables -/

@[simp] theorem Table.get_empty {α : Type} (k : Nat) : (Table.empty : Table α).get k = none := rfl
@[simp] theorem Table.wf_empty {α : Type} : (Table.empty : Table α).wf = true := rfl

theorem Table.get_put {α : Type} (t : Table α) (a b : Nat) (x : α) :
    (t.put a x).get b = if b = a then some x else t.get b := assocGet_assocPut _ _ _ _

@[simp] theorem Table.get_put_same {α : Type} (t : Table α) (a : Nat) (x : α) : (t.put a x).get a = some x := by
  simp [Table.get_put]

theorem Table.get_put_ne {α : Type} (t : Table α) {a b : Nat} (x : α) (h : b ≠ a) : (t.put a x).get b = t.get b := by
  simp [Table.get_put, h]

theorem Table.getD_eq {α : Type} (t : Table α) (k : Nat) (d : α) : t.getD k d = (t.get k).getD d := rfl

theorem Table.get_upd {α : Type} (t : Table α) (a b : Nat) (f : α → α) :
    (t.upd a f).get b = if b = a then (t.get a).map f else t.get b := by
  unfold Table.upd Table.get
  split
  · rename_i h; split
    · subst_vars; simp [h]
    · rfl
  · rename_i v h; simp only [assocGet_assocPut, h, Option.map_some]

theorem Table.get_del {α : Type} {t : Table α} (h : t.wf = true) (a b : Nat) :
    (t.del a).get b = if b = a then none else t.get b := assocGet_assocDel h a b

theorem Table.get_del_ne {α : Type} (t : Table α) {a b : Nat} (h : b ≠ a) : (t.del a).get b = t.get b :=
  assocGet_assocDel_ne _ h

theorem Table.wf_put {α : Type} {t : Table α} (a : Nat) (x : α) (h : t.wf = true) : (t.put a x).wf = true :=
  assocFrom_assocPut x h (Nat.zero_le a)

theorem Table.wf_del {α : Type} {t : Table α} (a : Nat) (h : t.wf = true) : (t.del a).wf = true := assocFrom_assocDel a h

theorem Table.wf_upd {α : Type} {t : Table α} (a : Nat) (f : α → α) (h : t.wf = true) : (t.upd a f).wf = true := by
  unfold Table.upd
  split
  · exact h
  · exact assocFrom_assocPut _ h (Nat.zero_le a)

/-! ### Memory -/

theorem Memory.mem_assocPut {m : Memory} {a : Nat} {b : BitVec 8} {c : Nat × BitVec 8} (h : c ∈ assocPut m a b) :
    c = (a, b) ∨ c ∈ m := by
  induction m with
  | nil => simpa [assocPut] using h
  | cons r m ih =>
    by_cases hlt : r.1 < a
    · simp only [assocPut, if_pos hlt, List.mem_cons] at h ⊢
      exact h.elim (fun e => .inr (.inl e)) fun e => (ih e).imp_right .inr
    · simp only [assocPut, if_neg hlt, List.mem_cons] at h ⊢
      refine h.imp_right fun e => ?_
      split at e
      · exact List.mem_cons.mp e
      · exact .inr e

theorem Memory.mem_assocDel {m : Memory} {a : Nat} {c : Nat × BitVec 8} (h : c ∈ assocDel m a) : c ∈ m := by
  induction m with
  | nil => exact h
  | cons r m ih =>
    simp only [assocDel] at h
    by_cases ha : a = r.1
    · rw [if_pos ha] at h; exact .tail _ h
    · rw [if_neg ha, List.mem_cons] at h
      exact List.mem_cons.mpr (h.imp_right ih)

/-- A read after a write of one byte. -/
theorem Memory.read_write {m : Memory} (h : m.wf = true) (a b : Nat) (x : BitVec 8) :
    Memory.read (Memory.write m a x) b = if b = a then x else Memory.read m b := by
  simp only [Memory.wf, Bool.and_eq_true] at h
  unfold Memory.read Memory.write
  split
  · rw [assocGet_assocDel h.1]; split <;> simp_all
  · rw [assocGet_assocPut]; split <;> simp_all

/-- A write leaves every other byte, canonical form or not. -/
theorem Memory.read_write_ne (m : Memory) {a b : Nat} (x : BitVec 8) (h : b ≠ a) :
    Memory.read (Memory.write m a x) b = Memory.read m b := by
  unfold Memory.read Memory.write
  split
  · rw [assocGet_assocDel_ne _ h]
  · rw [assocGet_assocPut]; simp [h]

theorem Memory.wf_write {m : Memory} (a : Nat) (x : BitVec 8) (h : m.wf = true) : (Memory.write m a x).wf = true := by
  simp only [Memory.wf, Bool.and_eq_true] at *
  unfold Memory.write
  split
  · refine ⟨assocFrom_assocDel a h.1, List.all_eq_true.mpr fun c hc => ?_⟩
    exact List.all_eq_true.mp h.2 c (Memory.mem_assocDel hc)
  · rename_i hb
    refine ⟨assocFrom_assocPut x h.1 (Nat.zero_le a), List.all_eq_true.mpr fun c hc => ?_⟩
    rcases Memory.mem_assocPut hc with rfl | hc
    · simpa using hb
    · exact List.all_eq_true.mp h.2 c hc

theorem Memory.wf_writeN {m : Memory} (a : Nat) (bs : List (BitVec 8)) (h : m.wf = true) : (Memory.writeN m a bs).wf = true := by
  induction bs generalizing m a with
  | nil => exact h
  | cons b bs ih => exact ih (a + 1) (Memory.wf_write a b h)

/-- Bytes written leave every byte outside them. -/
theorem Memory.read_writeN_out (m : Memory) (a b : Nat) (bs : List (BitVec 8)) (h : b < a ∨ a + bs.length ≤ b) :
    Memory.read (Memory.writeN m a bs) b = Memory.read m b := by
  induction bs generalizing m a with
  | nil => rfl
  | cons x bs ih =>
    simp only [List.length_cons] at h
    simp only [Memory.writeN]
    rw [ih _ _ (by omega), Memory.read_write_ne _ _ (by omega)]

/-- Bytes written are read back. -/
theorem Memory.read_writeN {m : Memory} (h : m.wf = true) (a i : Nat) (bs : List (BitVec 8)) (hi : i < bs.length) :
    Memory.read (Memory.writeN m a bs) (a + i) = bs.getD i 0 := by
  induction bs generalizing m a i with
  | nil => simp at hi
  | cons x bs ih =>
    simp only [Memory.writeN]
    cases i with
    | zero => rw [Memory.read_writeN_out _ _ _ _ (by omega), Nat.add_zero, Memory.read_write h]; simp
    | succ i =>
      have := ih (Memory.wf_write a x h) (a + 1) i (by simpa using hi)
      rw [show a + (i + 1) = a + 1 + i by omega, this]; simp

end Sys2Proof.Machine
end

