-- ==== Sys2Proof/Laws/State.lean ====
section
/-! SUPPORT. What each update of the state leaves: one lemma per field and update. -/

namespace Sys2Proof.Machine

/-! ### putGroup -/

@[simp] theorem State.putGroup_mem (s : State) (uid : Nat) (g : Group) : (s.putGroup uid g).mem = s.mem := rfl
@[simp] theorem State.putGroup_poison (s : State) (uid : Nat) (g : Group) : (s.putGroup uid g).poison = s.poison := rfl
@[simp] theorem State.putGroup_versions (s : State) (uid : Nat) (g : Group) : (s.putGroup uid g).versions = s.versions := rfl
@[simp] theorem State.putGroup_vseq (s : State) (uid : Nat) (g : Group) : (s.putGroup uid g).vseq = s.vseq := rfl
@[simp] theorem State.putGroup_buffer (s : State) (uid : Nat) (g : Group) : (s.putGroup uid g).buffer = s.buffer := rfl
@[simp] theorem State.putGroup_updates (s : State) (uid : Nat) (g : Group) : (s.putGroup uid g).updates = s.updates := rfl
@[simp] theorem State.putGroup_handed (s : State) (uid : Nat) (g : Group) : (s.putGroup uid g).handed = s.handed := rfl
@[simp] theorem State.putGroup_handedUpd (s : State) (uid : Nat) (g : Group) : (s.putGroup uid g).handedUpd = s.handedUpd := rfl
@[simp] theorem State.putGroup_green (s : State) (uid : Nat) (g : Group) : (s.putGroup uid g).green = s.green := rfl
@[simp] theorem State.putGroup_past (s : State) (uid : Nat) (g : Group) : (s.putGroup uid g).past = s.past := rfl
@[simp] theorem State.putGroup_ownPuts (s : State) (uid : Nat) (g : Group) : (s.putGroup uid g).ownPuts = s.ownPuts := rfl
@[simp] theorem State.putGroup_handOrder (s : State) (uid : Nat) (g : Group) : (s.putGroup uid g).handOrder = s.handOrder := rfl
@[simp] theorem State.putGroup_peerStores (s : State) (uid : Nat) (g : Group) : (s.putGroup uid g).peerStores = s.peerStores := rfl
@[simp] theorem State.putGroup_bounce (s : State) (uid : Nat) (g : Group) : (s.putGroup uid g).bounce = s.bounce := rfl
@[simp] theorem State.putGroup_l2 (s : State) (uid : Nat) (g : Group) : (s.putGroup uid g).l2 = s.l2 := rfl
@[simp] theorem State.putGroup_tlbCore (s : State) (uid : Nat) (g : Group) : (s.putGroup uid g).tlbCore = s.tlbCore := rfl
@[simp] theorem State.putGroup_tlbDie (s : State) (uid : Nat) (g : Group) : (s.putGroup uid g).tlbDie = s.tlbDie := rfl
@[simp] theorem State.putGroup_usedPages (s : State) (uid : Nat) (g : Group) : (s.putGroup uid g).usedPages = s.usedPages := rfl
@[simp] theorem State.putGroup_codePages (s : State) (uid : Nat) (g : Group) : (s.putGroup uid g).codePages = s.codePages := rfl
@[simp] theorem State.putGroup_samples (s : State) (uid : Nat) (g : Group) : (s.putGroup uid g).samples = s.samples := rfl
@[simp] theorem State.putGroup_parts (s : State) (uid : Nat) (g : Group) : (s.putGroup uid g).parts = s.parts := rfl
@[simp] theorem State.putGroup_launches (s : State) (uid : Nat) (g : Group) : (s.putGroup uid g).launches = s.launches := rfl
@[simp] theorem State.putGroup_blocks (s : State) (uid : Nat) (g : Group) : (s.putGroup uid g).blocks = s.blocks := rfl
@[simp] theorem State.putGroup_sets (s : State) (uid : Nat) (g : Group) : (s.putGroup uid g).sets = s.sets := rfl
@[simp] theorem State.putGroup_jobs (s : State) (uid : Nat) (g : Group) : (s.putGroup uid g).jobs = s.jobs := rfl
@[simp] theorem State.putGroup_gates (s : State) (uid : Nat) (g : Group) : (s.putGroup uid g).gates = s.gates := rfl
@[simp] theorem State.putGroup_gateOps (s : State) (uid : Nat) (g : Group) : (s.putGroup uid g).gateOps = s.gateOps := rfl
@[simp] theorem State.putGroup_gateStamp (s : State) (uid : Nat) (g : Group) : (s.putGroup uid g).gateStamp = s.gateStamp := rfl
@[simp] theorem State.putGroup_colls (s : State) (uid : Nat) (g : Group) : (s.putGroup uid g).colls = s.colls := rfl
@[simp] theorem State.putGroup_checks (s : State) (uid : Nat) (g : Group) : (s.putGroup uid g).checks = s.checks := rfl
@[simp] theorem State.putGroup_coreRecs (s : State) (uid : Nat) (g : Group) : (s.putGroup uid g).coreRecs = s.coreRecs := rfl
@[simp] theorem State.putGroup_bankTests (s : State) (uid : Nat) (g : Group) : (s.putGroup uid g).bankTests = s.bankTests := rfl
@[simp] theorem State.putGroup_rotation (s : State) (uid : Nat) (g : Group) : (s.putGroup uid g).rotation = s.rotation := rfl
@[simp] theorem State.putGroup_abortPrio (s : State) (uid : Nat) (g : Group) : (s.putGroup uid g).abortPrio = s.abortPrio := rfl
@[simp] theorem State.putGroup_nextTest (s : State) (uid : Nat) (g : Group) : (s.putGroup uid g).nextTest = s.nextTest := rfl
@[simp] theorem State.putGroup_links (s : State) (uid : Nat) (g : Group) : (s.putGroup uid g).links = s.links := rfl
@[simp] theorem State.putGroup_errors (s : State) (uid : Nat) (g : Group) : (s.putGroup uid g).errors = s.errors := rfl
@[simp] theorem State.putGroup_overwritten (s : State) (uid : Nat) (g : Group) : (s.putGroup uid g).overwritten = s.overwritten := rfl
@[simp] theorem State.putGroup_kilsySeq (s : State) (uid : Nat) (g : Group) : (s.putGroup uid g).kilsySeq = s.kilsySeq := rfl
@[simp] theorem State.putGroup_kilsyTime (s : State) (uid : Nat) (g : Group) : (s.putGroup uid g).kilsyTime = s.kilsyTime := rfl
@[simp] theorem State.putGroup_serial (s : State) (uid : Nat) (g : Group) : (s.putGroup uid g).serial = s.serial := rfl
@[simp] theorem State.putGroup_startCount (s : State) (uid : Nat) (g : Group) : (s.putGroup uid g).startCount = s.startCount := rfl
@[simp] theorem State.putGroup_counters (s : State) (uid : Nat) (g : Group) : (s.putGroup uid g).counters = s.counters := rfl
@[simp] theorem State.putGroup_poisonList (s : State) (uid : Nat) (g : Group) : (s.putGroup uid g).poisonList = s.poisonList := rfl
@[simp] theorem State.putGroup_poisonDropped (s : State) (uid : Nat) (g : Group) : (s.putGroup uid g).poisonDropped = s.poisonDropped := rfl
@[simp] theorem State.putGroup_suspects (s : State) (uid : Nat) (g : Group) : (s.putGroup uid g).suspects = s.suspects := rfl
@[simp] theorem State.putGroup_suspectDropped (s : State) (uid : Nat) (g : Group) : (s.putGroup uid g).suspectDropped = s.suspectDropped := rfl
@[simp] theorem State.putGroup_keys (s : State) (uid : Nat) (g : Group) : (s.putGroup uid g).keys = s.keys := rfl
@[simp] theorem State.putGroup_dumpCounts (s : State) (uid : Nat) (g : Group) : (s.putGroup uid g).dumpCounts = s.dumpCounts := rfl
@[simp] theorem State.putGroup_adminRing (s : State) (uid : Nat) (g : Group) : (s.putGroup uid g).adminRing = s.adminRing := rfl
@[simp] theorem State.putGroup_dev (s : State) (uid : Nat) (g : Group) : (s.putGroup uid g).dev = s.dev := rfl
@[simp] theorem State.putGroup_tolerance (s : State) (uid : Nat) (g : Group) : (s.putGroup uid g).tolerance = s.tolerance := rfl
@[simp] theorem State.putGroup_a4Region (s : State) (uid : Nat) (g : Group) : (s.putGroup uid g).a4Region = s.a4Region := rfl
@[simp] theorem State.putGroup_startFails (s : State) (uid : Nat) (g : Group) : (s.putGroup uid g).startFails = s.startFails := rfl
@[simp] theorem State.putGroup_config (s : State) (uid : Nat) (g : Group) : (s.putGroup uid g).config = s.config := rfl
@[simp] theorem State.putGroup_calib (s : State) (uid : Nat) (g : Group) : (s.putGroup uid g).calib = s.calib := rfl
@[simp] theorem State.putGroup_calibSum (s : State) (uid : Nat) (g : Group) : (s.putGroup uid g).calibSum = s.calibSum := rfl
@[simp] theorem State.putGroup_timebase (s : State) (uid : Nat) (g : Group) : (s.putGroup uid g).timebase = s.timebase := rfl
@[simp] theorem State.putGroup_pointers (s : State) (uid : Nat) (g : Group) : (s.putGroup uid g).pointers = s.pointers := rfl
@[simp] theorem State.putGroup_throttled (s : State) (uid : Nat) (g : Group) : (s.putGroup uid g).throttled = s.throttled := rfl
@[simp] theorem State.putGroup_warm (s : State) (uid : Nat) (g : Group) : (s.putGroup uid g).warm = s.warm := rfl
@[simp] theorem State.putGroup_agenda (s : State) (uid : Nat) (g : Group) : (s.putGroup uid g).agenda = s.agenda := rfl
@[simp] theorem State.putGroup_cur (s : State) (uid : Nat) (g : Group) : (s.putGroup uid g).cur = s.cur := rfl
@[simp] theorem State.putGroup_word (s : State) (uid : Nat) (g : Group) : (s.putGroup uid g).word = s.word := rfl
@[simp] theorem State.putGroup_free (s : State) (uid : Nat) (g : Group) : (s.putGroup uid g).free = s.free := rfl
@[simp] theorem State.putGroup_uid (s : State) (uid : Nat) (g : Group) : (s.putGroup uid g).uid = s.uid := rfl
@[simp] theorem State.putGroup_turn (s : State) (uid : Nat) (g : Group) : (s.putGroup uid g).turn = s.turn := rfl
@[simp] theorem State.putGroup_tick (s : State) (uid : Nat) (g : Group) : (s.putGroup uid g).tick = s.tick := rfl
@[simp] theorem State.putGroup_sent (s : State) (uid : Nat) (g : Group) : (s.putGroup uid g).sent = s.sent := rfl

/-! ### updFrag -/

@[simp] theorem State.updFrag_mem (s : State) (uid fid : Nat) (h : Frag → Frag) : (s.updFrag uid fid h).mem = s.mem := rfl
@[simp] theorem State.updFrag_poison (s : State) (uid fid : Nat) (h : Frag → Frag) : (s.updFrag uid fid h).poison = s.poison := rfl
@[simp] theorem State.updFrag_versions (s : State) (uid fid : Nat) (h : Frag → Frag) : (s.updFrag uid fid h).versions = s.versions := rfl
@[simp] theorem State.updFrag_vseq (s : State) (uid fid : Nat) (h : Frag → Frag) : (s.updFrag uid fid h).vseq = s.vseq := rfl
@[simp] theorem State.updFrag_buffer (s : State) (uid fid : Nat) (h : Frag → Frag) : (s.updFrag uid fid h).buffer = s.buffer := rfl
@[simp] theorem State.updFrag_updates (s : State) (uid fid : Nat) (h : Frag → Frag) : (s.updFrag uid fid h).updates = s.updates := rfl
@[simp] theorem State.updFrag_handed (s : State) (uid fid : Nat) (h : Frag → Frag) : (s.updFrag uid fid h).handed = s.handed := rfl
@[simp] theorem State.updFrag_handedUpd (s : State) (uid fid : Nat) (h : Frag → Frag) : (s.updFrag uid fid h).handedUpd = s.handedUpd := rfl
@[simp] theorem State.updFrag_green (s : State) (uid fid : Nat) (h : Frag → Frag) : (s.updFrag uid fid h).green = s.green := rfl
@[simp] theorem State.updFrag_past (s : State) (uid fid : Nat) (h : Frag → Frag) : (s.updFrag uid fid h).past = s.past := rfl
@[simp] theorem State.updFrag_ownPuts (s : State) (uid fid : Nat) (h : Frag → Frag) : (s.updFrag uid fid h).ownPuts = s.ownPuts := rfl
@[simp] theorem State.updFrag_handOrder (s : State) (uid fid : Nat) (h : Frag → Frag) : (s.updFrag uid fid h).handOrder = s.handOrder := rfl
@[simp] theorem State.updFrag_peerStores (s : State) (uid fid : Nat) (h : Frag → Frag) : (s.updFrag uid fid h).peerStores = s.peerStores := rfl
@[simp] theorem State.updFrag_bounce (s : State) (uid fid : Nat) (h : Frag → Frag) : (s.updFrag uid fid h).bounce = s.bounce := rfl
@[simp] theorem State.updFrag_l2 (s : State) (uid fid : Nat) (h : Frag → Frag) : (s.updFrag uid fid h).l2 = s.l2 := rfl
@[simp] theorem State.updFrag_tlbCore (s : State) (uid fid : Nat) (h : Frag → Frag) : (s.updFrag uid fid h).tlbCore = s.tlbCore := rfl
@[simp] theorem State.updFrag_tlbDie (s : State) (uid fid : Nat) (h : Frag → Frag) : (s.updFrag uid fid h).tlbDie = s.tlbDie := rfl
@[simp] theorem State.updFrag_usedPages (s : State) (uid fid : Nat) (h : Frag → Frag) : (s.updFrag uid fid h).usedPages = s.usedPages := rfl
@[simp] theorem State.updFrag_codePages (s : State) (uid fid : Nat) (h : Frag → Frag) : (s.updFrag uid fid h).codePages = s.codePages := rfl
@[simp] theorem State.updFrag_samples (s : State) (uid fid : Nat) (h : Frag → Frag) : (s.updFrag uid fid h).samples = s.samples := rfl
@[simp] theorem State.updFrag_parts (s : State) (uid fid : Nat) (h : Frag → Frag) : (s.updFrag uid fid h).parts = s.parts := rfl
@[simp] theorem State.updFrag_launches (s : State) (uid fid : Nat) (h : Frag → Frag) : (s.updFrag uid fid h).launches = s.launches := rfl
@[simp] theorem State.updFrag_blocks (s : State) (uid fid : Nat) (h : Frag → Frag) : (s.updFrag uid fid h).blocks = s.blocks := rfl
@[simp] theorem State.updFrag_sets (s : State) (uid fid : Nat) (h : Frag → Frag) : (s.updFrag uid fid h).sets = s.sets := rfl
@[simp] theorem State.updFrag_jobs (s : State) (uid fid : Nat) (h : Frag → Frag) : (s.updFrag uid fid h).jobs = s.jobs := rfl
@[simp] theorem State.updFrag_gates (s : State) (uid fid : Nat) (h : Frag → Frag) : (s.updFrag uid fid h).gates = s.gates := rfl
@[simp] theorem State.updFrag_gateOps (s : State) (uid fid : Nat) (h : Frag → Frag) : (s.updFrag uid fid h).gateOps = s.gateOps := rfl
@[simp] theorem State.updFrag_gateStamp (s : State) (uid fid : Nat) (h : Frag → Frag) : (s.updFrag uid fid h).gateStamp = s.gateStamp := rfl
@[simp] theorem State.updFrag_colls (s : State) (uid fid : Nat) (h : Frag → Frag) : (s.updFrag uid fid h).colls = s.colls := rfl
@[simp] theorem State.updFrag_checks (s : State) (uid fid : Nat) (h : Frag → Frag) : (s.updFrag uid fid h).checks = s.checks := rfl
@[simp] theorem State.updFrag_coreRecs (s : State) (uid fid : Nat) (h : Frag → Frag) : (s.updFrag uid fid h).coreRecs = s.coreRecs := rfl
@[simp] theorem State.updFrag_bankTests (s : State) (uid fid : Nat) (h : Frag → Frag) : (s.updFrag uid fid h).bankTests = s.bankTests := rfl
@[simp] theorem State.updFrag_rotation (s : State) (uid fid : Nat) (h : Frag → Frag) : (s.updFrag uid fid h).rotation = s.rotation := rfl
@[simp] theorem State.updFrag_abortPrio (s : State) (uid fid : Nat) (h : Frag → Frag) : (s.updFrag uid fid h).abortPrio = s.abortPrio := rfl
@[simp] theorem State.updFrag_nextTest (s : State) (uid fid : Nat) (h : Frag → Frag) : (s.updFrag uid fid h).nextTest = s.nextTest := rfl
@[simp] theorem State.updFrag_links (s : State) (uid fid : Nat) (h : Frag → Frag) : (s.updFrag uid fid h).links = s.links := rfl
@[simp] theorem State.updFrag_errors (s : State) (uid fid : Nat) (h : Frag → Frag) : (s.updFrag uid fid h).errors = s.errors := rfl
@[simp] theorem State.updFrag_overwritten (s : State) (uid fid : Nat) (h : Frag → Frag) : (s.updFrag uid fid h).overwritten = s.overwritten := rfl
@[simp] theorem State.updFrag_kilsySeq (s : State) (uid fid : Nat) (h : Frag → Frag) : (s.updFrag uid fid h).kilsySeq = s.kilsySeq := rfl
@[simp] theorem State.updFrag_kilsyTime (s : State) (uid fid : Nat) (h : Frag → Frag) : (s.updFrag uid fid h).kilsyTime = s.kilsyTime := rfl
@[simp] theorem State.updFrag_serial (s : State) (uid fid : Nat) (h : Frag → Frag) : (s.updFrag uid fid h).serial = s.serial := rfl
@[simp] theorem State.updFrag_startCount (s : State) (uid fid : Nat) (h : Frag → Frag) : (s.updFrag uid fid h).startCount = s.startCount := rfl
@[simp] theorem State.updFrag_counters (s : State) (uid fid : Nat) (h : Frag → Frag) : (s.updFrag uid fid h).counters = s.counters := rfl
@[simp] theorem State.updFrag_poisonList (s : State) (uid fid : Nat) (h : Frag → Frag) : (s.updFrag uid fid h).poisonList = s.poisonList := rfl
@[simp] theorem State.updFrag_poisonDropped (s : State) (uid fid : Nat) (h : Frag → Frag) : (s.updFrag uid fid h).poisonDropped = s.poisonDropped := rfl
@[simp] theorem State.updFrag_suspects (s : State) (uid fid : Nat) (h : Frag → Frag) : (s.updFrag uid fid h).suspects = s.suspects := rfl
@[simp] theorem State.updFrag_suspectDropped (s : State) (uid fid : Nat) (h : Frag → Frag) : (s.updFrag uid fid h).suspectDropped = s.suspectDropped := rfl
@[simp] theorem State.updFrag_keys (s : State) (uid fid : Nat) (h : Frag → Frag) : (s.updFrag uid fid h).keys = s.keys := rfl
@[simp] theorem State.updFrag_dumpCounts (s : State) (uid fid : Nat) (h : Frag → Frag) : (s.updFrag uid fid h).dumpCounts = s.dumpCounts := rfl
@[simp] theorem State.updFrag_adminRing (s : State) (uid fid : Nat) (h : Frag → Frag) : (s.updFrag uid fid h).adminRing = s.adminRing := rfl
@[simp] theorem State.updFrag_dev (s : State) (uid fid : Nat) (h : Frag → Frag) : (s.updFrag uid fid h).dev = s.dev := rfl
@[simp] theorem State.updFrag_tolerance (s : State) (uid fid : Nat) (h : Frag → Frag) : (s.updFrag uid fid h).tolerance = s.tolerance := rfl
@[simp] theorem State.updFrag_a4Region (s : State) (uid fid : Nat) (h : Frag → Frag) : (s.updFrag uid fid h).a4Region = s.a4Region := rfl
@[simp] theorem State.updFrag_startFails (s : State) (uid fid : Nat) (h : Frag → Frag) : (s.updFrag uid fid h).startFails = s.startFails := rfl
@[simp] theorem State.updFrag_config (s : State) (uid fid : Nat) (h : Frag → Frag) : (s.updFrag uid fid h).config = s.config := rfl
@[simp] theorem State.updFrag_calib (s : State) (uid fid : Nat) (h : Frag → Frag) : (s.updFrag uid fid h).calib = s.calib := rfl
@[simp] theorem State.updFrag_calibSum (s : State) (uid fid : Nat) (h : Frag → Frag) : (s.updFrag uid fid h).calibSum = s.calibSum := rfl
@[simp] theorem State.updFrag_timebase (s : State) (uid fid : Nat) (h : Frag → Frag) : (s.updFrag uid fid h).timebase = s.timebase := rfl
@[simp] theorem State.updFrag_pointers (s : State) (uid fid : Nat) (h : Frag → Frag) : (s.updFrag uid fid h).pointers = s.pointers := rfl
@[simp] theorem State.updFrag_throttled (s : State) (uid fid : Nat) (h : Frag → Frag) : (s.updFrag uid fid h).throttled = s.throttled := rfl
@[simp] theorem State.updFrag_warm (s : State) (uid fid : Nat) (h : Frag → Frag) : (s.updFrag uid fid h).warm = s.warm := rfl
@[simp] theorem State.updFrag_agenda (s : State) (uid fid : Nat) (h : Frag → Frag) : (s.updFrag uid fid h).agenda = s.agenda := rfl
@[simp] theorem State.updFrag_cur (s : State) (uid fid : Nat) (h : Frag → Frag) : (s.updFrag uid fid h).cur = s.cur := rfl
@[simp] theorem State.updFrag_word (s : State) (uid fid : Nat) (h : Frag → Frag) : (s.updFrag uid fid h).word = s.word := rfl
@[simp] theorem State.updFrag_free (s : State) (uid fid : Nat) (h : Frag → Frag) : (s.updFrag uid fid h).free = s.free := rfl
@[simp] theorem State.updFrag_uid (s : State) (uid fid : Nat) (h : Frag → Frag) : (s.updFrag uid fid h).uid = s.uid := rfl
@[simp] theorem State.updFrag_turn (s : State) (uid fid : Nat) (h : Frag → Frag) : (s.updFrag uid fid h).turn = s.turn := rfl
@[simp] theorem State.updFrag_tick (s : State) (uid fid : Nat) (h : Frag → Frag) : (s.updFrag uid fid h).tick = s.tick := rfl
@[simp] theorem State.updFrag_sent (s : State) (uid fid : Nat) (h : Frag → Frag) : (s.updFrag uid fid h).sent = s.sent := rfl

/-! ### updGroup -/

@[simp] theorem State.updGroup_mem (s : State) (uid : Nat) (h : Group → Group) : (s.updGroup uid h).mem = s.mem := rfl
@[simp] theorem State.updGroup_poison (s : State) (uid : Nat) (h : Group → Group) : (s.updGroup uid h).poison = s.poison := rfl
@[simp] theorem State.updGroup_versions (s : State) (uid : Nat) (h : Group → Group) : (s.updGroup uid h).versions = s.versions := rfl
@[simp] theorem State.updGroup_vseq (s : State) (uid : Nat) (h : Group → Group) : (s.updGroup uid h).vseq = s.vseq := rfl
@[simp] theorem State.updGroup_buffer (s : State) (uid : Nat) (h : Group → Group) : (s.updGroup uid h).buffer = s.buffer := rfl
@[simp] theorem State.updGroup_updates (s : State) (uid : Nat) (h : Group → Group) : (s.updGroup uid h).updates = s.updates := rfl
@[simp] theorem State.updGroup_handed (s : State) (uid : Nat) (h : Group → Group) : (s.updGroup uid h).handed = s.handed := rfl
@[simp] theorem State.updGroup_handedUpd (s : State) (uid : Nat) (h : Group → Group) : (s.updGroup uid h).handedUpd = s.handedUpd := rfl
@[simp] theorem State.updGroup_green (s : State) (uid : Nat) (h : Group → Group) : (s.updGroup uid h).green = s.green := rfl
@[simp] theorem State.updGroup_past (s : State) (uid : Nat) (h : Group → Group) : (s.updGroup uid h).past = s.past := rfl
@[simp] theorem State.updGroup_ownPuts (s : State) (uid : Nat) (h : Group → Group) : (s.updGroup uid h).ownPuts = s.ownPuts := rfl
@[simp] theorem State.updGroup_handOrder (s : State) (uid : Nat) (h : Group → Group) : (s.updGroup uid h).handOrder = s.handOrder := rfl
@[simp] theorem State.updGroup_peerStores (s : State) (uid : Nat) (h : Group → Group) : (s.updGroup uid h).peerStores = s.peerStores := rfl
@[simp] theorem State.updGroup_bounce (s : State) (uid : Nat) (h : Group → Group) : (s.updGroup uid h).bounce = s.bounce := rfl
@[simp] theorem State.updGroup_l2 (s : State) (uid : Nat) (h : Group → Group) : (s.updGroup uid h).l2 = s.l2 := rfl
@[simp] theorem State.updGroup_tlbCore (s : State) (uid : Nat) (h : Group → Group) : (s.updGroup uid h).tlbCore = s.tlbCore := rfl
@[simp] theorem State.updGroup_tlbDie (s : State) (uid : Nat) (h : Group → Group) : (s.updGroup uid h).tlbDie = s.tlbDie := rfl
@[simp] theorem State.updGroup_usedPages (s : State) (uid : Nat) (h : Group → Group) : (s.updGroup uid h).usedPages = s.usedPages := rfl
@[simp] theorem State.updGroup_codePages (s : State) (uid : Nat) (h : Group → Group) : (s.updGroup uid h).codePages = s.codePages := rfl
@[simp] theorem State.updGroup_samples (s : State) (uid : Nat) (h : Group → Group) : (s.updGroup uid h).samples = s.samples := rfl
@[simp] theorem State.updGroup_parts (s : State) (uid : Nat) (h : Group → Group) : (s.updGroup uid h).parts = s.parts := rfl
@[simp] theorem State.updGroup_launches (s : State) (uid : Nat) (h : Group → Group) : (s.updGroup uid h).launches = s.launches := rfl
@[simp] theorem State.updGroup_blocks (s : State) (uid : Nat) (h : Group → Group) : (s.updGroup uid h).blocks = s.blocks := rfl
@[simp] theorem State.updGroup_sets (s : State) (uid : Nat) (h : Group → Group) : (s.updGroup uid h).sets = s.sets := rfl
@[simp] theorem State.updGroup_jobs (s : State) (uid : Nat) (h : Group → Group) : (s.updGroup uid h).jobs = s.jobs := rfl
@[simp] theorem State.updGroup_gates (s : State) (uid : Nat) (h : Group → Group) : (s.updGroup uid h).gates = s.gates := rfl
@[simp] theorem State.updGroup_gateOps (s : State) (uid : Nat) (h : Group → Group) : (s.updGroup uid h).gateOps = s.gateOps := rfl
@[simp] theorem State.updGroup_gateStamp (s : State) (uid : Nat) (h : Group → Group) : (s.updGroup uid h).gateStamp = s.gateStamp := rfl
@[simp] theorem State.updGroup_colls (s : State) (uid : Nat) (h : Group → Group) : (s.updGroup uid h).colls = s.colls := rfl
@[simp] theorem State.updGroup_checks (s : State) (uid : Nat) (h : Group → Group) : (s.updGroup uid h).checks = s.checks := rfl
@[simp] theorem State.updGroup_coreRecs (s : State) (uid : Nat) (h : Group → Group) : (s.updGroup uid h).coreRecs = s.coreRecs := rfl
@[simp] theorem State.updGroup_bankTests (s : State) (uid : Nat) (h : Group → Group) : (s.updGroup uid h).bankTests = s.bankTests := rfl
@[simp] theorem State.updGroup_rotation (s : State) (uid : Nat) (h : Group → Group) : (s.updGroup uid h).rotation = s.rotation := rfl
@[simp] theorem State.updGroup_abortPrio (s : State) (uid : Nat) (h : Group → Group) : (s.updGroup uid h).abortPrio = s.abortPrio := rfl
@[simp] theorem State.updGroup_nextTest (s : State) (uid : Nat) (h : Group → Group) : (s.updGroup uid h).nextTest = s.nextTest := rfl
@[simp] theorem State.updGroup_links (s : State) (uid : Nat) (h : Group → Group) : (s.updGroup uid h).links = s.links := rfl
@[simp] theorem State.updGroup_errors (s : State) (uid : Nat) (h : Group → Group) : (s.updGroup uid h).errors = s.errors := rfl
@[simp] theorem State.updGroup_overwritten (s : State) (uid : Nat) (h : Group → Group) : (s.updGroup uid h).overwritten = s.overwritten := rfl
@[simp] theorem State.updGroup_kilsySeq (s : State) (uid : Nat) (h : Group → Group) : (s.updGroup uid h).kilsySeq = s.kilsySeq := rfl
@[simp] theorem State.updGroup_kilsyTime (s : State) (uid : Nat) (h : Group → Group) : (s.updGroup uid h).kilsyTime = s.kilsyTime := rfl
@[simp] theorem State.updGroup_serial (s : State) (uid : Nat) (h : Group → Group) : (s.updGroup uid h).serial = s.serial := rfl
@[simp] theorem State.updGroup_startCount (s : State) (uid : Nat) (h : Group → Group) : (s.updGroup uid h).startCount = s.startCount := rfl
@[simp] theorem State.updGroup_counters (s : State) (uid : Nat) (h : Group → Group) : (s.updGroup uid h).counters = s.counters := rfl
@[simp] theorem State.updGroup_poisonList (s : State) (uid : Nat) (h : Group → Group) : (s.updGroup uid h).poisonList = s.poisonList := rfl
@[simp] theorem State.updGroup_poisonDropped (s : State) (uid : Nat) (h : Group → Group) : (s.updGroup uid h).poisonDropped = s.poisonDropped := rfl
@[simp] theorem State.updGroup_suspects (s : State) (uid : Nat) (h : Group → Group) : (s.updGroup uid h).suspects = s.suspects := rfl
@[simp] theorem State.updGroup_suspectDropped (s : State) (uid : Nat) (h : Group → Group) : (s.updGroup uid h).suspectDropped = s.suspectDropped := rfl
@[simp] theorem State.updGroup_keys (s : State) (uid : Nat) (h : Group → Group) : (s.updGroup uid h).keys = s.keys := rfl
@[simp] theorem State.updGroup_dumpCounts (s : State) (uid : Nat) (h : Group → Group) : (s.updGroup uid h).dumpCounts = s.dumpCounts := rfl
@[simp] theorem State.updGroup_adminRing (s : State) (uid : Nat) (h : Group → Group) : (s.updGroup uid h).adminRing = s.adminRing := rfl
@[simp] theorem State.updGroup_dev (s : State) (uid : Nat) (h : Group → Group) : (s.updGroup uid h).dev = s.dev := rfl
@[simp] theorem State.updGroup_tolerance (s : State) (uid : Nat) (h : Group → Group) : (s.updGroup uid h).tolerance = s.tolerance := rfl
@[simp] theorem State.updGroup_a4Region (s : State) (uid : Nat) (h : Group → Group) : (s.updGroup uid h).a4Region = s.a4Region := rfl
@[simp] theorem State.updGroup_startFails (s : State) (uid : Nat) (h : Group → Group) : (s.updGroup uid h).startFails = s.startFails := rfl
@[simp] theorem State.updGroup_config (s : State) (uid : Nat) (h : Group → Group) : (s.updGroup uid h).config = s.config := rfl
@[simp] theorem State.updGroup_calib (s : State) (uid : Nat) (h : Group → Group) : (s.updGroup uid h).calib = s.calib := rfl
@[simp] theorem State.updGroup_calibSum (s : State) (uid : Nat) (h : Group → Group) : (s.updGroup uid h).calibSum = s.calibSum := rfl
@[simp] theorem State.updGroup_timebase (s : State) (uid : Nat) (h : Group → Group) : (s.updGroup uid h).timebase = s.timebase := rfl
@[simp] theorem State.updGroup_pointers (s : State) (uid : Nat) (h : Group → Group) : (s.updGroup uid h).pointers = s.pointers := rfl
@[simp] theorem State.updGroup_throttled (s : State) (uid : Nat) (h : Group → Group) : (s.updGroup uid h).throttled = s.throttled := rfl
@[simp] theorem State.updGroup_warm (s : State) (uid : Nat) (h : Group → Group) : (s.updGroup uid h).warm = s.warm := rfl
@[simp] theorem State.updGroup_agenda (s : State) (uid : Nat) (h : Group → Group) : (s.updGroup uid h).agenda = s.agenda := rfl
@[simp] theorem State.updGroup_cur (s : State) (uid : Nat) (h : Group → Group) : (s.updGroup uid h).cur = s.cur := rfl
@[simp] theorem State.updGroup_word (s : State) (uid : Nat) (h : Group → Group) : (s.updGroup uid h).word = s.word := rfl
@[simp] theorem State.updGroup_free (s : State) (uid : Nat) (h : Group → Group) : (s.updGroup uid h).free = s.free := rfl
@[simp] theorem State.updGroup_uid (s : State) (uid : Nat) (h : Group → Group) : (s.updGroup uid h).uid = s.uid := rfl
@[simp] theorem State.updGroup_turn (s : State) (uid : Nat) (h : Group → Group) : (s.updGroup uid h).turn = s.turn := rfl
@[simp] theorem State.updGroup_tick (s : State) (uid : Nat) (h : Group → Group) : (s.updGroup uid h).tick = s.tick := rfl
@[simp] theorem State.updGroup_sent (s : State) (uid : Nat) (h : Group → Group) : (s.updGroup uid h).sent = s.sent := rfl

/-! ### updBlock -/

@[simp] theorem State.updBlock_mem (s : State) (b : Nat) (h : Block → Block) : (s.updBlock b h).mem = s.mem := rfl
@[simp] theorem State.updBlock_poison (s : State) (b : Nat) (h : Block → Block) : (s.updBlock b h).poison = s.poison := rfl
@[simp] theorem State.updBlock_versions (s : State) (b : Nat) (h : Block → Block) : (s.updBlock b h).versions = s.versions := rfl
@[simp] theorem State.updBlock_vseq (s : State) (b : Nat) (h : Block → Block) : (s.updBlock b h).vseq = s.vseq := rfl
@[simp] theorem State.updBlock_buffer (s : State) (b : Nat) (h : Block → Block) : (s.updBlock b h).buffer = s.buffer := rfl
@[simp] theorem State.updBlock_updates (s : State) (b : Nat) (h : Block → Block) : (s.updBlock b h).updates = s.updates := rfl
@[simp] theorem State.updBlock_handed (s : State) (b : Nat) (h : Block → Block) : (s.updBlock b h).handed = s.handed := rfl
@[simp] theorem State.updBlock_handedUpd (s : State) (b : Nat) (h : Block → Block) : (s.updBlock b h).handedUpd = s.handedUpd := rfl
@[simp] theorem State.updBlock_green (s : State) (b : Nat) (h : Block → Block) : (s.updBlock b h).green = s.green := rfl
@[simp] theorem State.updBlock_past (s : State) (b : Nat) (h : Block → Block) : (s.updBlock b h).past = s.past := rfl
@[simp] theorem State.updBlock_ownPuts (s : State) (b : Nat) (h : Block → Block) : (s.updBlock b h).ownPuts = s.ownPuts := rfl
@[simp] theorem State.updBlock_handOrder (s : State) (b : Nat) (h : Block → Block) : (s.updBlock b h).handOrder = s.handOrder := rfl
@[simp] theorem State.updBlock_peerStores (s : State) (b : Nat) (h : Block → Block) : (s.updBlock b h).peerStores = s.peerStores := rfl
@[simp] theorem State.updBlock_bounce (s : State) (b : Nat) (h : Block → Block) : (s.updBlock b h).bounce = s.bounce := rfl
@[simp] theorem State.updBlock_l2 (s : State) (b : Nat) (h : Block → Block) : (s.updBlock b h).l2 = s.l2 := rfl
@[simp] theorem State.updBlock_tlbCore (s : State) (b : Nat) (h : Block → Block) : (s.updBlock b h).tlbCore = s.tlbCore := rfl
@[simp] theorem State.updBlock_tlbDie (s : State) (b : Nat) (h : Block → Block) : (s.updBlock b h).tlbDie = s.tlbDie := rfl
@[simp] theorem State.updBlock_usedPages (s : State) (b : Nat) (h : Block → Block) : (s.updBlock b h).usedPages = s.usedPages := rfl
@[simp] theorem State.updBlock_codePages (s : State) (b : Nat) (h : Block → Block) : (s.updBlock b h).codePages = s.codePages := rfl
@[simp] theorem State.updBlock_samples (s : State) (b : Nat) (h : Block → Block) : (s.updBlock b h).samples = s.samples := rfl
@[simp] theorem State.updBlock_parts (s : State) (b : Nat) (h : Block → Block) : (s.updBlock b h).parts = s.parts := rfl
@[simp] theorem State.updBlock_launches (s : State) (b : Nat) (h : Block → Block) : (s.updBlock b h).launches = s.launches := rfl
@[simp] theorem State.updBlock_groups (s : State) (b : Nat) (h : Block → Block) : (s.updBlock b h).groups = s.groups := rfl
@[simp] theorem State.updBlock_sets (s : State) (b : Nat) (h : Block → Block) : (s.updBlock b h).sets = s.sets := rfl
@[simp] theorem State.updBlock_jobs (s : State) (b : Nat) (h : Block → Block) : (s.updBlock b h).jobs = s.jobs := rfl
@[simp] theorem State.updBlock_gates (s : State) (b : Nat) (h : Block → Block) : (s.updBlock b h).gates = s.gates := rfl
@[simp] theorem State.updBlock_gateOps (s : State) (b : Nat) (h : Block → Block) : (s.updBlock b h).gateOps = s.gateOps := rfl
@[simp] theorem State.updBlock_gateStamp (s : State) (b : Nat) (h : Block → Block) : (s.updBlock b h).gateStamp = s.gateStamp := rfl
@[simp] theorem State.updBlock_colls (s : State) (b : Nat) (h : Block → Block) : (s.updBlock b h).colls = s.colls := rfl
@[simp] theorem State.updBlock_checks (s : State) (b : Nat) (h : Block → Block) : (s.updBlock b h).checks = s.checks := rfl
@[simp] theorem State.updBlock_coreRecs (s : State) (b : Nat) (h : Block → Block) : (s.updBlock b h).coreRecs = s.coreRecs := rfl
@[simp] theorem State.updBlock_bankTests (s : State) (b : Nat) (h : Block → Block) : (s.updBlock b h).bankTests = s.bankTests := rfl
@[simp] theorem State.updBlock_rotation (s : State) (b : Nat) (h : Block → Block) : (s.updBlock b h).rotation = s.rotation := rfl
@[simp] theorem State.updBlock_abortPrio (s : State) (b : Nat) (h : Block → Block) : (s.updBlock b h).abortPrio = s.abortPrio := rfl
@[simp] theorem State.updBlock_nextTest (s : State) (b : Nat) (h : Block → Block) : (s.updBlock b h).nextTest = s.nextTest := rfl
@[simp] theorem State.updBlock_links (s : State) (b : Nat) (h : Block → Block) : (s.updBlock b h).links = s.links := rfl
@[simp] theorem State.updBlock_errors (s : State) (b : Nat) (h : Block → Block) : (s.updBlock b h).errors = s.errors := rfl
@[simp] theorem State.updBlock_overwritten (s : State) (b : Nat) (h : Block → Block) : (s.updBlock b h).overwritten = s.overwritten := rfl
@[simp] theorem State.updBlock_kilsySeq (s : State) (b : Nat) (h : Block → Block) : (s.updBlock b h).kilsySeq = s.kilsySeq := rfl
@[simp] theorem State.updBlock_kilsyTime (s : State) (b : Nat) (h : Block → Block) : (s.updBlock b h).kilsyTime = s.kilsyTime := rfl
@[simp] theorem State.updBlock_serial (s : State) (b : Nat) (h : Block → Block) : (s.updBlock b h).serial = s.serial := rfl
@[simp] theorem State.updBlock_startCount (s : State) (b : Nat) (h : Block → Block) : (s.updBlock b h).startCount = s.startCount := rfl
@[simp] theorem State.updBlock_counters (s : State) (b : Nat) (h : Block → Block) : (s.updBlock b h).counters = s.counters := rfl
@[simp] theorem State.updBlock_poisonList (s : State) (b : Nat) (h : Block → Block) : (s.updBlock b h).poisonList = s.poisonList := rfl
@[simp] theorem State.updBlock_poisonDropped (s : State) (b : Nat) (h : Block → Block) : (s.updBlock b h).poisonDropped = s.poisonDropped := rfl
@[simp] theorem State.updBlock_suspects (s : State) (b : Nat) (h : Block → Block) : (s.updBlock b h).suspects = s.suspects := rfl
@[simp] theorem State.updBlock_suspectDropped (s : State) (b : Nat) (h : Block → Block) : (s.updBlock b h).suspectDropped = s.suspectDropped := rfl
@[simp] theorem State.updBlock_keys (s : State) (b : Nat) (h : Block → Block) : (s.updBlock b h).keys = s.keys := rfl
@[simp] theorem State.updBlock_dumpCounts (s : State) (b : Nat) (h : Block → Block) : (s.updBlock b h).dumpCounts = s.dumpCounts := rfl
@[simp] theorem State.updBlock_adminRing (s : State) (b : Nat) (h : Block → Block) : (s.updBlock b h).adminRing = s.adminRing := rfl
@[simp] theorem State.updBlock_dev (s : State) (b : Nat) (h : Block → Block) : (s.updBlock b h).dev = s.dev := rfl
@[simp] theorem State.updBlock_tolerance (s : State) (b : Nat) (h : Block → Block) : (s.updBlock b h).tolerance = s.tolerance := rfl
@[simp] theorem State.updBlock_a4Region (s : State) (b : Nat) (h : Block → Block) : (s.updBlock b h).a4Region = s.a4Region := rfl
@[simp] theorem State.updBlock_startFails (s : State) (b : Nat) (h : Block → Block) : (s.updBlock b h).startFails = s.startFails := rfl
@[simp] theorem State.updBlock_config (s : State) (b : Nat) (h : Block → Block) : (s.updBlock b h).config = s.config := rfl
@[simp] theorem State.updBlock_calib (s : State) (b : Nat) (h : Block → Block) : (s.updBlock b h).calib = s.calib := rfl
@[simp] theorem State.updBlock_calibSum (s : State) (b : Nat) (h : Block → Block) : (s.updBlock b h).calibSum = s.calibSum := rfl
@[simp] theorem State.updBlock_timebase (s : State) (b : Nat) (h : Block → Block) : (s.updBlock b h).timebase = s.timebase := rfl
@[simp] theorem State.updBlock_pointers (s : State) (b : Nat) (h : Block → Block) : (s.updBlock b h).pointers = s.pointers := rfl
@[simp] theorem State.updBlock_throttled (s : State) (b : Nat) (h : Block → Block) : (s.updBlock b h).throttled = s.throttled := rfl
@[simp] theorem State.updBlock_warm (s : State) (b : Nat) (h : Block → Block) : (s.updBlock b h).warm = s.warm := rfl
@[simp] theorem State.updBlock_agenda (s : State) (b : Nat) (h : Block → Block) : (s.updBlock b h).agenda = s.agenda := rfl
@[simp] theorem State.updBlock_cur (s : State) (b : Nat) (h : Block → Block) : (s.updBlock b h).cur = s.cur := rfl
@[simp] theorem State.updBlock_word (s : State) (b : Nat) (h : Block → Block) : (s.updBlock b h).word = s.word := rfl
@[simp] theorem State.updBlock_free (s : State) (b : Nat) (h : Block → Block) : (s.updBlock b h).free = s.free := rfl
@[simp] theorem State.updBlock_uid (s : State) (b : Nat) (h : Block → Block) : (s.updBlock b h).uid = s.uid := rfl
@[simp] theorem State.updBlock_turn (s : State) (b : Nat) (h : Block → Block) : (s.updBlock b h).turn = s.turn := rfl
@[simp] theorem State.updBlock_tick (s : State) (b : Nat) (h : Block → Block) : (s.updBlock b h).tick = s.tick := rfl
@[simp] theorem State.updBlock_sent (s : State) (b : Nat) (h : Block → Block) : (s.updBlock b h).sent = s.sent := rfl

/-! ### updLaunch -/

@[simp] theorem State.updLaunch_mem (s : State) (l : Nat) (h : Launch → Launch) : (s.updLaunch l h).mem = s.mem := rfl
@[simp] theorem State.updLaunch_poison (s : State) (l : Nat) (h : Launch → Launch) : (s.updLaunch l h).poison = s.poison := rfl
@[simp] theorem State.updLaunch_versions (s : State) (l : Nat) (h : Launch → Launch) : (s.updLaunch l h).versions = s.versions := rfl
@[simp] theorem State.updLaunch_vseq (s : State) (l : Nat) (h : Launch → Launch) : (s.updLaunch l h).vseq = s.vseq := rfl
@[simp] theorem State.updLaunch_buffer (s : State) (l : Nat) (h : Launch → Launch) : (s.updLaunch l h).buffer = s.buffer := rfl
@[simp] theorem State.updLaunch_updates (s : State) (l : Nat) (h : Launch → Launch) : (s.updLaunch l h).updates = s.updates := rfl
@[simp] theorem State.updLaunch_handed (s : State) (l : Nat) (h : Launch → Launch) : (s.updLaunch l h).handed = s.handed := rfl
@[simp] theorem State.updLaunch_handedUpd (s : State) (l : Nat) (h : Launch → Launch) : (s.updLaunch l h).handedUpd = s.handedUpd := rfl
@[simp] theorem State.updLaunch_green (s : State) (l : Nat) (h : Launch → Launch) : (s.updLaunch l h).green = s.green := rfl
@[simp] theorem State.updLaunch_past (s : State) (l : Nat) (h : Launch → Launch) : (s.updLaunch l h).past = s.past := rfl
@[simp] theorem State.updLaunch_ownPuts (s : State) (l : Nat) (h : Launch → Launch) : (s.updLaunch l h).ownPuts = s.ownPuts := rfl
@[simp] theorem State.updLaunch_handOrder (s : State) (l : Nat) (h : Launch → Launch) : (s.updLaunch l h).handOrder = s.handOrder := rfl
@[simp] theorem State.updLaunch_peerStores (s : State) (l : Nat) (h : Launch → Launch) : (s.updLaunch l h).peerStores = s.peerStores := rfl
@[simp] theorem State.updLaunch_bounce (s : State) (l : Nat) (h : Launch → Launch) : (s.updLaunch l h).bounce = s.bounce := rfl
@[simp] theorem State.updLaunch_l2 (s : State) (l : Nat) (h : Launch → Launch) : (s.updLaunch l h).l2 = s.l2 := rfl
@[simp] theorem State.updLaunch_tlbCore (s : State) (l : Nat) (h : Launch → Launch) : (s.updLaunch l h).tlbCore = s.tlbCore := rfl
@[simp] theorem State.updLaunch_tlbDie (s : State) (l : Nat) (h : Launch → Launch) : (s.updLaunch l h).tlbDie = s.tlbDie := rfl
@[simp] theorem State.updLaunch_usedPages (s : State) (l : Nat) (h : Launch → Launch) : (s.updLaunch l h).usedPages = s.usedPages := rfl
@[simp] theorem State.updLaunch_codePages (s : State) (l : Nat) (h : Launch → Launch) : (s.updLaunch l h).codePages = s.codePages := rfl
@[simp] theorem State.updLaunch_samples (s : State) (l : Nat) (h : Launch → Launch) : (s.updLaunch l h).samples = s.samples := rfl
@[simp] theorem State.updLaunch_parts (s : State) (l : Nat) (h : Launch → Launch) : (s.updLaunch l h).parts = s.parts := rfl
@[simp] theorem State.updLaunch_blocks (s : State) (l : Nat) (h : Launch → Launch) : (s.updLaunch l h).blocks = s.blocks := rfl
@[simp] theorem State.updLaunch_groups (s : State) (l : Nat) (h : Launch → Launch) : (s.updLaunch l h).groups = s.groups := rfl
@[simp] theorem State.updLaunch_sets (s : State) (l : Nat) (h : Launch → Launch) : (s.updLaunch l h).sets = s.sets := rfl
@[simp] theorem State.updLaunch_jobs (s : State) (l : Nat) (h : Launch → Launch) : (s.updLaunch l h).jobs = s.jobs := rfl
@[simp] theorem State.updLaunch_gates (s : State) (l : Nat) (h : Launch → Launch) : (s.updLaunch l h).gates = s.gates := rfl
@[simp] theorem State.updLaunch_gateOps (s : State) (l : Nat) (h : Launch → Launch) : (s.updLaunch l h).gateOps = s.gateOps := rfl
@[simp] theorem State.updLaunch_gateStamp (s : State) (l : Nat) (h : Launch → Launch) : (s.updLaunch l h).gateStamp = s.gateStamp := rfl
@[simp] theorem State.updLaunch_colls (s : State) (l : Nat) (h : Launch → Launch) : (s.updLaunch l h).colls = s.colls := rfl
@[simp] theorem State.updLaunch_checks (s : State) (l : Nat) (h : Launch → Launch) : (s.updLaunch l h).checks = s.checks := rfl
@[simp] theorem State.updLaunch_coreRecs (s : State) (l : Nat) (h : Launch → Launch) : (s.updLaunch l h).coreRecs = s.coreRecs := rfl
@[simp] theorem State.updLaunch_bankTests (s : State) (l : Nat) (h : Launch → Launch) : (s.updLaunch l h).bankTests = s.bankTests := rfl
@[simp] theorem State.updLaunch_rotation (s : State) (l : Nat) (h : Launch → Launch) : (s.updLaunch l h).rotation = s.rotation := rfl
@[simp] theorem State.updLaunch_abortPrio (s : State) (l : Nat) (h : Launch → Launch) : (s.updLaunch l h).abortPrio = s.abortPrio := rfl
@[simp] theorem State.updLaunch_nextTest (s : State) (l : Nat) (h : Launch → Launch) : (s.updLaunch l h).nextTest = s.nextTest := rfl
@[simp] theorem State.updLaunch_links (s : State) (l : Nat) (h : Launch → Launch) : (s.updLaunch l h).links = s.links := rfl
@[simp] theorem State.updLaunch_errors (s : State) (l : Nat) (h : Launch → Launch) : (s.updLaunch l h).errors = s.errors := rfl
@[simp] theorem State.updLaunch_overwritten (s : State) (l : Nat) (h : Launch → Launch) : (s.updLaunch l h).overwritten = s.overwritten := rfl
@[simp] theorem State.updLaunch_kilsySeq (s : State) (l : Nat) (h : Launch → Launch) : (s.updLaunch l h).kilsySeq = s.kilsySeq := rfl
@[simp] theorem State.updLaunch_kilsyTime (s : State) (l : Nat) (h : Launch → Launch) : (s.updLaunch l h).kilsyTime = s.kilsyTime := rfl
@[simp] theorem State.updLaunch_serial (s : State) (l : Nat) (h : Launch → Launch) : (s.updLaunch l h).serial = s.serial := rfl
@[simp] theorem State.updLaunch_startCount (s : State) (l : Nat) (h : Launch → Launch) : (s.updLaunch l h).startCount = s.startCount := rfl
@[simp] theorem State.updLaunch_counters (s : State) (l : Nat) (h : Launch → Launch) : (s.updLaunch l h).counters = s.counters := rfl
@[simp] theorem State.updLaunch_poisonList (s : State) (l : Nat) (h : Launch → Launch) : (s.updLaunch l h).poisonList = s.poisonList := rfl
@[simp] theorem State.updLaunch_poisonDropped (s : State) (l : Nat) (h : Launch → Launch) : (s.updLaunch l h).poisonDropped = s.poisonDropped := rfl
@[simp] theorem State.updLaunch_suspects (s : State) (l : Nat) (h : Launch → Launch) : (s.updLaunch l h).suspects = s.suspects := rfl
@[simp] theorem State.updLaunch_suspectDropped (s : State) (l : Nat) (h : Launch → Launch) : (s.updLaunch l h).suspectDropped = s.suspectDropped := rfl
@[simp] theorem State.updLaunch_keys (s : State) (l : Nat) (h : Launch → Launch) : (s.updLaunch l h).keys = s.keys := rfl
@[simp] theorem State.updLaunch_dumpCounts (s : State) (l : Nat) (h : Launch → Launch) : (s.updLaunch l h).dumpCounts = s.dumpCounts := rfl
@[simp] theorem State.updLaunch_adminRing (s : State) (l : Nat) (h : Launch → Launch) : (s.updLaunch l h).adminRing = s.adminRing := rfl
@[simp] theorem State.updLaunch_dev (s : State) (l : Nat) (h : Launch → Launch) : (s.updLaunch l h).dev = s.dev := rfl
@[simp] theorem State.updLaunch_tolerance (s : State) (l : Nat) (h : Launch → Launch) : (s.updLaunch l h).tolerance = s.tolerance := rfl
@[simp] theorem State.updLaunch_a4Region (s : State) (l : Nat) (h : Launch → Launch) : (s.updLaunch l h).a4Region = s.a4Region := rfl
@[simp] theorem State.updLaunch_startFails (s : State) (l : Nat) (h : Launch → Launch) : (s.updLaunch l h).startFails = s.startFails := rfl
@[simp] theorem State.updLaunch_config (s : State) (l : Nat) (h : Launch → Launch) : (s.updLaunch l h).config = s.config := rfl
@[simp] theorem State.updLaunch_calib (s : State) (l : Nat) (h : Launch → Launch) : (s.updLaunch l h).calib = s.calib := rfl
@[simp] theorem State.updLaunch_calibSum (s : State) (l : Nat) (h : Launch → Launch) : (s.updLaunch l h).calibSum = s.calibSum := rfl
@[simp] theorem State.updLaunch_timebase (s : State) (l : Nat) (h : Launch → Launch) : (s.updLaunch l h).timebase = s.timebase := rfl
@[simp] theorem State.updLaunch_pointers (s : State) (l : Nat) (h : Launch → Launch) : (s.updLaunch l h).pointers = s.pointers := rfl
@[simp] theorem State.updLaunch_throttled (s : State) (l : Nat) (h : Launch → Launch) : (s.updLaunch l h).throttled = s.throttled := rfl
@[simp] theorem State.updLaunch_warm (s : State) (l : Nat) (h : Launch → Launch) : (s.updLaunch l h).warm = s.warm := rfl
@[simp] theorem State.updLaunch_agenda (s : State) (l : Nat) (h : Launch → Launch) : (s.updLaunch l h).agenda = s.agenda := rfl
@[simp] theorem State.updLaunch_cur (s : State) (l : Nat) (h : Launch → Launch) : (s.updLaunch l h).cur = s.cur := rfl
@[simp] theorem State.updLaunch_word (s : State) (l : Nat) (h : Launch → Launch) : (s.updLaunch l h).word = s.word := rfl
@[simp] theorem State.updLaunch_free (s : State) (l : Nat) (h : Launch → Launch) : (s.updLaunch l h).free = s.free := rfl
@[simp] theorem State.updLaunch_uid (s : State) (l : Nat) (h : Launch → Launch) : (s.updLaunch l h).uid = s.uid := rfl
@[simp] theorem State.updLaunch_turn (s : State) (l : Nat) (h : Launch → Launch) : (s.updLaunch l h).turn = s.turn := rfl
@[simp] theorem State.updLaunch_tick (s : State) (l : Nat) (h : Launch → Launch) : (s.updLaunch l h).tick = s.tick := rfl
@[simp] theorem State.updLaunch_sent (s : State) (l : Nat) (h : Launch → Launch) : (s.updLaunch l h).sent = s.sent := rfl

/-! ### updPart -/

@[simp] theorem State.updPart_mem (s : State) (p : Nat) (h : Part → Part) : (s.updPart p h).mem = s.mem := rfl
@[simp] theorem State.updPart_poison (s : State) (p : Nat) (h : Part → Part) : (s.updPart p h).poison = s.poison := rfl
@[simp] theorem State.updPart_versions (s : State) (p : Nat) (h : Part → Part) : (s.updPart p h).versions = s.versions := rfl
@[simp] theorem State.updPart_vseq (s : State) (p : Nat) (h : Part → Part) : (s.updPart p h).vseq = s.vseq := rfl
@[simp] theorem State.updPart_buffer (s : State) (p : Nat) (h : Part → Part) : (s.updPart p h).buffer = s.buffer := rfl
@[simp] theorem State.updPart_updates (s : State) (p : Nat) (h : Part → Part) : (s.updPart p h).updates = s.updates := rfl
@[simp] theorem State.updPart_handed (s : State) (p : Nat) (h : Part → Part) : (s.updPart p h).handed = s.handed := rfl
@[simp] theorem State.updPart_handedUpd (s : State) (p : Nat) (h : Part → Part) : (s.updPart p h).handedUpd = s.handedUpd := rfl
@[simp] theorem State.updPart_green (s : State) (p : Nat) (h : Part → Part) : (s.updPart p h).green = s.green := rfl
@[simp] theorem State.updPart_past (s : State) (p : Nat) (h : Part → Part) : (s.updPart p h).past = s.past := rfl
@[simp] theorem State.updPart_ownPuts (s : State) (p : Nat) (h : Part → Part) : (s.updPart p h).ownPuts = s.ownPuts := rfl
@[simp] theorem State.updPart_handOrder (s : State) (p : Nat) (h : Part → Part) : (s.updPart p h).handOrder = s.handOrder := rfl
@[simp] theorem State.updPart_peerStores (s : State) (p : Nat) (h : Part → Part) : (s.updPart p h).peerStores = s.peerStores := rfl
@[simp] theorem State.updPart_bounce (s : State) (p : Nat) (h : Part → Part) : (s.updPart p h).bounce = s.bounce := rfl
@[simp] theorem State.updPart_l2 (s : State) (p : Nat) (h : Part → Part) : (s.updPart p h).l2 = s.l2 := rfl
@[simp] theorem State.updPart_tlbCore (s : State) (p : Nat) (h : Part → Part) : (s.updPart p h).tlbCore = s.tlbCore := rfl
@[simp] theorem State.updPart_tlbDie (s : State) (p : Nat) (h : Part → Part) : (s.updPart p h).tlbDie = s.tlbDie := rfl
@[simp] theorem State.updPart_usedPages (s : State) (p : Nat) (h : Part → Part) : (s.updPart p h).usedPages = s.usedPages := rfl
@[simp] theorem State.updPart_codePages (s : State) (p : Nat) (h : Part → Part) : (s.updPart p h).codePages = s.codePages := rfl
@[simp] theorem State.updPart_samples (s : State) (p : Nat) (h : Part → Part) : (s.updPart p h).samples = s.samples := rfl
@[simp] theorem State.updPart_launches (s : State) (p : Nat) (h : Part → Part) : (s.updPart p h).launches = s.launches := rfl
@[simp] theorem State.updPart_blocks (s : State) (p : Nat) (h : Part → Part) : (s.updPart p h).blocks = s.blocks := rfl
@[simp] theorem State.updPart_groups (s : State) (p : Nat) (h : Part → Part) : (s.updPart p h).groups = s.groups := rfl
@[simp] theorem State.updPart_sets (s : State) (p : Nat) (h : Part → Part) : (s.updPart p h).sets = s.sets := rfl
@[simp] theorem State.updPart_jobs (s : State) (p : Nat) (h : Part → Part) : (s.updPart p h).jobs = s.jobs := rfl
@[simp] theorem State.updPart_gates (s : State) (p : Nat) (h : Part → Part) : (s.updPart p h).gates = s.gates := rfl
@[simp] theorem State.updPart_gateOps (s : State) (p : Nat) (h : Part → Part) : (s.updPart p h).gateOps = s.gateOps := rfl
@[simp] theorem State.updPart_gateStamp (s : State) (p : Nat) (h : Part → Part) : (s.updPart p h).gateStamp = s.gateStamp := rfl
@[simp] theorem State.updPart_colls (s : State) (p : Nat) (h : Part → Part) : (s.updPart p h).colls = s.colls := rfl
@[simp] theorem State.updPart_checks (s : State) (p : Nat) (h : Part → Part) : (s.updPart p h).checks = s.checks := rfl
@[simp] theorem State.updPart_coreRecs (s : State) (p : Nat) (h : Part → Part) : (s.updPart p h).coreRecs = s.coreRecs := rfl
@[simp] theorem State.updPart_bankTests (s : State) (p : Nat) (h : Part → Part) : (s.updPart p h).bankTests = s.bankTests := rfl
@[simp] theorem State.updPart_rotation (s : State) (p : Nat) (h : Part → Part) : (s.updPart p h).rotation = s.rotation := rfl
@[simp] theorem State.updPart_abortPrio (s : State) (p : Nat) (h : Part → Part) : (s.updPart p h).abortPrio = s.abortPrio := rfl
@[simp] theorem State.updPart_nextTest (s : State) (p : Nat) (h : Part → Part) : (s.updPart p h).nextTest = s.nextTest := rfl
@[simp] theorem State.updPart_links (s : State) (p : Nat) (h : Part → Part) : (s.updPart p h).links = s.links := rfl
@[simp] theorem State.updPart_errors (s : State) (p : Nat) (h : Part → Part) : (s.updPart p h).errors = s.errors := rfl
@[simp] theorem State.updPart_overwritten (s : State) (p : Nat) (h : Part → Part) : (s.updPart p h).overwritten = s.overwritten := rfl
@[simp] theorem State.updPart_kilsySeq (s : State) (p : Nat) (h : Part → Part) : (s.updPart p h).kilsySeq = s.kilsySeq := rfl
@[simp] theorem State.updPart_kilsyTime (s : State) (p : Nat) (h : Part → Part) : (s.updPart p h).kilsyTime = s.kilsyTime := rfl
@[simp] theorem State.updPart_serial (s : State) (p : Nat) (h : Part → Part) : (s.updPart p h).serial = s.serial := rfl
@[simp] theorem State.updPart_startCount (s : State) (p : Nat) (h : Part → Part) : (s.updPart p h).startCount = s.startCount := rfl
@[simp] theorem State.updPart_counters (s : State) (p : Nat) (h : Part → Part) : (s.updPart p h).counters = s.counters := rfl
@[simp] theorem State.updPart_poisonList (s : State) (p : Nat) (h : Part → Part) : (s.updPart p h).poisonList = s.poisonList := rfl
@[simp] theorem State.updPart_poisonDropped (s : State) (p : Nat) (h : Part → Part) : (s.updPart p h).poisonDropped = s.poisonDropped := rfl
@[simp] theorem State.updPart_suspects (s : State) (p : Nat) (h : Part → Part) : (s.updPart p h).suspects = s.suspects := rfl
@[simp] theorem State.updPart_suspectDropped (s : State) (p : Nat) (h : Part → Part) : (s.updPart p h).suspectDropped = s.suspectDropped := rfl
@[simp] theorem State.updPart_keys (s : State) (p : Nat) (h : Part → Part) : (s.updPart p h).keys = s.keys := rfl
@[simp] theorem State.updPart_dumpCounts (s : State) (p : Nat) (h : Part → Part) : (s.updPart p h).dumpCounts = s.dumpCounts := rfl
@[simp] theorem State.updPart_adminRing (s : State) (p : Nat) (h : Part → Part) : (s.updPart p h).adminRing = s.adminRing := rfl
@[simp] theorem State.updPart_dev (s : State) (p : Nat) (h : Part → Part) : (s.updPart p h).dev = s.dev := rfl
@[simp] theorem State.updPart_tolerance (s : State) (p : Nat) (h : Part → Part) : (s.updPart p h).tolerance = s.tolerance := rfl
@[simp] theorem State.updPart_a4Region (s : State) (p : Nat) (h : Part → Part) : (s.updPart p h).a4Region = s.a4Region := rfl
@[simp] theorem State.updPart_startFails (s : State) (p : Nat) (h : Part → Part) : (s.updPart p h).startFails = s.startFails := rfl
@[simp] theorem State.updPart_config (s : State) (p : Nat) (h : Part → Part) : (s.updPart p h).config = s.config := rfl
@[simp] theorem State.updPart_calib (s : State) (p : Nat) (h : Part → Part) : (s.updPart p h).calib = s.calib := rfl
@[simp] theorem State.updPart_calibSum (s : State) (p : Nat) (h : Part → Part) : (s.updPart p h).calibSum = s.calibSum := rfl
@[simp] theorem State.updPart_timebase (s : State) (p : Nat) (h : Part → Part) : (s.updPart p h).timebase = s.timebase := rfl
@[simp] theorem State.updPart_pointers (s : State) (p : Nat) (h : Part → Part) : (s.updPart p h).pointers = s.pointers := rfl
@[simp] theorem State.updPart_throttled (s : State) (p : Nat) (h : Part → Part) : (s.updPart p h).throttled = s.throttled := rfl
@[simp] theorem State.updPart_warm (s : State) (p : Nat) (h : Part → Part) : (s.updPart p h).warm = s.warm := rfl
@[simp] theorem State.updPart_agenda (s : State) (p : Nat) (h : Part → Part) : (s.updPart p h).agenda = s.agenda := rfl
@[simp] theorem State.updPart_cur (s : State) (p : Nat) (h : Part → Part) : (s.updPart p h).cur = s.cur := rfl
@[simp] theorem State.updPart_word (s : State) (p : Nat) (h : Part → Part) : (s.updPart p h).word = s.word := rfl
@[simp] theorem State.updPart_free (s : State) (p : Nat) (h : Part → Part) : (s.updPart p h).free = s.free := rfl
@[simp] theorem State.updPart_uid (s : State) (p : Nat) (h : Part → Part) : (s.updPart p h).uid = s.uid := rfl
@[simp] theorem State.updPart_turn (s : State) (p : Nat) (h : Part → Part) : (s.updPart p h).turn = s.turn := rfl
@[simp] theorem State.updPart_tick (s : State) (p : Nat) (h : Part → Part) : (s.updPart p h).tick = s.tick := rfl
@[simp] theorem State.updPart_sent (s : State) (p : Nat) (h : Part → Part) : (s.updPart p h).sent = s.sent := rfl

/-! ### What each update writes -/

theorem State.putGroup_get (s : State) (uid u : Nat) (g : Group) :
    (s.putGroup uid g).groups.get u = if u = uid then some g else s.groups.get u := Table.get_put _ _ _ _

theorem State.updFrag_get (s : State) (uid fid u : Nat) (h : Frag → Frag) :
    (s.updFrag uid fid h).groups.get u =
      if u = uid then (s.groups.get uid).map fun g => { g with frags := g.frags.upd fid h } else s.groups.get u :=
  Table.get_upd _ _ _ _

theorem State.updGroup_get (s : State) (uid u : Nat) (h : Group → Group) :
    (s.updGroup uid h).groups.get u = if u = uid then (s.groups.get uid).map h else s.groups.get u := Table.get_upd _ _ _ _

theorem State.updBlock_get (s : State) (b k : Nat) (h : Block → Block) :
    (s.updBlock b h).blocks.get k = if k = b then (s.blocks.get b).map h else s.blocks.get k := Table.get_upd _ _ _ _

theorem State.updLaunch_get (s : State) (l k : Nat) (h : Launch → Launch) :
    (s.updLaunch l h).launches.get k = if k = l then (s.launches.get l).map h else s.launches.get k := Table.get_upd _ _ _ _

theorem State.updPart_get (s : State) (p k : Nat) (h : Part → Part) :
    (s.updPart p h).parts.get k = if k = p then (s.parts.get p).map h else s.parts.get k := Table.get_upd _ _ _ _

end Sys2Proof.Machine
end

