-- ==== Sys2Proof/Laws/Registers.lean ====
section
/-! SUPPORT. What register writes do: lanes of a vector register, scalar registers and mask bits, with everything else left. -/

namespace Sys2Proof.Machine
open Sys2Proof

/-! ### Lanes and masks -/

theorem laneOf_mkLanes (f : Nat → Word) {j : Nat} (h : j < 128) : laneOf (mkLanes f) j = f j := by
  simp [laneOf, mkLanes, h]

theorem foldl_bits (f : Nat → Bool) (n : Nat) :
    (List.range n).foldl (fun a j => if f j then a + 2 ^ j else a) 0 < 2 ^ n ∧
    ∀ j, j < n → ((List.range n).foldl (fun a j => if f j then a + 2 ^ j else a) 0).testBit j = f j := by
  induction n with
  | zero => simp
  | succ n ih =>
    obtain ⟨hlt, hb⟩ := ih
    rw [List.range_succ, List.foldl_append]
    simp only [List.foldl_cons, List.foldl_nil]
    refine ⟨by split <;> rw [Nat.pow_succ] <;> omega, fun j hj => ?_⟩
    by_cases hjn : j = n
    · subst hjn
      split
      · rename_i hf; rw [Nat.add_comm, Nat.testBit_two_pow_add_eq, Nat.testBit_lt_two_pow hlt, hf]; rfl
      · rename_i hf; rw [Nat.testBit_lt_two_pow hlt]; simpa using hf
    · have hj' : j < n := by omega
      split
      · rw [Nat.add_comm, Nat.testBit_two_pow_add_gt hj', hb j hj']
      · exact hb j hj'

theorem getLsbD_mkMask (f : Nat → Bool) {j : Nat} (h : j < 128) : (mkMask f).getLsbD j = f j := by
  simp only [mkMask, BitVec.getLsbD_ofNat, h, decide_true, Bool.true_and]
  exact (foldl_bits f 128).2 j h

/-! ### One write -/

@[simp] theorem Group.write_frags (g : Group) (w : RegWrite) : (g.write w).frags = g.frags := by cases w <;> rfl
@[simp] theorem Group.write_frame (g : Group) (w : RegWrite) : (g.write w).frame = g.frame := by cases w <;> rfl
@[simp] theorem Group.write_undef (g : Group) (w : RegWrite) : (g.write w).undef = g.undef := by cases w <;> rfl

theorem Group.writes_frags (g : Group) (ws : List RegWrite) : (g.writes ws).frags = g.frags := by
  induction ws generalizing g with
  | nil => rfl
  | cons w ws ih => exact (ih (g.write w)).trans (Group.write_frags g w)

theorem Group.writes_frame (g : Group) (ws : List RegWrite) : (g.writes ws).frame = g.frame := by
  induction ws generalizing g with
  | nil => rfl
  | cons w ws ih => exact (ih (g.write w)).trans (Group.write_frame g w)

theorem Group.vreg_write_vec (g : Group) (i k : Nat) (m : Mask) (v : Lanes) :
    (g.write (.vec i m v)).vreg k =
      if k = i then mkLanes fun j => if m.getLsbD j then laneOf v j else laneOf (g.vreg i) j else g.vreg k := by
  by_cases h : k = i
  · subst h; simp [Group.vreg, Group.write]
  · simp [Group.vreg, Group.write, Table.get_put_ne _ _ h, h]

theorem Group.vpoison_write_vec_ne (g : Group) {i k : Nat} (m : Mask) (v : Lanes) (h : k ≠ i) :
    (g.write (.vec i m v)).vpoison.get k = g.vpoison.get k := by
  unfold Group.write
  dsimp only
  split
  · rfl
  · split
    · exact Table.get_del_ne _ h
    · exact Table.get_put_ne _ _ h

theorem Group.sreg_write_sca (g : Group) (i k : Nat) (v : Word) :
    (g.write (.sca i v)).sreg k = if k = i then v else g.sreg k := by
  by_cases h : k = i
  · subst h; simp [Group.sreg, Group.write]
  · simp [Group.sreg, Group.write, Table.get_put_ne _ _ h, h]

/-! ### A result written to a destination -/

/-- The next of consecutive registers written after n of them. -/
theorem WroteVec.write {g h : Group} {m : Mask} {n i : Nat} {val : Nat → Nat} (hw : WroteVec g h m n i val) :
    WroteVec g (h.write (.vec (i + n) m (mkLanes fun j => if m.getLsbD j then toWord (val j / 2 ^ (32 * n)) else 0))) m (n + 1) i val := by
  refine ⟨fun r j hr hj => ?_, fun k hk => ?_, hw.2.2⟩
  · rw [Group.vreg_write_vec]
    obtain rfl | hlt := Nat.lt_succ_iff_lt_or_eq.mp hr |>.symm
    · simp only [if_true, laneOf_mkLanes _ hj, (hw.2.1 (i + r) (by omega)).1]; split <;> rfl
    · rw [if_neg (by omega)]; exact hw.1 r j hlt hj
  · have hk' := hw.2.1 k (by omega)
    rw [Group.vreg_write_vec, if_neg (by omega), Group.vpoison_write_vec_ne _ _ _ (by omega)]
    exact hk'

/-- n registers from i, each written in the lanes of a mask. -/
theorem wroteVec_writes (g : Group) (m : Mask) (i : BitVec 10) (n : Nat) (val : Nat → Nat) :
    WroteVec g (g.writes (destWrites m n (.v i) val)) m n i.toNat val := by
  induction n with
  | zero => exact ⟨fun _ _ h _ => absurd h (Nat.not_lt_zero _), fun _ _ => ⟨rfl, rfl⟩, fun _ => rfl, rfl, rfl⟩
  | succ n ih =>
    simp only [destWrites, Group.writes, List.range_succ, List.map_append, List.foldl_append] at ih ⊢
    exact ih.write

/-- The next of consecutive scalar registers written after n of them. -/
theorem WroteSca.write {g h : Group} {n i x : Nat} (hw : WroteSca g h n i x) :
    WroteSca g (h.write (.sca (i + n) (toWord (x / 2 ^ (32 * n))))) (n + 1) i x := by
  refine ⟨fun r hr => ?_, fun k hk => ?_, hw.2.2⟩
  · rw [Group.sreg_write_sca]
    obtain rfl | hlt := Nat.lt_succ_iff_lt_or_eq.mp hr |>.symm
    · exact ⟨if_pos rfl, by simp [Group.write]⟩
    · have hs := hw.1 r hlt
      exact ⟨(if_neg (by omega)).trans hs.1, by simp [Group.write, hs.2]⟩
  · have hne : k ≠ i + n := by omega
    have hs := hw.2.1 k (by omega)
    rw [Group.sreg_write_sca, if_neg hne]
    exact ⟨hs.1, by simp [Group.write, hne, hs.2]⟩

/-- n scalar registers from i. -/
theorem wroteSca_writes (g : Group) (m : Mask) (i : BitVec 10) (n : Nat) (val : Nat → Nat) :
    WroteSca g (g.writes (destWrites m n (.k i) val)) n i.toNat (val 0) := by
  induction n with
  | zero => exact ⟨fun _ h => absurd h (Nat.not_lt_zero _), fun _ _ => ⟨rfl, .rfl⟩, fun _ => rfl, rfl, rfl⟩
  | succ n ih =>
    simp only [destWrites, Group.writes, List.range_succ, List.map_append, List.foldl_append] at ih ⊢
    exact ih.write

/-- The writes of a result leave it in the destination and nothing else changed. -/
theorem wroteReg_writes (g : Group) (m : Mask) (n : Nat) (d : Opnd) (val : Nat → Nat) :
    WroteReg g (g.writes (destWrites m n d val)) m n d val := by
  cases d with
  | v i => exact wroteVec_writes g m i n val
  | k i => exact wroteSca_writes g m i n val

/-- One masked write of a mask register. -/
theorem Group.mreg_write_msk (g : Group) (a m v : Mask) (i k : Nat) (hk : k ≠ 0) {j : Nat} (hj : j < 128) :
    ((g.write (.msk i m v)).mreg a k).getLsbD j =
      if k = i then (if m.getLsbD j then v.getLsbD j else (g.mreg a k).getLsbD j) else (g.mreg a k).getLsbD j := by
  by_cases h : k = i
  · subst h
    have h1 : (g.write (.msk k m v)).mreg a k = (v &&& m) ||| (g.mreg a k &&& ~~~m) := by
      simp [Group.write, Group.mreg, hk]
    rw [h1, if_pos rfl]
    simp only [BitVec.getLsbD_or, BitVec.getLsbD_and, BitVec.getLsbD_not, hj, decide_true, Bool.true_and]
    cases m.getLsbD j <;> simp
  · simp only [Group.write, Group.mreg, hk, if_false, Table.get_put_ne _ _ h, h]

end Sys2Proof.Machine
end

