-- ==== Sys2Proof/Laws/Issue.lean ====
section
/-! SUPPORT. Everything the shared shapes of instructions can do: the cases of `alu`, `sysFull` and `ctlInstr`, and what an instruction on registers leaves. -/

namespace Sys2Proof.Machine
open Sys2Proof

/-! ### The context -/

/-- A context is what the tables hold. -/
theorem State.ctxOf_some {s : State} {uid fid : Nat} {c : Ctx} (h : s.ctxOf uid fid = some c) :
    c.uid = uid ∧ c.fid = fid ∧ s.groups.get uid = some c.g ∧ c.g.frags.get fid = some c.f ∧
      s.blocks.get c.g.block = some c.b ∧ s.launches.get c.b.launch = some c.l := by
  unfold State.ctxOf at h
  split at h
  · cases h
  · split at h
    · split at h
      · cases h; simp_all
      · cases h
    · cases h

theorem State.ctx_some {s : State} {c : Ctx} (h : s.ctx = some c) :
    s.groups.get c.uid = some c.g ∧ c.g.frags.get c.fid = some c.f ∧ s.blocks.get c.g.block = some c.b ∧
      s.launches.get c.b.launch = some c.l := by
  unfold State.ctx at h
  split at h
  · cases h
  · obtain ⟨h1, h2, h3⟩ := State.ctxOf_some h
    rw [h1, h2]; exact h3

/-! ### Placing a group -/

theorem onlyGroup_putGroup (s : State) (uid : Nat) (g : Group) : OnlyGroup s (s.putGroup uid g) uid :=
  ⟨rfl, fun _ h => Table.get_put_ne _ _ h⟩

theorem oneFrag_advance (g h : Group) (fid : Nat) (f : Frag) (hf : h.frags = g.frags) : OneFrag g (h.advance fid f) fid f.next :=
  fun k => by simp [Group.advance, Group.putFrag, Table.get_put, hf]

@[simp] theorem Group.advance_frame (g : Group) (fid : Nat) (f : Frag) : (g.advance fid f).frame = g.frame := rfl
@[simp] theorem Group.putFrag_frame (g : Group) (fid : Nat) (f : Frag) : (g.putFrag fid f).frame = g.frame := rfl

/-- A group advanced with its registers written as a result. -/
theorem wroteReg_advance {g h : Group} {m : Mask} {n : Nat} {d : Opnd} {val : Nat → Nat} (fid : Nat) (f : Frag)
    (hw : WroteReg g h m n d val) : WroteReg g (h.advance fid f) m n d val := by cases d <;> exact hw

/-! ### Instructions on registers -/

section
variable {s : State} {c : Ctx} {g : Guard} {ds ss : List (Nat × Opnd)} {cross : Bool} {k : Ctx → Mask → Except Trap Group}

/-- What keeps an `alu` from its effect is met first. -/
theorem alu_barred {x : Bar} (hc : s.ctx = some c) (hx : s.precheck c (ds ++ ss) = some x) :
    alu s g ds ss cross k = .next (c.barred s x) := by simp only [alu, hc, hx]

/-- An empty effective mask only goes on. -/
theorem alu_idle (hc : s.ctx = some c) (hp : s.precheck c (ds ++ ss) = none) (he : c.eff g = 0) :
    alu s g ds ss cross k = .next (s.putGroup c.uid (c.g.advance c.fid c.f)) := by simp only [alu, hc, hp, he, if_true]

/-- A poisoned source. -/
theorem alu_poisoned {r : Bool × Nat} (hc : s.ctx = some c) (hp : s.precheck c (ds ++ ss) = none) (he : c.eff g ≠ 0)
    (hq : c.g.poisoned (if cross then c.f.mask else c.eff g) (usedRegs ss) = some r) :
    alu s g ds ss cross k = c.trapped s { kind := 0, code := .poison, pc := c.f.pc, info := poisonInfo r } := by
  simp only [alu, hc, hp, he, hq, if_false]

/-- Where nothing stops it, an `alu` comes to what its own part comes to. -/
theorem alu_runs (hc : Clear s c g ds ss cross) : alu s g ds ss cross k = c.outcome s (k c (c.eff g)) := by
  simp only [alu, hc.1, hc.2.1, hc.2.2.1, hc.2.2.2, if_false]

/-- Where nothing stops it, `alu` answers the group its own part gives. -/
theorem alu_clear {h : Group} (hc : Clear s c g ds ss cross) (hk : k c (c.eff g) = .ok h) :
    alu s g ds ss cross k = .next (s.putGroup c.uid (h.advance c.fid (h.frags.getD c.fid c.f))) := by
  rw [alu_runs hc, hk]; rfl

/-- Everything `alu` can do: with no issuer a fault; what the prologue finds; an empty effective mask, which only goes on; a POISON; or what its own part comes to. -/
theorem alu_cases (s : State) (g : Guard) (ds ss : List (Nat × Opnd)) (cross : Bool) (k : Ctx → Mask → Except Trap Group) :
    (s.ctx = none ∧ alu s g ds ss cross k = .fault .noIssuer) ∨
    ∃ c, s.ctx = some c ∧
      ((∃ x, s.precheck c (ds ++ ss) = some x ∧ alu s g ds ss cross k = .next (c.barred s x)) ∨
       (c.eff g = 0 ∧ alu s g ds ss cross k = .next (s.putGroup c.uid (c.g.advance c.fid c.f))) ∨
       (∃ r, c.g.poisoned (if cross then c.f.mask else c.eff g) (usedRegs ss) = some r ∧
          alu s g ds ss cross k = c.trapped s { kind := 0, code := .poison, pc := c.f.pc, info := poisonInfo r }) ∨
       (Clear s c g ds ss cross ∧ alu s g ds ss cross k = c.outcome s (k c (c.eff g)))) := by
  cases hc : s.ctx with
  | none => left; simp only [alu, hc, and_self]
  | some c =>
    right
    refine ⟨c, rfl, ?_⟩
    cases hp : s.precheck c (ds ++ ss) with
    | some x => left; exact ⟨x, rfl, alu_barred hc hp⟩
    | none =>
      right
      by_cases he : c.eff g = 0
      · left; exact ⟨he, alu_idle hc hp he⟩
      · right
        cases hq : c.g.poisoned (if cross then c.f.mask else c.eff g) (usedRegs ss) with
        | some r => left; exact ⟨r, rfl, alu_poisoned hc hp he hq⟩
        | none => right; exact have hr : Clear s c g ds ss cross := ⟨hc, hp, he, hq⟩; ⟨hr, alu_runs hr⟩

end

/-- Where nothing stops it, an `alu` whose own part writes a result leaves that result and nothing else. -/
theorem alu_wrote {s : State} {c : Ctx} {g : Guard} {ds ss : List (Nat × Opnd)} {cross : Bool} {k : Ctx → Mask → Except Trap Group}
    {n : Nat} {d : Opnd} {val : Nat → Nat} (hc : Clear s c g ds ss cross)
    (hk : k c (c.eff g) = .ok (c.g.writes (destWrites (c.eff g) n d val))) :
    ∃ t, alu s g ds ss cross k = .next t ∧ Wrote s t c (c.eff g) n d val := by
  refine ⟨_, alu_clear hc hk, onlyGroup_putGroup _ _ _, _, by rw [State.putGroup_get, if_pos rfl], ?_, ?_, ?_⟩
  · rw [Group.advance_frame, Group.writes_frame]
  · have hf := (State.ctx_some hc.1).2.1
    have : (c.g.writes (destWrites (c.eff g) n d val)).frags.getD c.fid c.f = c.f := by
      rw [Group.writes_frags, Table.getD_eq, hf]; rfl
    rw [this]
    exact oneFrag_advance _ _ _ _ (Group.writes_frags _ _)
  · exact wroteReg_advance _ _ (wroteReg_writes _ _ _ _ _)

/-- The prologue of `sysFull`, by cases. -/
theorem sysFull_clear {s : State} {c : Ctx} {g : Guard} {priv bad : Ctx → Bool} {ds ss : List (Nat × Opnd)} {k : Ctx → Mask → Act}
    (hc : Clear s c g ds ss false) (hp : priv c = false) (hb : bad c = false) :
    sysFull s g priv bad ds ss k = c.finish s (k c (c.eff g)) := by
  obtain ⟨h1, h2, h3, h4⟩ := hc
  simp only [Bool.false_eq_true, if_false] at h4
  simp only [sysFull, h1, h2, h3, h4, hp, hb, if_false, Bool.false_eq_true]

theorem sysInstr_clear {s : State} {c : Ctx} {g : Guard} {ds ss : List (Nat × Opnd)} {k : Ctx → Mask → Act}
    (hc : Clear s c g ds ss false) : sysInstr s g ds ss k = c.finish s (k c (c.eff g)) := sysFull_clear hc rfl rfl

theorem ctlInstr_clear {s : State} {c : Ctx} {g : Guard} {ss : List (Nat × Opnd)} {k : Ctx → Act} (hc : ClearJump s c g ss) :
    ctlInstr s g ss k = c.finish s (k c) := by
  obtain ⟨h1, h2, h3⟩ := hc
  have hq : (if c.eff g = 0 then none else c.g.poisoned c.f.mask (usedRegs ss)) = none := by
    split
    · rfl
    · exact h3.resolve_left ‹_›
  simp only [ctlInstr, h1, h2, hq, Bool.false_eq_true, if_false]

/-- The fragment going on, read back. -/
theorem State.advance_get (s : State) (uid fid u : Nat) :
    (s.advance uid fid).groups.get u =
      if u = uid then (s.groups.get uid).map fun g => { g with frags := g.frags.upd fid Frag.next } else s.groups.get u :=
  State.updFrag_get _ _ _ _ _

/-- A finished instruction that changes nothing leaves only the fragment gone on. -/
theorem moved_advance {s : State} {c : Ctx} (hc : s.ctx = some c) : Moved s (s.advance c.uid c.fid) c c.f.next := by
  obtain ⟨hg, hf, -, -⟩ := State.ctx_some hc
  refine ⟨⟨rfl, fun u hu => by rw [State.advance_get, if_neg hu]⟩, { c.g with frags := c.g.frags.upd c.fid Frag.next },
    by rw [State.advance_get, if_pos rfl, hg]; rfl, rfl, ⟨rfl, rfl, rfl, rfl, rfl⟩, fun k => ?_⟩
  rw [Table.get_upd, hf]; rfl

end Sys2Proof.Machine
end

