-- ==== Sys2Proof/Laws/PerInstr.lean ====
section
/-! SUPPORT. Laws made per instruction. -/

namespace Sys2Proof.Laws

/-- The family `Opcode` (02 R37, R51): an instruction has a word exactly where it has an opcode and a format, and both are of the opcode table: an assigned opcode above the two that no instruction has, and one of the seven formats. A step of the machine has neither. -/
def Opcode.Statement (i : Instr) : Prop :=
  (encode i).isSome = (Machine.opFormat i).isSome
    ∧ (Machine.opFormat i).all (fun p => decide (2 ≤ p.1) && Machine.opAssigned p.1 && decide (p.2 ≤ 6)) = true

theorem Opcode.add a : Opcode.Statement (.add a) := ⟨rfl, rfl⟩
theorem Opcode.addImm a : Opcode.Statement (.addImm a) := ⟨rfl, rfl⟩
theorem Opcode.sub a : Opcode.Statement (.sub a) := ⟨rfl, rfl⟩
theorem Opcode.subImm a : Opcode.Statement (.subImm a) := ⟨rfl, rfl⟩
theorem Opcode.addc a : Opcode.Statement (.addc a) := ⟨rfl, rfl⟩
theorem Opcode.subb a : Opcode.Statement (.subb a) := ⟨rfl, rfl⟩
theorem Opcode.mul a : Opcode.Statement (.mul a) := ⟨rfl, rfl⟩
theorem Opcode.mulImm a : Opcode.Statement (.mulImm a) := ⟨rfl, rfl⟩
theorem Opcode.mulh a : Opcode.Statement (.mulh a) := ⟨rfl, rfl⟩
theorem Opcode.mulw a : Opcode.Statement (.mulw a) := ⟨rfl, rfl⟩
theorem Opcode.mad a : Opcode.Statement (.mad a) := ⟨rfl, rfl⟩
theorem Opcode.madw a : Opcode.Statement (.madw a) := ⟨rfl, rfl⟩
theorem Opcode.div a : Opcode.Statement (.div a) := ⟨rfl, rfl⟩
theorem Opcode.divImm a : Opcode.Statement (.divImm a) := ⟨rfl, rfl⟩
theorem Opcode.rem a : Opcode.Statement (.rem a) := ⟨rfl, rfl⟩
theorem Opcode.remImm a : Opcode.Statement (.remImm a) := ⟨rfl, rfl⟩
theorem Opcode.neg a : Opcode.Statement (.neg a) := ⟨rfl, rfl⟩
theorem Opcode.abs a : Opcode.Statement (.abs a) := ⟨rfl, rfl⟩
theorem Opcode.min a : Opcode.Statement (.min a) := ⟨rfl, rfl⟩
theorem Opcode.minImm a : Opcode.Statement (.minImm a) := ⟨rfl, rfl⟩
theorem Opcode.max a : Opcode.Statement (.max a) := ⟨rfl, rfl⟩
theorem Opcode.maxImm a : Opcode.Statement (.maxImm a) := ⟨rfl, rfl⟩
theorem Opcode.and a : Opcode.Statement (.and a) := ⟨rfl, rfl⟩
theorem Opcode.andImm a : Opcode.Statement (.andImm a) := ⟨rfl, rfl⟩
theorem Opcode.or a : Opcode.Statement (.or a) := ⟨rfl, rfl⟩
theorem Opcode.orImm a : Opcode.Statement (.orImm a) := ⟨rfl, rfl⟩
theorem Opcode.xor a : Opcode.Statement (.xor a) := ⟨rfl, rfl⟩
theorem Opcode.xorImm a : Opcode.Statement (.xorImm a) := ⟨rfl, rfl⟩
theorem Opcode.not a : Opcode.Statement (.not a) := ⟨rfl, rfl⟩
theorem Opcode.andn a : Opcode.Statement (.andn a) := ⟨rfl, rfl⟩
theorem Opcode.shl a : Opcode.Statement (.shl a) := ⟨rfl, rfl⟩
theorem Opcode.shlImm a : Opcode.Statement (.shlImm a) := ⟨rfl, rfl⟩
theorem Opcode.shr a : Opcode.Statement (.shr a) := ⟨rfl, rfl⟩
theorem Opcode.shrImm a : Opcode.Statement (.shrImm a) := ⟨rfl, rfl⟩
theorem Opcode.sra a : Opcode.Statement (.sra a) := ⟨rfl, rfl⟩
theorem Opcode.sraImm a : Opcode.Statement (.sraImm a) := ⟨rfl, rfl⟩
theorem Opcode.rotl a : Opcode.Statement (.rotl a) := ⟨rfl, rfl⟩
theorem Opcode.rotlImm a : Opcode.Statement (.rotlImm a) := ⟨rfl, rfl⟩
theorem Opcode.rotr a : Opcode.Statement (.rotr a) := ⟨rfl, rfl⟩
theorem Opcode.rotrImm a : Opcode.Statement (.rotrImm a) := ⟨rfl, rfl⟩
theorem Opcode.clz a : Opcode.Statement (.clz a) := ⟨rfl, rfl⟩
theorem Opcode.popc a : Opcode.Statement (.popc a) := ⟨rfl, rfl⟩
theorem Opcode.brev a : Opcode.Statement (.brev a) := ⟨rfl, rfl⟩
theorem Opcode.bfx a : Opcode.Statement (.bfx a) := ⟨rfl, rfl⟩
theorem Opcode.bfxImm a : Opcode.Statement (.bfxImm a) := ⟨rfl, rfl⟩
theorem Opcode.bfi a : Opcode.Statement (.bfi a) := ⟨rfl, rfl⟩
theorem Opcode.bfiImm a : Opcode.Statement (.bfiImm a) := ⟨rfl, rfl⟩
theorem Opcode.sel a : Opcode.Statement (.sel a) := ⟨rfl, rfl⟩
theorem Opcode.cmp a : Opcode.Statement (.cmp a) := ⟨rfl, rfl⟩
theorem Opcode.cmpImm a : Opcode.Statement (.cmpImm a) := ⟨rfl, rfl⟩
theorem Opcode.lea a : Opcode.Statement (.lea a) := ⟨rfl, rfl⟩
theorem Opcode.addw a : Opcode.Statement (.addw a) := ⟨rfl, rfl⟩
theorem Opcode.addwImm a : Opcode.Statement (.addwImm a) := ⟨rfl, rfl⟩
theorem Opcode.mov a : Opcode.Statement (.mov a) := ⟨rfl, rfl⟩
theorem Opcode.movImm a : Opcode.Statement (.movImm a) := ⟨rfl, rfl⟩
theorem Opcode.movi a : Opcode.Statement (.movi a) := ⟨rfl, rfl⟩
theorem Opcode.movx a : Opcode.Statement (.movx a) := ⟨rfl, rfl⟩
theorem Opcode.movy a : Opcode.Statement (.movy a) := ⟨rfl, rfl⟩
theorem Opcode.dot4 a : Opcode.Statement (.dot4 a) := ⟨rfl, rfl⟩
theorem Opcode.sad a : Opcode.Statement (.sad a) := ⟨rfl, rfl⟩
theorem Opcode.iota a : Opcode.Statement (.iota a) := ⟨rfl, rfl⟩
theorem Opcode.fadd a : Opcode.Statement (.fadd a) := ⟨rfl, rfl⟩
theorem Opcode.fsub a : Opcode.Statement (.fsub a) := ⟨rfl, rfl⟩
theorem Opcode.fmul a : Opcode.Statement (.fmul a) := ⟨rfl, rfl⟩
theorem Opcode.fma a : Opcode.Statement (.fma a) := ⟨rfl, rfl⟩
theorem Opcode.fnma a : Opcode.Statement (.fnma a) := ⟨rfl, rfl⟩
theorem Opcode.fmin a : Opcode.Statement (.fmin a) := ⟨rfl, rfl⟩
theorem Opcode.fmax a : Opcode.Statement (.fmax a) := ⟨rfl, rfl⟩
theorem Opcode.fminm a : Opcode.Statement (.fminm a) := ⟨rfl, rfl⟩
theorem Opcode.fmaxm a : Opcode.Statement (.fmaxm a) := ⟨rfl, rfl⟩
theorem Opcode.fabs a : Opcode.Statement (.fabs a) := ⟨rfl, rfl⟩
theorem Opcode.fneg a : Opcode.Statement (.fneg a) := ⟨rfl, rfl⟩
theorem Opcode.fcmp a : Opcode.Statement (.fcmp a) := ⟨rfl, rfl⟩
theorem Opcode.frcp a : Opcode.Statement (.frcp a) := ⟨rfl, rfl⟩
theorem Opcode.frsq a : Opcode.Statement (.frsq a) := ⟨rfl, rfl⟩
theorem Opcode.fsqrt a : Opcode.Statement (.fsqrt a) := ⟨rfl, rfl⟩
theorem Opcode.fexp2 a : Opcode.Statement (.fexp2 a) := ⟨rfl, rfl⟩
theorem Opcode.flog2 a : Opcode.Statement (.flog2 a) := ⟨rfl, rfl⟩
theorem Opcode.fsinpi a : Opcode.Statement (.fsinpi a) := ⟨rfl, rfl⟩
theorem Opcode.fcospi a : Opcode.Statement (.fcospi a) := ⟨rfl, rfl⟩
theorem Opcode.ftanh a : Opcode.Statement (.ftanh a) := ⟨rfl, rfl⟩
theorem Opcode.fsigm a : Opcode.Statement (.fsigm a) := ⟨rfl, rfl⟩
theorem Opcode.ffrac a : Opcode.Statement (.ffrac a) := ⟨rfl, rfl⟩
theorem Opcode.fround a : Opcode.Statement (.fround a) := ⟨rfl, rfl⟩
theorem Opcode.fclass a : Opcode.Statement (.fclass a) := ⟨rfl, rfl⟩
theorem Opcode.fldexp a : Opcode.Statement (.fldexp a) := ⟨rfl, rfl⟩
theorem Opcode.fldexpImm a : Opcode.Statement (.fldexpImm a) := ⟨rfl, rfl⟩
theorem Opcode.ffrexp a : Opcode.Statement (.ffrexp a) := ⟨rfl, rfl⟩
theorem Opcode.fdot2 a : Opcode.Statement (.fdot2 a) := ⟨rfl, rfl⟩
theorem Opcode.cvt a : Opcode.Statement (.cvt a) := ⟨rfl, rfl⟩
theorem Opcode.cvti a : Opcode.Statement (.cvti a) := ⟨rfl, rfl⟩
theorem Opcode.pack a : Opcode.Statement (.pack a) := ⟨rfl, rfl⟩
theorem Opcode.unpack a : Opcode.Statement (.unpack a) := ⟨rfl, rfl⟩
theorem Opcode.unpackElement a : Opcode.Statement (.unpackElement a) := ⟨rfl, rfl⟩
theorem Opcode.dq a : Opcode.Statement (.dq a) := ⟨rfl, rfl⟩
theorem Opcode.qz a : Opcode.Statement (.qz a) := ⟨rfl, rfl⟩
theorem Opcode.srseed a : Opcode.Statement (.srseed a) := ⟨rfl, rfl⟩
theorem Opcode.srseedImm a : Opcode.Statement (.srseedImm a) := ⟨rfl, rfl⟩
theorem Opcode.srread a : Opcode.Statement (.srread a) := ⟨rfl, rfl⟩
theorem Opcode.perm a : Opcode.Statement (.perm a) := ⟨rfl, rfl⟩
theorem Opcode.permBytes a : Opcode.Statement (.permBytes a) := ⟨rfl, rfl⟩
theorem Opcode.bcast a : Opcode.Statement (.bcast a) := ⟨rfl, rfl⟩
theorem Opcode.bcastImm a : Opcode.Statement (.bcastImm a) := ⟨rfl, rfl⟩
theorem Opcode.lshift a : Opcode.Statement (.lshift a) := ⟨rfl, rfl⟩
theorem Opcode.lshiftImm a : Opcode.Statement (.lshiftImm a) := ⟨rfl, rfl⟩
theorem Opcode.bshift a : Opcode.Statement (.bshift a) := ⟨rfl, rfl⟩
theorem Opcode.bshiftImm a : Opcode.Statement (.bshiftImm a) := ⟨rfl, rfl⟩
theorem Opcode.tlk a : Opcode.Statement (.tlk a) := ⟨rfl, rfl⟩
theorem Opcode.bsel a : Opcode.Statement (.bsel a) := ⟨rfl, rfl⟩
theorem Opcode.vote a : Opcode.Statement (.vote a) := ⟨rfl, rfl⟩
theorem Opcode.mpop a : Opcode.Statement (.mpop a) := ⟨rfl, rfl⟩
theorem Opcode.mfirst a : Opcode.Statement (.mfirst a) := ⟨rfl, rfl⟩
theorem Opcode.mand a : Opcode.Statement (.mand a) := ⟨rfl, rfl⟩
theorem Opcode.mor a : Opcode.Statement (.mor a) := ⟨rfl, rfl⟩
theorem Opcode.mxor a : Opcode.Statement (.mxor a) := ⟨rfl, rfl⟩
theorem Opcode.mnot a : Opcode.Statement (.mnot a) := ⟨rfl, rfl⟩
theorem Opcode.scan a : Opcode.Statement (.scan a) := ⟨rfl, rfl⟩
theorem Opcode.reduce a : Opcode.Statement (.reduce a) := ⟨rfl, rfl⟩
theorem Opcode.rank a : Opcode.Statement (.rank a) := ⟨rfl, rfl⟩
theorem Opcode.br a : Opcode.Statement (.br a) := ⟨rfl, rfl⟩
theorem Opcode.bru a : Opcode.Statement (.bru a) := ⟨rfl, rfl⟩
theorem Opcode.jmp a : Opcode.Statement (.jmp a) := ⟨rfl, rfl⟩
theorem Opcode.call a : Opcode.Statement (.call a) := ⟨rfl, rfl⟩
theorem Opcode.ret a : Opcode.Statement (.ret a) := ⟨rfl, rfl⟩
theorem Opcode.brx a : Opcode.Statement (.brx a) := ⟨rfl, rfl⟩
theorem Opcode.exit a : Opcode.Statement (.exit a) := ⟨rfl, rfl⟩
theorem Opcode.yield a : Opcode.Statement (.yield a) := ⟨rfl, rfl⟩
theorem Opcode.sleep a : Opcode.Statement (.sleep a) := ⟨rfl, rfl⟩
theorem Opcode.nop a : Opcode.Statement (.nop a) := ⟨rfl, rfl⟩
theorem Opcode.trap a : Opcode.Statement (.trap a) := ⟨rfl, rfl⟩
theorem Opcode.tret a : Opcode.Statement (.tret a) := ⟨rfl, rfl⟩
theorem Opcode.pdone a : Opcode.Statement (.pdone a) := ⟨rfl, rfl⟩
theorem Opcode.rmark a : Opcode.Statement (.rmark a) := ⟨rfl, rfl⟩
theorem Opcode.deq a : Opcode.Statement (.deq a) := ⟨rfl, rfl⟩
theorem Opcode.enq a : Opcode.Statement (.enq a) := ⟨rfl, rfl⟩
theorem Opcode.ld a : Opcode.Statement (.ld a) := ⟨rfl, rfl⟩
theorem Opcode.st a : Opcode.Statement (.st a) := ⟨rfl, rfl⟩
theorem Opcode.ldu a : Opcode.Statement (.ldu a) := ⟨rfl, rfl⟩
theorem Opcode.stu a : Opcode.Statement (.stu a) := ⟨rfl, rfl⟩
theorem Opcode.ldw a : Opcode.Statement (.ldw a) := ⟨rfl, rfl⟩
theorem Opcode.stw a : Opcode.Statement (.stw a) := ⟨rfl, rfl⟩
theorem Opcode.ldf a : Opcode.Statement (.ldf a) := ⟨rfl, rfl⟩
theorem Opcode.ste a : Opcode.Statement (.ste a) := ⟨rfl, rfl⟩
theorem Opcode.fefill a : Opcode.Statement (.fefill a) := ⟨rfl, rfl⟩
theorem Opcode.feget a : Opcode.Statement (.feget a) := ⟨rfl, rfl⟩
theorem Opcode.setw a : Opcode.Statement (.setw a) := ⟨rfl, rfl⟩
theorem Opcode.fillw a : Opcode.Statement (.fillw a) := ⟨rfl, rfl⟩
theorem Opcode.flushw a : Opcode.Statement (.flushw a) := ⟨rfl, rfl⟩
theorem Opcode.prefetch a : Opcode.Statement (.prefetch a) := ⟨rfl, rfl⟩
theorem Opcode.pub a : Opcode.Statement (.pub a) := ⟨rfl, rfl⟩
theorem Opcode.snap a : Opcode.Statement (.snap a) := ⟨rfl, rfl⟩
theorem Opcode.phase a : Opcode.Statement (.phase a) := ⟨rfl, rfl⟩
theorem Opcode.fence a : Opcode.Statement (.fence a) := ⟨rfl, rfl⟩
theorem Opcode.waitc a : Opcode.Statement (.waitc a) := ⟨rfl, rfl⟩
theorem Opcode.waitr a : Opcode.Statement (.waitr a) := ⟨rfl, rfl⟩
theorem Opcode.atom a : Opcode.Statement (.atom a) := ⟨rfl, rfl⟩
theorem Opcode.atomWindow a : Opcode.Statement (.atomWindow a) := ⟨rfl, rfl⟩
theorem Opcode.cas a : Opcode.Statement (.cas a) := ⟨rfl, rfl⟩
theorem Opcode.casWindow a : Opcode.Statement (.casWindow a) := ⟨rfl, rfl⟩
theorem Opcode.red a : Opcode.Statement (.red a) := ⟨rfl, rfl⟩
theorem Opcode.redWindow a : Opcode.Statement (.redWindow a) := ⟨rfl, rfl⟩
theorem Opcode.atomf a : Opcode.Statement (.atomf a) := ⟨rfl, rfl⟩
theorem Opcode.atomfWindow a : Opcode.Statement (.atomfWindow a) := ⟨rfl, rfl⟩
theorem Opcode.redf a : Opcode.Statement (.redf a) := ⟨rfl, rfl⟩
theorem Opcode.redfWindow a : Opcode.Statement (.redfWindow a) := ⟨rfl, rfl⟩
theorem Opcode.atomw a : Opcode.Statement (.atomw a) := ⟨rfl, rfl⟩
theorem Opcode.barinit a : Opcode.Statement (.barinit a) := ⟨rfl, rfl⟩
theorem Opcode.bararr a : Opcode.Statement (.bararr a) := ⟨rfl, rfl⟩
theorem Opcode.barwait a : Opcode.Statement (.barwait a) := ⟨rfl, rfl⟩
theorem Opcode.bartok a : Opcode.Statement (.bartok a) := ⟨rfl, rfl⟩
theorem Opcode.qpush a : Opcode.Statement (.qpush a) := ⟨rfl, rfl⟩
theorem Opcode.qpop a : Opcode.Statement (.qpop a) := ⟨rfl, rfl⟩
theorem Opcode.qstat a : Opcode.Statement (.qstat a) := ⟨rfl, rfl⟩
theorem Opcode.copy a : Opcode.Statement (.copy a) := ⟨rfl, rfl⟩
theorem Opcode.gcopy a : Opcode.Statement (.gcopy a) := ⟨rfl, rfl⟩
theorem Opcode.tcfg a : Opcode.Statement (.tcfg a) := ⟨rfl, rfl⟩
theorem Opcode.unf a : Opcode.Statement (.unf a) := ⟨rfl, rfl⟩
theorem Opcode.bload a : Opcode.Statement (.bload a) := ⟨rfl, rfl⟩
theorem Opcode.xfetch a : Opcode.Statement (.xfetch a) := ⟨rfl, rfl⟩
theorem Opcode.mma a : Opcode.Statement (.mma a) := ⟨rfl, rfl⟩
theorem Opcode.accz a : Opcode.Statement (.accz a) := ⟨rfl, rfl⟩
theorem Opcode.accld a : Opcode.Statement (.accld a) := ⟨rfl, rfl⟩
theorem Opcode.accst a : Opcode.Statement (.accst a) := ⟨rfl, rfl⟩
theorem Opcode.drain a : Opcode.Statement (.drain a) := ⟨rfl, rfl⟩
theorem Opcode.chain a : Opcode.Statement (.chain a) := ⟨rfl, rfl⟩
theorem Opcode.tsync a : Opcode.Statement (.tsync a) := ⟨rfl, rfl⟩
theorem Opcode.tsig a : Opcode.Statement (.tsig a) := ⟨rfl, rfl⟩
theorem Opcode.ecnt a : Opcode.Statement (.ecnt a) := ⟨rfl, rfl⟩
theorem Opcode.xstat a : Opcode.Statement (.xstat a) := ⟨rfl, rfl⟩
theorem Opcode.coll a : Opcode.Statement (.coll a) := ⟨rfl, rfl⟩
theorem Opcode.cview a : Opcode.Statement (.cview a) := ⟨rfl, rfl⟩
theorem Opcode.cpolicy a : Opcode.Statement (.cpolicy a) := ⟨rfl, rfl⟩
theorem Opcode.cack a : Opcode.Statement (.cack a) := ⟨rfl, rfl⟩
theorem Opcode.cjoin a : Opcode.Statement (.cjoin a) := ⟨rfl, rfl⟩
theorem Opcode.gsig a : Opcode.Statement (.gsig a) := ⟨rfl, rfl⟩
theorem Opcode.gwait a : Opcode.Statement (.gwait a) := ⟨rfl, rfl⟩
theorem Opcode.gtry a : Opcode.Statement (.gtry a) := ⟨rfl, rfl⟩
theorem Opcode.gxch a : Opcode.Statement (.gxch a) := ⟨rfl, rfl⟩
theorem Opcode.gstat a : Opcode.Statement (.gstat a) := ⟨rfl, rfl⟩
theorem Opcode.sysrd a : Opcode.Statement (.sysrd a) := ⟨rfl, rfl⟩
theorem Opcode.syswr a : Opcode.Statement (.syswr a) := ⟨rfl, rfl⟩
theorem Opcode.clk a : Opcode.Statement (.clk a) := ⟨rfl, rfl⟩
theorem Opcode.runk a : Opcode.Statement (.runk a) := ⟨rfl, rfl⟩
theorem Opcode.brk a : Opcode.Statement (.brk a) := ⟨rfl, rfl⟩
theorem Opcode.mark a : Opcode.Statement (.mark a) := ⟨rfl, rfl⟩
theorem Opcode.sampctl a : Opcode.Statement (.sampctl a) := ⟨rfl, rfl⟩
theorem Opcode.svc a : Opcode.Statement (.svc a) := ⟨rfl, rfl⟩
theorem Opcode.splitEntryReturn a b : Opcode.Statement (.splitEntryReturn a b) := ⟨rfl, rfl⟩
theorem Opcode.mergePatienceExpiry a b : Opcode.Statement (.mergePatienceExpiry a b) := ⟨rfl, rfl⟩
theorem Opcode.loadComplete a b : Opcode.Statement (.loadComplete a b) := ⟨rfl, rfl⟩
theorem Opcode.roundClose a : Opcode.Statement (.roundClose a) := ⟨rfl, rfl⟩
theorem Opcode.versionRetire a b c : Opcode.Statement (.versionRetire a b c) := ⟨rfl, rfl⟩
theorem Opcode.windowWriteback a b c : Opcode.Statement (.windowWriteback a b c) := ⟨rfl, rfl⟩
theorem Opcode.jobPerform a : Opcode.Statement (.jobPerform a) := ⟨rfl, rfl⟩
theorem Opcode.jobComplete a : Opcode.Statement (.jobComplete a) := ⟨rfl, rfl⟩
theorem Opcode.tileInstructionComplete a : Opcode.Statement (.tileInstructionComplete a) := ⟨rfl, rfl⟩
theorem Opcode.xfetchDeadline a : Opcode.Statement (.xfetchDeadline a) := ⟨rfl, rfl⟩
theorem Opcode.xfetchPrimaryLanded a : Opcode.Statement (.xfetchPrimaryLanded a) := ⟨rfl, rfl⟩
theorem Opcode.launchPacket a b c : Opcode.Statement (.launchPacket a b c) := ⟨rfl, rfl⟩
theorem Opcode.copyPacket a b : Opcode.Statement (.copyPacket a b) := ⟨rfl, rfl⟩
theorem Opcode.workItemPacket a b : Opcode.Statement (.workItemPacket a b) := ⟨rfl, rfl⟩
theorem Opcode.launchComplete a : Opcode.Statement (.launchComplete a) := ⟨rfl, rfl⟩
theorem Opcode.blockAdmission a : Opcode.Statement (.blockAdmission a) := ⟨rfl, rfl⟩
theorem Opcode.blockRestart a : Opcode.Statement (.blockRestart a) := ⟨rfl, rfl⟩
theorem Opcode.preemption a b : Opcode.Statement (.preemption a b) := ⟨rfl, rfl⟩
theorem Opcode.preemptTimeout a : Opcode.Statement (.preemptTimeout a) := ⟨rfl, rfl⟩
theorem Opcode.resume a : Opcode.Statement (.resume a) := ⟨rfl, rfl⟩
theorem Opcode.resident a b : Opcode.Statement (.resident a b) := ⟨rfl, rfl⟩
theorem Opcode.declined a b : Opcode.Statement (.declined a b) := ⟨rfl, rfl⟩
theorem Opcode.groupWatchdogFiring a : Opcode.Statement (.groupWatchdogFiring a) := ⟨rfl, rfl⟩
theorem Opcode.stall a : Opcode.Statement (.stall a) := ⟨rfl, rfl⟩
theorem Opcode.partitionResume a : Opcode.Statement (.partitionResume a) := ⟨rfl, rfl⟩
theorem Opcode.hostPreempt a : Opcode.Statement (.hostPreempt a) := ⟨rfl, rfl⟩
theorem Opcode.allowancePeriod a : Opcode.Statement (.allowancePeriod a) := ⟨rfl, rfl⟩
theorem Opcode.allowanceExhausted a b : Opcode.Statement (.allowanceExhausted a b) := ⟨rfl, rfl⟩
theorem Opcode.lend a b : Opcode.Statement (.lend a b) := ⟨rfl, rfl⟩
theorem Opcode.reclaim a b : Opcode.Statement (.reclaim a b) := ⟨rfl, rfl⟩
theorem Opcode.autoReclaim a : Opcode.Statement (.autoReclaim a) := ⟨rfl, rfl⟩
theorem Opcode.partitionConfigWrite a b : Opcode.Statement (.partitionConfigWrite a b) := ⟨rfl, rfl⟩
theorem Opcode.rangeTableWrite a b c : Opcode.Statement (.rangeTableWrite a b c) := ⟨rfl, rfl⟩
theorem Opcode.regionAttributeWrite a b c d : Opcode.Statement (.regionAttributeWrite a b c d) := ⟨rfl, rfl⟩
theorem Opcode.tlbInvalidation a b c : Opcode.Statement (.tlbInvalidation a b c) := ⟨rfl, rfl⟩
theorem Opcode.pageRequestRingRegister a b c : Opcode.Statement (.pageRequestRingRegister a b c) := ⟨rfl, rfl⟩
theorem Opcode.packetQueueRegister a b c : Opcode.Statement (.packetQueueRegister a b c) := ⟨rfl, rfl⟩
theorem Opcode.workQueueCapacity a b c : Opcode.Statement (.workQueueCapacity a b c) := ⟨rfl, rfl⟩
theorem Opcode.expertTableWrite a b c : Opcode.Statement (.expertTableWrite a b c) := ⟨rfl, rfl⟩
theorem Opcode.checkAreaRegister a b c : Opcode.Statement (.checkAreaRegister a b c) := ⟨rfl, rfl⟩
theorem Opcode.serviceRingRegister a b : Opcode.Statement (.serviceRingRegister a b) := ⟨rfl, rfl⟩
theorem Opcode.adminQueueRegister a : Opcode.Statement (.adminQueueRegister a) := ⟨rfl, rfl⟩
theorem Opcode.reply a b c : Opcode.Statement (.reply a b c) := ⟨rfl, rfl⟩
theorem Opcode.counterWrite a b c d : Opcode.Statement (.counterWrite a b c d) := ⟨rfl, rfl⟩
theorem Opcode.hostMemWrite a b : Opcode.Statement (.hostMemWrite a b) := ⟨rfl, rfl⟩
theorem Opcode.hostMemRead a b : Opcode.Statement (.hostMemRead a b) := ⟨rfl, rfl⟩
theorem Opcode.hostLineSnoop a b : Opcode.Statement (.hostLineSnoop a b) := ⟨rfl, rfl⟩
theorem Opcode.peerWrite a b : Opcode.Statement (.peerWrite a b) := ⟨rfl, rfl⟩
theorem Opcode.gateCreate a b : Opcode.Statement (.gateCreate a b) := ⟨rfl, rfl⟩
theorem Opcode.gateSetAcl a b : Opcode.Statement (.gateSetAcl a b) := ⟨rfl, rfl⟩
theorem Opcode.gateSetRate a b c : Opcode.Statement (.gateSetRate a b c) := ⟨rfl, rfl⟩
theorem Opcode.gateDestroy a : Opcode.Statement (.gateDestroy a) := ⟨rfl, rfl⟩
theorem Opcode.gateFreeze a : Opcode.Statement (.gateFreeze a) := ⟨rfl, rfl⟩
theorem Opcode.gateExport a : Opcode.Statement (.gateExport a) := ⟨rfl, rfl⟩
theorem Opcode.gateImport a b c : Opcode.Statement (.gateImport a b c) := ⟨rfl, rfl⟩
theorem Opcode.gateThaw a : Opcode.Statement (.gateThaw a) := ⟨rfl, rfl⟩
theorem Opcode.deferredCountClear a : Opcode.Statement (.deferredCountClear a) := ⟨rfl, rfl⟩
theorem Opcode.gateServerPerform a : Opcode.Statement (.gateServerPerform a) := ⟨rfl, rfl⟩
theorem Opcode.bucketTick : Opcode.Statement (.bucketTick) := ⟨rfl, rfl⟩
theorem Opcode.shadowRunStart a : Opcode.Statement (.shadowRunStart a) := ⟨rfl, rfl⟩
theorem Opcode.keepingRunStart a : Opcode.Statement (.keepingRunStart a) := ⟨rfl, rfl⟩
theorem Opcode.kilnDecision a : Opcode.Statement (.kilnDecision a) := ⟨rfl, rfl⟩
theorem Opcode.coneTest a : Opcode.Statement (.coneTest a) := ⟨rfl, rfl⟩
theorem Opcode.coneTestComplete a b : Opcode.Statement (.coneTestComplete a b) := ⟨rfl, rfl⟩
theorem Opcode.coneTestAbort a : Opcode.Statement (.coneTestAbort a) := ⟨rfl, rfl⟩
theorem Opcode.correctedError a b c d : Opcode.Statement (.correctedError a b c d) := ⟨rfl, rfl⟩
theorem Opcode.bankSelfTest a b c : Opcode.Statement (.bankSelfTest a b c) := ⟨rfl, rfl⟩
theorem Opcode.uncorrectableError a : Opcode.Statement (.uncorrectableError a) := ⟨rfl, rfl⟩
theorem Opcode.patrolScrub a b : Opcode.Statement (.patrolScrub a b) := ⟨rfl, rfl⟩
theorem Opcode.linkRetrain a b : Opcode.Statement (.linkRetrain a b) := ⟨rfl, rfl⟩
theorem Opcode.peerRouteTimeout a b : Opcode.Statement (.peerRouteTimeout a b) := ⟨rfl, rfl⟩
theorem Opcode.thermalThrottle : Opcode.Statement (.thermalThrottle) := ⟨rfl, rfl⟩
theorem Opcode.thermalShutdown : Opcode.Statement (.thermalShutdown) := ⟨rfl, rfl⟩
theorem Opcode.readKilsy a : Opcode.Statement (.readKilsy a) := ⟨rfl, rfl⟩
theorem Opcode.readErrors a : Opcode.Statement (.readErrors a) := ⟨rfl, rfl⟩
theorem Opcode.startCold a b : Opcode.Statement (.startCold a b) := ⟨rfl, rfl⟩
theorem Opcode.startWarm a : Opcode.Statement (.startWarm a) := ⟨rfl, rfl⟩
theorem Opcode.setTolerance a b : Opcode.Statement (.setTolerance a b) := ⟨rfl, rfl⟩
theorem Opcode.deviceState : Opcode.Statement (.deviceState) := ⟨rfl, rfl⟩
theorem Opcode.wake : Opcode.Statement (.wake) := ⟨rfl, rfl⟩
theorem Opcode.updateConfig a : Opcode.Statement (.updateConfig a) := ⟨rfl, rfl⟩
theorem Opcode.idlePowerEntry : Opcode.Statement (.idlePowerEntry) := ⟨rfl, rfl⟩
theorem Opcode.wakeEvent a : Opcode.Statement (.wakeEvent a) := ⟨rfl, rfl⟩
theorem Opcode.tenantKeyLoad a b c : Opcode.Statement (.tenantKeyLoad a b c) := ⟨rfl, rfl⟩
theorem Opcode.tenantKeyClear a b : Opcode.Statement (.tenantKeyClear a b) := ⟨rfl, rfl⟩
theorem Opcode.collGroupCreate a b c d e f : Opcode.Statement (.collGroupCreate a b c d e f) := ⟨rfl, rfl⟩
theorem Opcode.heartbeat a : Opcode.Statement (.heartbeat a) := ⟨rfl, rfl⟩
theorem Opcode.heartbeatTimeout a b : Opcode.Statement (.heartbeatTimeout a b) := ⟨rfl, rfl⟩
theorem Opcode.memberRemove a b : Opcode.Statement (.memberRemove a b) := ⟨rfl, rfl⟩
theorem Opcode.propose a b c d : Opcode.Statement (.propose a b c d) := ⟨rfl, rfl⟩
theorem Opcode.acknowledge a b c : Opcode.Statement (.acknowledge a b c) := ⟨rfl, rfl⟩
theorem Opcode.commit a b c d : Opcode.Statement (.commit a b c d) := ⟨rfl, rfl⟩
theorem Opcode.ackLapse a : Opcode.Statement (.ackLapse a) := ⟨rfl, rfl⟩
theorem Opcode.collPacket a b c d e f : Opcode.Statement (.collPacket a b c d e f) := ⟨rfl, rfl⟩
theorem Opcode.policyChoice a b c d : Opcode.Statement (.policyChoice a b c d) := ⟨rfl, rfl⟩
theorem Opcode.choiceTimeout a b : Opcode.Statement (.choiceTimeout a b) := ⟨rfl, rfl⟩
theorem Opcode.joinRequest a b c : Opcode.Statement (.joinRequest a b c) := ⟨rfl, rfl⟩
theorem Opcode.joinTimeout a b : Opcode.Statement (.joinTimeout a b) := ⟨rfl, rfl⟩
theorem Opcode.collComplete a : Opcode.Statement (.collComplete a) := ⟨rfl, rfl⟩
theorem Opcode.debugAttach a b : Opcode.Statement (.debugAttach a b) := ⟨rfl, rfl⟩
theorem Opcode.debugDetach a : Opcode.Statement (.debugDetach a) := ⟨rfl, rfl⟩
theorem Opcode.debugHold a b c : Opcode.Statement (.debugHold a b c) := ⟨rfl, rfl⟩
theorem Opcode.debugRelease a b c : Opcode.Statement (.debugRelease a b c) := ⟨rfl, rfl⟩
theorem Opcode.debugOne a b c d : Opcode.Statement (.debugOne a b c d) := ⟨rfl, rfl⟩
theorem Opcode.debugSetBp a b c d : Opcode.Statement (.debugSetBp a b c d) := ⟨rfl, rfl⟩
theorem Opcode.debugClrBp a b : Opcode.Statement (.debugClrBp a b) := ⟨rfl, rfl⟩
theorem Opcode.debugRead a b c d : Opcode.Statement (.debugRead a b c d) := ⟨rfl, rfl⟩
theorem Opcode.debugWrite a b c d e : Opcode.Statement (.debugWrite a b c d e) := ⟨rfl, rfl⟩
theorem Opcode.sampleTag a b c d : Opcode.Statement (.sampleTag a b c d) := ⟨rfl, rfl⟩
theorem Opcode.traceEnable a b c d e : Opcode.Statement (.traceEnable a b c d e) := ⟨rfl, rfl⟩
theorem Opcode.ringRegister a b c d : Opcode.Statement (.ringRegister a b c d) := ⟨rfl, rfl⟩
theorem Opcode.dump a b c : Opcode.Statement (.dump a b c) := ⟨rfl, rfl⟩
theorem Opcode.wordNotAnInstruction a : Opcode.Statement (.wordNotAnInstruction a) := ⟨rfl, rfl⟩
theorem Opcode.sleepCountRunsOut a b : Opcode.Statement (.sleepCountRunsOut a b) := ⟨rfl, rfl⟩
theorem Opcode.inboundPeerAtomic a b c d : Opcode.Statement (.inboundPeerAtomic a b c d) := ⟨rfl, rfl⟩
theorem Opcode.inboundPeerRead a b : Opcode.Statement (.inboundPeerRead a b) := ⟨rfl, rfl⟩
theorem Opcode.suspectReport a b : Opcode.Statement (.suspectReport a b) := ⟨rfl, rfl⟩
theorem Opcode.heartbeatReceived a b : Opcode.Statement (.heartbeatReceived a b) := ⟨rfl, rfl⟩
theorem Opcode.expectedDigestSet a b : Opcode.Statement (.expectedDigestSet a b) := ⟨rfl, rfl⟩
theorem Opcode.dumpComplete a b : Opcode.Statement (.dumpComplete a b) := ⟨rfl, rfl⟩

end Sys2Proof.Laws
end

