-- ==== Sys2Proof/Tests/Slice0.lean ====
section
/-! SUPPORT. Tests: ill-formed terms that well-formedness refuses, words written out from the encodings of the manual, single steps whose results the manual states, and for each statement with hypotheses a state and operands that meet them together. -/

set_option Elab.async false

open Sys2Proof Sys2Proof.Machine
namespace Sys2Proof.Tests

/-! ### Small states -/

/-- The placed state of log 8 with the word about to act: one fragment of a full group 3 of block 2 of launch 1, or of the tile sequencer of set 4. -/
def placed (w : Nat) : State :=
  { State.reset.loadWord w with agenda := [], cur := some { group := 3, frag := 0 }, word := BitVec.ofNat 64 w }

/-- The same in a block of eight words, so that no header follows the word. -/
def within (s : State) : State := s.updFrag 3 0 fun f => { f with blk := { f.blk with len := 8 } }

/-- A group about to act, and a tile sequencer. -/
def grp : State := within (placed 0)
def tseq : State := within (placed (0xC5 * 2 ^ 56))

/-- Scalar registers set. -/
def withK (s : State) (ks : List (Nat × Nat)) : State :=
  s.updGroup 3 fun g => { g with sregs := ks.foldl (fun t k => t.put k.1 (toWord k.2)) g.sregs }

/-- A vector register set. -/
def withV (s : State) (i : Nat) (h : Nat → Nat) : State :=
  s.updGroup 3 fun g => { g with vregs := g.vregs.put i (mkLanes fun j => toWord (h j)) }

/-- The issuing fragment changed; with one lane; with a pending outcome. -/
def withF (s : State) (h : Frag → Frag) : State := s.updFrag 3 0 h
def lane0 (s : State) : State := withF s fun f => { f with mask := 1 }
def withPend (s : State) (p : Pend) : State := withF s fun f => { f with pend := p }

/-- The block, the launch, the partition and its group changed. -/
def withB (s : State) (h : Block → Block) : State := s.updBlock 2 h
def withL (s : State) (h : Launch → Launch) : State := s.updLaunch 1 h
def withP (s : State) (h : Part → Part) : State := s.updPart 0 h
def withG (s : State) (h : Group → Group) : State := s.updGroup 3 h
def withSet (s : State) (h : TileSet → TileSet) : State := { s with sets := s.sets.upd 4 h }

/-- A guest's launch. -/
def guest (s : State) : State := withL s fun l => { l with host := false }

def noGuard : Guard := { neg := false, mask := 0 }
def fA (ty : Ty) (d a b : Opnd) : FormA := { g := noGuard, dst := d, a := a, b := b, modA := .none, modB := .none, ty := ty, rnd := .rne, sat := false }
def fB (d a b c : Opnd) (func : BitVec 4) : FormB := { g := noGuard, dst := d, a := a, b := b, c := c, func := func }
def fC (d a : Opnd) (func : BitVec 4) (imm : BitVec 22) : FormC := { g := noGuard, dst := d, a := a, func := func, imm := imm }
def fD (d : Opnd) (func : BitVec 5) (imm : BitVec 32) : FormD := { g := noGuard, dst := d, func := func, imm := imm }
/-- An access at the pointer in k8 to k10, without an offset register. -/
def fE (d : Opnd) (size : Size) (imm : BitVec 12) : FormE := { g := noGuard, data := d, base := 2, off := .k 1023, imm := imm, scope := .grp, size := size }
def fF (off : BitVec 32) (cond : BitVec 16) : FormF := { g := noGuard, off := off, cond := cond }
def fG (x y : Opnd) (handle : BitVec 10) (func : BitVec 16) : FormG := { g := noGuard, x := x, y := y, handle := handle, func := func }

/-- The value that an option holds meets what is asked of it. -/
theorem some_of {α : Type} {o : Option α} {p : α → Prop} [DecidablePred p] (h : (o.any fun x => decide (p x)) = true) : ∃ x, o = some x ∧ p x :=
  ((Option.any_eq_true _ _).mp h).imp fun _ k => ⟨k.1, of_decide_eq_true k.2⟩

/-- A state and operands at which nothing stops an instruction, and that meet what else is asked. -/
theorem clear_of {s : State} {g : Guard} {ds ss : List (Nat × Opnd)} {cr : Bool} {p : Ctx → Prop} [DecidablePred p]
    (h : (s.ctx.any fun c => decide (s.precheck c (ds ++ ss) = none ∧ c.eff g ≠ 0
      ∧ c.g.poisoned (if cr then c.f.mask else c.eff g) (usedRegs ss) = none ∧ p c)) = true) :
    ∃ c, Clear s c g ds ss cr ∧ p c :=
  (some_of h).imp fun _ k => ⟨⟨k.1, k.2.1, k.2.2.1, k.2.2.2.1⟩, k.2.2.2.2⟩

/-- The same of an instruction that transfers control. -/
theorem jump_of {s : State} {g : Guard} {ss : List (Nat × Opnd)} {p : Ctx → Prop} [DecidablePred p]
    (h : (s.ctx.any fun c => decide ((ss.any c.beyond = false ∧ (c.eff g = 0 ∨ c.g.poisoned c.f.mask (usedRegs ss) = none)) ∧ p c)) = true) :
    ∃ c, ClearJump s c g ss ∧ p c :=
  (some_of h).imp fun _ k => ⟨⟨k.1, k.2.1⟩, k.2.2⟩

/-- The same of a context alone. -/
theorem ctx_of {s : State} {p : Ctx → Prop} [DecidablePred p] (h : (s.ctx.any fun c => decide (p c)) = true) :
    ∃ c, s.ctx = some c ∧ p c := some_of h
/-! ### Witnesses: instructions on registers -/

theorem witness_two_sources : ∃ c, Clear grp c noGuard [(1, .v 3)] [(1, .v 1), (1, .v 2)] false ∧ (fA .s32 (.v 3) (.v 1) (.v 2)).g = noGuard :=
  clear_of (by decide +kernel)

theorem witness_one_source : ∃ c, Clear grp c noGuard [(2, .k 1022)] [(2, .v 254)] false ∧ tyRegs (fA .s64 (.k 1022) (.v 254) (.v 0)).ty = 2 :=
  clear_of (by decide +kernel)

theorem witness_three_sources : ∃ c, Clear grp c noGuard [(1, .v 0)] [(1, .v 0), (1, .k 0), (1, .v 255)] false ∧ (fB (.v 0) (.v 0) (.k 0) (.v 255) 0).g = noGuard :=
  clear_of (by decide +kernel)

theorem witness_immediate : ∃ c, Clear grp c noGuard [(1, .k 1023)] [(1, .k 1023)] false ∧ (fC (.k 1023) (.k 1023) 0 0x3FFFFF).g = noGuard :=
  clear_of (by decide +kernel)

theorem witness_IntegerElementRule : (0xFFFFFFFF : Nat) < 2 ^ 32 ∧ (0 : Nat) < 2 ^ 32 ∧ (3 : Nat) < 4 ∧ (2 ^ 64 - 1 : Nat) < 2 ^ 64 := by decide

theorem witness_DivisionComplete : ((64 : Nat) = 32 ∨ (64 : Nat) = 64) ∧ 2 ^ 63 < 2 ^ 64 ∧ 2 ^ 64 - 1 < 2 ^ 64 := by decide

theorem witness_BitOperations : ((32 : Nat) = 32 ∨ (32 : Nat) = 64) ∧ 2 ^ 31 < 2 ^ 32 ∧ (31 : Nat) < 32 := by decide

theorem witness_bfiImm : ∃ c, Clear grp c noGuard [(1, .v 1)] [(1, .v 2), (1, .v 1)] false ∧ (fC (.v 1) (.v 2) 0 0x820).g = noGuard :=
  clear_of (by decide +kernel)

theorem witness_compare : ∃ c, Clear grp c noGuard [] [(2, .v 254), (2, .k 1022)] false ∧ tyRegs (fA .n64 (.v 4) (.v 254) (.k 1022)).ty = 2 :=
  clear_of (by decide +kernel)

/-- A checked block's primary, and a run that has a read of `$cluster` in its log. -/
def primary : State := withB grp fun b => { b with check := some 7, run := 1 }
def clusterRead : LogEntry := { kind := .coreRead, op := 0x00B, data := [79], digest := 0 }
def rereads : State := withG primary fun g => { g with replay := [clusterRead] }

/-- A special register, `$core` unchecked, `$core` in a checked block, `$cluster` from the log. -/
theorem witness_special : (∃ c, Clear grp c noGuard [(4, .k 20)] [] false ∧ (fC (.k 20) (.k 0) 3 0x025).imm.toNat ≠ 0x00A ∧ (fC (.k 20) (.k 0) 3 0x025).imm.toNat ≠ 0x00B ∧ c.b.check = none)
    ∧ (∃ c, Clear primary c noGuard [(1, .k 20)] [] false ∧ c.b.check ≠ none ∧ c.repeats = false ∧ c.g.replay = [] ∧ primary.areaFull c.l.part = false)
    ∧ ∃ c, Clear rereads c noGuard [(1, .k 20)] [] false ∧ c.b.check ≠ none ∧ c.holdsUp rereads = false ∧ c.g.replay = [clusterRead] := by
  and_intros <;> exact clear_of (by decide +kernel)

theorem witness_movx : ∃ c, Clear (withK grp [(5, 1023)]) c noGuard [(1, .v 0)] [(1, .k 5)] false
    ∧ (c.indirect (fC (.v 0) (.k 5) 1 0)).1 < (c.indirect (fC (.v 0) (.k 5) 1 0)).2
    ∧ c.g.poisoned (c.eff noGuard) [((fC (.v 0) (.k 5) 1 0).func.getLsbD 0, (c.indirect (fC (.v 0) (.k 5) 1 0)).1)] = none :=
  clear_of (by decide +kernel)

theorem witness_movy : ∃ c, Clear (withK grp [(5, 255)]) c noGuard [] [(1, .v 0), (1, .k 5)] false
    ∧ (c.indirect (fC (.v 0) (.k 5) 0 0)).1 < (c.indirect (fC (.v 0) (.k 5) 0 0)).2 :=
  clear_of (by decide +kernel)

theorem witness_lea : ∃ c, Clear grp c noGuard [(4, .k 20)] (baseUsed (fE (.k 20) .b32 0x800) ++ offUsed (.k 1023)) false ∧ c.f.handler = .none :=
  clear_of (by decide +kernel)

theorem witness_addw : ∃ c, Clear grp c noGuard [(4, .k 20)] [(3, .k 8), (2, .k 12)] false ∧ c.g.seq = false := clear_of (by decide +kernel)

/-- The greatest finite values of either sign, −0, and the least magnitude, whose square rounds to zero. -/
theorem witness_FloatZeroSigns : (0xFF7FFFFF : Nat) < 2 * fmt32.signBit ∧ fmt32.mag 0xFF7FFFFF < fmt32.top
    ∧ (0x80 : Nat) < 2 * fmtE4.signBit ∧ fmtE4.mag 0x80 = 0 ∧ fmtE4.mag 0x80 < fmtE4.top
    ∧ fmt16.mag (roundF fmt16 .rne false 0 (XR.mul (fmt16.value 1) (fmt16.value 0x8001))) = 0 := by decide +kernel

theorem witness_quantize : ∃ c, Clear grp c noGuard [((quantLayout 1).1 / 2, .v 4), (1, .v 8), (1, .v 9)] [(1, .v 2)] false
    ∧ c.quantBad (fB (.v 4) (.v 2) (.v 8) (.v 9) 1) (c.eff noGuard) = none :=
  clear_of (by decide +kernel)

theorem witness_cross : ∃ c, Clear grp c noGuard [(1, .v 3)] [(1, .v 1), (1, .v 2)] true ∧ c.g.seq = false := clear_of (by decide +kernel)

theorem witness_tlk : ∃ c, Clear grp c noGuard [(1, .v 3)] [(1, .v 1), (4, .k 16)] false ∧ (fA .b8 (.v 3) (.v 1) (.k 16)).g = noGuard :=
  clear_of (by decide +kernel)

theorem witness_vote : ∃ c, Clear grp c noGuard [(4, .k 16)] [(1, .v 1)] false ∧ (fA .b128 (.k 16) (.v 1) (.k 0)).ty = .b128 :=
  clear_of (by decide +kernel)

theorem witness_masks : ∃ c, Clear grp c noGuard [] [] false ∧ opndIdx (fA .n32 (.v 15) (.v 0) (.v 15)).dst = 15 := clear_of (by decide +kernel)

/-- An instruction whose guard no lane meets, and one that reads a poisoned register. -/
theorem witness_MaskAndPoison :
    (∃ c, grp.ctx = some c ∧ grp.precheck c [(1, .v 3), (1, .v 1), (1, .v 2)] = none ∧ c.eff { neg := true, mask := 0 } = 0)
    ∧ ∃ c, (withG grp fun g => { g with vpoison := Table.empty.put 2 (1 <<< 127) }).ctx = some c
      ∧ (withG grp fun g => { g with vpoison := Table.empty.put 2 (1 <<< 127) }).precheck c [(1, .v 3), (1, .v 1), (1, .v 2)] = none
      ∧ c.eff noGuard ≠ 0 ∧ c.g.poisoned (c.eff noGuard) (usedRegs [(1, .v 1), (1, .v 2)]) = some (false, 2) :=
  ⟨ctx_of (by decide +kernel), ctx_of (by decide +kernel)⟩

/-! ### Witnesses: words, steps and the machine -/

theorem witness_DecodeOfEncode : Instr.WellFormed true true (.accz (fG (.v 0) (.v 0) 0 0xF)) ∧ Instr.WellFormed false false (.add (fA .s32 (.v 3) (.v 1) (.v 2))) := by
  decide +kernel

/-- What a word decodes to. -/
def decoded (seq last : Bool) (w : BitVec 64) : Option Instr := (decodeWord seq last w).toOption

/-- What can be read off the two. -/
theorem toOption_some {ε α : Type} : ∀ (e : Except ε α) (i : α), e.toOption = some i ↔ e = .ok i
  | .ok _, _ => by simp [Except.toOption]
  | .error _, _ => by simp [Except.toOption]

theorem ok_of {seq last : Bool} {w : BitVec 64} {i : Instr} (h : decoded seq last w = some i) : decodeWord seq last w = .ok i :=
  (toOption_some _ i).mp h

theorem witness_EncodeOfDecode : decodeWord false true 0x0200_0060_0401_0000 = .ok (.add (fA .s32 (.v 3) (.v 1) (.v 2))) := ok_of (by decide +kernel)

theorem witness_SequencerOpcodesReserved : ∃ c, grp.ctx = some c ∧ c.g.seq = false ∧ 0xC0 ≤ bitsAt (0xC006_0000_0000_0000 : BitVec 64).toNat 56 8
    ∧ bitsAt (0xD7FF_FFFF_FFFF_FFFF : BitVec 64).toNat 56 8 ≤ 0xD7 := ctx_of (by decide +kernel)

theorem witness_UndecodedWordTraps : (∃ c, grp.ctx = some c ∧ c.g.seq = false ∧ c.f.atLast = false)
    ∧ decodeWord false false 0x0100_0000_0000_0000 = .error .illegalEncoding ∧ decodeWord false false 0x0106_0000_0000_0000 = .error .illegalEncoding
    ∧ decodeWord false false 0x9F06_0000_0000_0000 = .error .unimplemented :=
  ⟨ctx_of (by decide +kernel), rfl, rfl, rfl⟩

/-- The placed word nop at the next issue. -/
def nopWord : Nat := 0x7906_0000_0000_0000
def loaded : State := State.reset.loadWord nopWord

/-- The state in which the placed issue is chosen, and the context of its fragment. -/
def chosen : State := match loaded.pick with | some (_, s) => s | none => loaded

theorem witness_StepRunsDecoded : (loaded.pick.map fun x => x.1) = some (.issue { group := 3, frag := 0 }) ∧
    (chosen.ctxOf 3 0).any (fun c => decide (c.issues chosen = true ∧ (chosen.boundary c).isNone = true ∧ c.f.phase = .run ∧ c.b.life ≠ .quiesced ∧ c.b.hold = none
      ∧ (chosen.noteBreak c).peek c c.f.pc = .word (BitVec.ofNat 64 nopWord) ∧ decoded c.g.seq c.f.atLast (BitVec.ofNat 64 nopWord) = some (.nop (fG (.v 0) (.v 0) 0 0)))) = true := by
  decide +kernel

theorem witness_MemoryStaysCanonical : Memory.wf loaded.mem = true ∧ (∃ t, step State.reset = .next t) :=
  ⟨by decide +kernel, ⟨_, rfl⟩⟩

/-! ### Witnesses: traps and control -/

/-- A fragment at the last word of its block. -/
def atEnd : State := placed 0

/-- A launch with a handler, and a fragment already in it. -/
def handled : State := withL grp fun l => { l with hdr := { l.hdr with handler := 0x200000, resume := 0x300000 } }
def inHandler : State := withF handled fun f => { f with handler := .fault, tpc := f.pc }

theorem witness_SoftwareTrap : (∃ c, ClearJump grp c noGuard [(1, .v 255)] ∧ (fC (.v 0) (.v 255) 1 1).func.getLsbD 0 = true ∧ c.eff noGuard ≠ 0)
    ∧ ∃ c, ClearJump atEnd c { neg := true, mask := 0 } [] ∧ c.eff { neg := true, mask := 0 } = 0 ∧ c.f.atLast = true ∧ atEnd.reach c c.succ = none :=
  ⟨jump_of (by decide +kernel), jump_of (by decide +kernel)⟩

/-- The launch has a group of its own block to end. -/
theorem witness_TrapsTaken : (∃ c, handled.ctx = some c ∧ c.repeats = false ∧ c.g.seq = false ∧ c.l.hdr.handler ≠ 0 ∧ c.f.handler = .none
      ∧ ((handled.part c.l.part).vd c.l.hdr.vdev).trace = false)
    ∧ (∃ c, grp.ctx = some c ∧ c.repeats = false ∧ c.l.ended = none ∧ c.l.hdr.handler = 0)
    ∧ (∃ c, inHandler.ctx = some c ∧ c.repeats = false ∧ c.l.ended = none ∧ c.f.handler ≠ .none)
    ∧ (∃ c, tseq.ctx = some c ∧ c.repeats = false ∧ c.l.ended = none ∧ c.g.seq = true)
    ∧ (grp.groups.get 3).any (fun g => (grp.blocks.get g.block).any fun b => decide (b.launch = 1)) = true := by
  and_intros <;> first | exact ctx_of (by decide +kernel) | decide +kernel

def back : BitVec 32 := 0xFFFFFFFF

theorem witness_br_taken : ∃ c, ClearJump atEnd c noGuard [] ∧ c.eff noGuard = c.f.mask ∧ atEnd.reach c (c.target back) = none := jump_of (by decide +kernel)

theorem witness_br_not_taken : ∃ c, ClearJump atEnd c { neg := true, mask := 0 } [] ∧ c.eff { neg := true, mask := 0 } = 0 ∧ atEnd.reach c c.succ = none := jump_of (by decide +kernel)

/-- A pointer to the block's header. -/
def pointed : State := withK atEnd [(8, loadBase), (9, 0), (10, 0), (4, 0)]

theorem witness_brx : ∃ c, ClearJump pointed c noGuard ((3, .k 8) :: offUsed (.k 4)) ∧ c.eff noGuard = c.f.mask
    ∧ pointed.reach c (BitVec.ofNat 80 (wrap 80 ((c.g.pointer (opndIdx (.k 8)) : Int) + 8 * c.g.offset (.k 4) 0))) = none := jump_of (by decide +kernel)

/-- bru, `.any` of m0, taken and, negated, not taken. -/
theorem witness_bru : (∃ c, ClearJump atEnd c noGuard [] ∧ c.f.mask &&& c.g.mreg c.f.mask ((fF back 0).cond.toNat / 16 % 16) ≠ 0 ∧ atEnd.reach c (c.target back) = none)
    ∧ ∃ c, ClearJump atEnd c noGuard [] ∧ ¬ (c.f.mask &&& ~~~(c.g.mreg c.f.mask ((fF back 8).cond.toNat / 16 % 16)) ≠ 0) ∧ atEnd.reach c c.succ = none :=
  ⟨jump_of (by decide +kernel), jump_of (by decide +kernel)⟩

theorem witness_call : ∃ c, ClearJump atEnd c noGuard [] ∧ c.beyond (3, .k (BitVec.ofNat 10 (4 * ((fF back 0xFF00).cond.toNat / 256)))) = false
    ∧ atEnd.reach c (c.target back) = none := jump_of (by decide +kernel)

theorem witness_ret : ∃ c, ClearJump pointed c noGuard [(3, .k 8)] ∧ pointed.reach c (BitVec.ofNat 80 (c.g.pointer (opndIdx (.k 8)))) = none := jump_of (by decide +kernel)

/-- A target that is a word of a block and no header. -/
theorem witness_no_header : (∃ c, ClearJump atEnd c noGuard [] ∧ atEnd.reach c (c.target 0) = some (.trap (faultAt .branchNotHeader c.f.pc (loadBase + 8)))
      ∧ c.beyond (3, .k (BitVec.ofNat 10 (4 * ((fF 0 0xFF00).cond.toNat / 256)))) = false)
    ∧ ∃ c, ClearJump (withK atEnd [(8, loadBase + 8), (9, 0), (10, 0)]) c noGuard [(3, .k 8)]
      ∧ (withK atEnd [(8, loadBase + 8), (9, 0), (10, 0)]).reach c (BitVec.ofNat 80 (c.g.pointer (opndIdx (.k 8)))) = some (.trap (faultAt .branchNotHeader c.f.pc (loadBase + 8))) :=
  ⟨jump_of (by decide +kernel), jump_of (by decide +kernel)⟩

theorem witness_not_a_header : (BitVec.ofNat 80 (loadBase + 4) : Addr).toNat % 8 ≠ 0 ∧ ∃ c, atEnd.ctx = some c
    ∧ atEnd.peek c (BitVec.ofNat 80 (loadBase + 8)) = .word 0 ∧ bitsAt (0 : BitVec 64).toNat 56 8 ≠ 1 :=
  ⟨by decide, ctx_of (by decide +kernel)⟩

/-- m3 holds lane 127 alone. -/
def only3 : Guard := { neg := false, mask := 3 }
def split : State := withG atEnd fun g => { g with masks := g.masks.put 3 (1 <<< 127) }

/-- A fragment one word back, whose successor is no header though its target is; one whose block names a reconvergence header that is none. -/
def astray : State := withF split fun f => { f with pc := loadBase }
def lost : State := withF split fun f => { f with blk := { f.blk with recOff := 1 } }

theorem witness_wrong_successor : (∃ c, ClearJump astray c { neg := true, mask := 0 } [] ∧ c.eff { neg := true, mask := 0 } = 0
      ∧ astray.reach c c.succ = some (.trap (faultAt .branchNotHeader c.f.pc (loadBase + 8)))
      ∧ ¬ (c.f.mask &&& ~~~(c.g.mreg c.f.mask ((fF 0 8).cond.toNat / 16 % 16)) ≠ 0))
    ∧ (∃ c, ClearJump astray c only3 [] ∧ c.eff only3 ≠ 0 ∧ c.eff only3 ≠ c.f.mask ∧ astray.reach c (c.target 0) = none
      ∧ astray.reach c c.succ = some (.trap (faultAt .branchNotHeader c.f.pc (loadBase + 8))))
    ∧ ∃ c, ClearJump lost c only3 [] ∧ c.eff only3 ≠ c.f.mask ∧ lost.reach c (c.target back) = none ∧ lost.reach c c.succ = none ∧ c.f.blk.recOff ≠ 0
      ∧ c.splitHeader.bind (lost.reach c) = some (.trap (faultAt .branchNotHeader c.f.pc (loadBase + 8))) := by
  and_intros <;> exact jump_of (by decide +kernel)

/-- The same with a pointer to the header, and with a table of sixteen fragments. -/
def splitx : State := withK split [(8, loadBase), (9, 0), (10, 0), (4, 0)]
def crowdedTable : State := withG split fun g =>
  { g with frags := (List.range 15).foldl (fun t i => t.put (i + 1) { (g.frags.getD 0 (Frag.start 0 0 0)) with mask := 0 }) g.frags, nextFrag := 16 }

theorem witness_DivergentBranchSplits : (∃ c, ClearJump split c only3 [] ∧ c.eff only3 ≠ 0 ∧ c.eff only3 ≠ c.f.mask
      ∧ split.reach c (c.target back) = none ∧ split.reach c c.succ = none ∧ c.f.blk.recOff = 0 ∧ c.g.frags.rows.length < c.splitEntries
      ∧ c.g.nextFrag ≠ c.fid ∧ c.g.frags.get c.g.nextFrag = none ∧ c.g.frags.wf = true)
    ∧ (∃ c, ClearJump splitx c only3 ((3, .k 8) :: offUsed (.k 4)) ∧ c.eff only3 ≠ 0 ∧ c.eff only3 ≠ c.f.mask
      ∧ splitx.reach c (BitVec.ofNat 80 (wrap 80 ((c.g.pointer (opndIdx (.k 8)) : Int) + 8 * c.g.offset (.k 4) 0))) = none ∧ splitx.reach c c.succ = none
      ∧ c.g.frags.rows.length < c.splitEntries ∧ c.g.nextFrag ≠ c.fid ∧ c.g.frags.get c.g.nextFrag = none ∧ c.g.frags.wf = true)
    ∧ ∃ c, ClearJump crowdedTable c only3 [] ∧ c.eff only3 ≠ 0 ∧ c.eff only3 ≠ c.f.mask ∧ crowdedTable.reach c (c.target back) = none
      ∧ crowdedTable.reach c c.succ = none ∧ c.f.blk.recOff = 0 ∧ c.splitEntries ≤ c.g.frags.rows.length := by
  and_intros <;> exact jump_of (by decide +kernel)

def lowHalf : Mask := 0xFFFFFFFFFFFFFFFF

/-- Two fragments of a group: lanes 0 to 63, and the others. -/
def two : State := withG (withF grp fun f => { f with mask := lowHalf }) fun g =>
  { g with frags := g.frags.put 1 { (g.frags.getD 0 (Frag.start 0 0 0)) with mask := ~~~lowHalf }, nextFrag := 2 }

theorem witness_ExitComplete :
    (∃ c, ClearJump atEnd c { neg := true, mask := 0 } [] ∧ c.eff { neg := true, mask := 0 } = 0 ∧ atEnd.reach c c.succ = none)
    ∧ (∃ c, ClearJump split c { neg := false, mask := 3 } [] ∧ c.b.check = none ∧ c.g.seq = false ∧ c.eff { neg := false, mask := 3 } ≠ 0
      ∧ c.f.mask &&& ~~~(c.eff { neg := false, mask := 3 }) ≠ 0 ∧ split.reach c c.succ = none)
    ∧ (∃ c, ClearJump two c noGuard [] ∧ c.b.check = none ∧ c.g.seq = false ∧ c.eff noGuard = c.f.mask ∧ c.f.mask ≠ 0 ∧ 1 < c.g.frags.rows.length)
    ∧ (∃ c, ClearJump grp c noGuard [] ∧ c.repeats = false ∧ c.b.check = none ∧ c.g.seq = false ∧ c.eff noGuard = c.f.mask ∧ c.f.mask ≠ 0
      ∧ c.g.frags.rows.length ≤ 1 ∧ c.g.idle = true ∧ c.g.aside = false ∧ c.g.delivered = [] ∧ c.g.late = [])
    ∧ ∃ c, ClearJump tseq c noGuard [] ∧ c.repeats = false ∧ c.b.check = none ∧ c.g.seq = true ∧ c.eff noGuard ≠ 0 ∧ c.g.counter 3 = 0
      ∧ c.g.delivered = [] ∧ (tseq.groups.get c.uid).isSome = true := by
  and_intros <;> exact jump_of (by decide +kernel)

/-- Stores of the group in its buffer. -/
def kept (s : State) : State :=
  { s with buffer := [{ group := 3, line := 0x4000, mask := 15, data := mkLine fun i => BitVec.ofNat 8 i, poison := false, spilled := false, share := 0, vdev := 0, order := 0 }] }

/-- A bounce buffer of die 0 without room. -/
def fullBuffer : List BounceLine :=
  List.replicate (bounceBytes / 128) { die := 0, part := 0, vdev := 0, va := 0x4000000, mask := 0, data := mkLine fun _ => 0, poison := false, priv := none }

/-- A block with a written line of a page that is not there, which that buffer does not take. -/
def roomless : State :=
  withB { grp with bounce := fullBuffer }
    fun b => { b with pending := [{ group := 3, pc := 0, seq := 0, ord := 0, va := 0x4000000, data := mkLine fun _ => 0, poison := false }] }

/-- The state and the context in which the last exit hands over. -/
def lastOf (s : State) (c : Ctx) : State × Ctx :=
  let left : State := s.updGroup c.uid fun g => { g with life := .leaving, frags := Table.empty, sibs := Table.empty, exited := g.exited ||| c.f.mask }
  (left, { c with g := left.groups.getD c.uid c.g, f := { c.f with pend := .none } })

theorem no_room {s : State} (h : s.bounce = fullBuffer) : s.bounceRoom 0 = 0 := by
  simp [State.bounceRoom, h, fullBuffer, -List.reduceReplicate]

/-- A block with a written window line of such a page, and room for nothing. -/
def closing : State :=
  withB { grp with bounce := fullBuffer } fun b => { b with
    windows := Table.empty.put 1 { off := 512, len := 512, mode := 0, mapped := true, base := 0x4000000, filled := [1], dirty := [1] } }

/-- A group with nothing to hand publishes at once, and its block's pending list is empty. -/
theorem hands_nothing {s : State} {c : Ctx} (h0 : c.g.counter 1 = 0) (h1 : c.b.pending = []) (h2 : c.repeats = false) (h3 : c.b.check = none) (h4 : c.layer = none)
    (h5 : s.buffer = []) (h6 : s.updates = [])
    (h7 : ((s.updBlock c.g.block fun b => { b with pending := [] }).publishers c).findSome? (fun u =>
      ((s.updBlock c.g.block fun b => { b with pending := [] }).groups.get u).bind fun (g : Group) => g.pubPoison) = none)
    (h8 : ((s.updBlock c.g.block fun b => { b with pending := [] }).blocks.get c.g.block).bind (fun (b : Block) => b.pubPoison) = none) :
    s.handOver c = .clear (s.updBlock c.g.block fun b => { b with pending := [] }) := by
  have hf : s.bounceFits c [] = true := by simp [State.bounceFits, State.roomFor]
  have hb : (s.updBlock c.g.block fun b => { b with pending := [] }).buffer = [] := h5
  have hu : (s.updBlock c.g.block fun b => { b with pending := [] }).updates = [] := h6
  have h : s.handOut c = .clear (s.updBlock c.g.block fun b => { b with pending := [] }) := by
    simp [State.handOut, h0, h1, h2, h3, h4, hf, State.placeLines, State.handGroup, hb, hu, h5, h6]
  rw [State.handOver, h]
  simp only [State.claimPoison, h7, h8, Option.or]

/-- A group whose publish finds nothing to hand. -/
def nothingToHand (s : State) (c : Ctx) : Bool :=
  decide (c.f.pend = .none ∧ c.f.published = none ∧ c.g.counter 1 = 0 ∧ c.b.pending = [] ∧ c.repeats = false ∧ c.b.check = none ∧ c.layer = none
    ∧ s.buffer = [] ∧ s.updates = []
    ∧ (s.publishers c).findSome? (fun u => (s.groups.get u).bind fun (g : Group) => g.pubPoison) = none
    ∧ (s.blocks.get c.g.block).bind (fun (b : Block) => b.pubPoison) = none ∧ (s.groups.get c.uid).bind (fun (g : Group) => g.pubPoison) = none
    ∧ (s.blocks.upd c.g.block fun b => { b with pending := [] }) = s.blocks)

/-- Its publish leaves the state as it is. -/
theorem publishes_nothing {s : State} {c : Ctx} (h : nothingToHand s c = true) (wait : Nat → Pend) {out : Bool} (ho : out = false := by rfl) : s.publish c wait out = .done s := by
  obtain ⟨k, kp, h0, h1, h2, h3, h4, h5, h6, h7, h8, h9, ht⟩ := of_decide_eq_true h
  have hs : (s.updBlock c.g.block fun b => { b with pending := [] }) = s := by rw [State.updBlock, ht]
  have hh := hands_nothing (s := s) (c := c) h0 h1 h2 h3 h4 h5 h6 (by rw [hs]; exact h7) (by rw [hs]; exact h8)
  rw [hs] at hh
  simp [State.publish, k, hh, State.published, h2, h9, kp, ho]

/-- What the last exit leaves once its publish is done. -/
def leftOf (s : State) (c : Ctx) : State × Ctx :=
  let u : State := (lastOf s c).1.updBlock c.g.block fun b => { b with pending := [] }
  let v : State := u.updGroup c.uid fun g => { g with life := .publishing 0 }
  (v, { (lastOf s c).2 with g := v.groups.getD c.uid c.g })

theorem witness_exit_keeps : ∃ c, closing.ctx = some c ∧ c.g.idle = true
    ∧ (lastOf closing c).1.handOver (lastOf closing c).2 = .clear ((lastOf closing c).1.updBlock c.g.block fun b => { b with pending := [] })
    ∧ (leftOf closing c).1.lastOf (leftOf closing c).2 = true ∧ (leftOf closing c).1.closeFits (leftOf closing c).2 = false := by
  obtain ⟨c, hc, hi, hh, hl, ha, hd⟩ := ctx_of (s := closing) (p := fun c => c.g.idle = true
    ∧ ((lastOf closing c).2.g.counter 1 = 0 ∧ (lastOf closing c).2.b.pending = [] ∧ (lastOf closing c).2.repeats = false ∧ (lastOf closing c).2.b.check = none
      ∧ (lastOf closing c).2.layer = none ∧ (lastOf closing c).2.g.block = c.g.block ∧ (lastOf closing c).1.buffer = [] ∧ (lastOf closing c).1.updates = []
      ∧ (((lastOf closing c).1.updBlock c.g.block fun b => { b with pending := [] }).publishers (lastOf closing c).2).findSome? (fun u =>
          (((lastOf closing c).1.updBlock c.g.block fun b => { b with pending := [] }).groups.get u).bind fun (g : Group) => g.pubPoison) = none
      ∧ (((lastOf closing c).1.updBlock c.g.block fun b => { b with pending := [] }).blocks.get c.g.block).bind (fun (b : Block) => b.pubPoison) = none)
    ∧ (leftOf closing c).1.lastOf (leftOf closing c).2 = true
    ∧ (((((leftOf closing c).2.blockIn (leftOf closing c).1).flushAll (leftOf closing c).2.uid (leftOf closing c).2.f.pc (leftOf closing c).2.f.blk (leftOf closing c).1.uid).pending.map (·.va)).filter fun va =>
        match ((leftOf closing c).1.lookup (leftOf closing c).2.l.part (leftOf closing c).2.l.hdr.vdev (leftOf closing c).2.g.core va .store).1 with
        | .absent _ => true
        | .ok _ _ | .protect _ | .declined => false).length = 1
    ∧ dieOfCore (leftOf closing c).2.g.core = 0) (by decide +kernel)
  obtain ⟨k0, k1, k2, k3, k4, kb, k5, k6, k7, k8⟩ := hh
  refine ⟨c, hc, hi, ?_, hl, decide_eq_false fun h => absurd (Nat.le_trans (Nat.le_of_eq ha.symm) h) (by rw [hd, no_room rfl]; decide)⟩
  have := hands_nothing k0 k1 k2 k3 k4 k5 k6 (by rw [kb]; exact k7) (by rw [kb]; exact k8)
  rw [this, kb]

/-- A last exit hands nothing and is clear, or hands its stores to the round; at a sequencer with nothing to publish its publish is done at once. -/
theorem witness_publish :
    (grp.ctx.any fun c => match (lastOf grp c).1.handOver (lastOf grp c).2 with | .clear u => (u.groups.get c.uid).any (fun g => g.pubPoison.isNone) | _ => false) = true
    ∧ ((kept grp).ctx.any fun c => match (lastOf (kept grp) c).1.handOver (lastOf (kept grp) c).2 with | .round _ u => (u.groups.get c.uid).isSome | _ => false) = true
    ∧ (tseq.ctx.any fun c => match tseq.publish c with | .done t => decide (t.groups = tseq.groups) | _ => false) = true := by decide +kernel

/-- A last exit waits for room in the bounce buffer. -/
theorem witness_exit_waits : ∃ c n u, roomless.ctx = some c ∧ c.g.idle = true ∧ (lastOf roomless c).1.handOver (lastOf roomless c).2 = .wait n u := by
  obtain ⟨c, hc, hi, hl, hd⟩ := ctx_of (s := roomless) (p := fun c => c.g.idle = true
    ∧ (((lastOf roomless c).2.b.pending.map (·.va)).filter fun va =>
        match ((lastOf roomless c).1.lookup (lastOf roomless c).2.l.part (lastOf roomless c).2.l.hdr.vdev (lastOf roomless c).2.g.core va .store).1 with
        | .absent _ => true
        | .ok _ _ | .protect _ | .declined => false).length = 1
    ∧ dieOfCore (lastOf roomless c).2.g.core = 0) (by decide +kernel)
  have hr : (lastOf roomless c).1.bounceRoom (dieOfCore (lastOf roomless c).2.g.core) = 0 := by rw [hd]; exact no_room rfl
  have hf : (lastOf roomless c).1.bounceFits (lastOf roomless c).2 ((lastOf roomless c).2.b.pending.map (·.va)) = false :=
    decide_eq_false fun h => absurd (Nat.le_trans (Nat.le_of_eq hl.symm) h) (by rw [hr]; decide)
  refine ⟨c, 6, (lastOf roomless c).1, hc, hi, ?_⟩
  unfold State.handOver State.handOut
  rw [if_pos (by simp only [hf]; simp)]

def inResume : State := withG (withF handled fun f => { f with handler := .resume }) fun g =>
  { g with saved := [{ frags := g.frags, ks := List.replicate 32 7, ms := [] }] }

/-- A fragment that took its trap as it waited at its reconvergence header. -/
def waited : State := withF inHandler fun f => { f with tphase := .reconv }

theorem witness_TretComplete :
    (∃ c, ClearJump inHandler c noGuard [] ∧ c.g.seq = false ∧ c.f.handler = .fault ∧ c.g.idle = true ∧ c.f.tphase ≠ .reconv ∧ c.f.tretAtLast = false)
    ∧ (∃ c, ClearJump waited c noGuard [] ∧ c.g.seq = false ∧ c.f.handler = .fault ∧ c.g.idle = true ∧ c.f.tphase = .reconv)
    ∧ (∃ c, ClearJump inResume c noGuard [] ∧ c.g.seq = false ∧ c.f.handler = .resume ∧ (fG (.v 0) (.v 0) 0 0).func ≠ 1 ∧ c.g.idle = true
      ∧ (c.g.saved.any fun v => v.frags.wf) = true)
    ∧ (∃ c, ClearJump tseq c noGuard [] ∧ c.g.seq = true) ∧ (∃ c, ClearJump grp c noGuard [] ∧ c.f.handler = .none)
    ∧ (∃ c, ClearJump (withF handled fun f => { f with handler := .preempt }) c noGuard [] ∧ c.f.handler = .preempt)
    ∧ ∃ c, ClearJump inResume c noGuard [] ∧ c.f.handler = .resume ∧ (fG (.v 0) (.v 0) 0 1).func = 1 := by
  and_intros <;> exact jump_of (by decide +kernel)

/-- A reduction of the group on host memory that stands in the open round. -/
def reducing : State :=
  { grp with handedUpd := [{ part := 0, ident := 0, order := 0, upd := { group := 3, addr := hostBase, float := false, aop := 0, bytes := 4, vals := [1], share := 0, vdev := 0, poison := false } }] }

theorem witness_HintsComplete :
    (∃ c, Clear grp c noGuard [] [] false ∧ c.f.pend = .none)
    ∧ (∃ c, Clear grp c noGuard [] (baseUsed (fE (.v 0) .b32 0) ++ offUsed (.k 1023)) false ∧ c.f.pend = .none)
    ∧ (∃ c, Clear (withPend grp (.done 0 [])) c noGuard [] [] false ∧ c.f.pend = .done 0 [])
    ∧ (∃ c, Clear (withK grp [(5, 0)]) c noGuard [] [(1, .k 5)] false ∧ c.f.pend = .none ∧ 0 + c.g.lane (.k 5) 0 = 0)
    ∧ (∃ c, Clear (withK grp [(5, 1)]) c noGuard [] [(1, .k 5)] false ∧ c.f.pend = .none ∧ 0 + c.g.lane (.k 5) 0 ≠ 0)
    ∧ (∃ c, Clear grp c noGuard [] [] false ∧ c.g.seq = false ∧ c.l.host = true ∧ grp.reducing c.uid = false ∧ ∀ u ∈ grp.updates, u.group = c.uid → isHost u.addr = false)
    ∧ (∃ c, Clear tseq c noGuard [] [] false ∧ c.g.seq = true)
    ∧ (∃ c, Clear reducing c noGuard [] [] false ∧ (4 : BitVec 16).toNat % 8 = 4 ∧ c.l.host = true ∧ reducing.reducing c.uid = true)
    ∧ ∃ c, Clear (guest grp) c noGuard [] [] false ∧ (4 : BitVec 16).toNat % 8 = 4 ∧ c.l.host = false ∧ (grp.parts.get c.l.part).isSome = true := by
  and_intros <;> exact clear_of (by decide +kernel)

/-! ### Witnesses: memory -/

/-- One lane, with a pointer to 2 MiB in k8 to k10. -/
def mem1 : State := lane0 (withK grp [(8, 0x200000), (9, 0), (10, 0), (4, 7), (5, 9), (6, 1), (7, 2)])

/-- The same with the pointer in the aperture of peer 0, through region 1, whose page is cached. -/
def peerRange : RangeEntry :=
  { valid := true, base := peerBase, limit := peerBase + 2 ^ 26 - 1, share := 0, peer := 0, kind := 2, local_ := false, canRead := true, canWrite := true }
def peerRegion : Region := { valid := true, root := 0x10000, share := 0, peer := 0, span := 32, kind := 2, stream := false, local_ := false, page := 3 }
def peerEntry : TlbEntry := { part := 0, vdev := 0, page := 2 ^ 76, shift := 26, frame := peerBase, r := true, w := true, x := false }
def peerPart (p : Part) : Part :=
  { p with ranges := p.ranges.put 1 peerRange, vdev := p.vdev.upd 0 fun v => { v with regions := v.regions.put 1 peerRegion } }
def mem2 : State := { (withP (withK mem1 [(8, 0), (10, 4096)]) peerPart) with tlbCore := Table.empty.put 0 [peerEntry] }

theorem witness_LoadsComplete :
    (∃ c, Clear mem1 c noGuard [(1, .v 0)] (baseUsed (fE (.v 0) .b32 0) ++ offUsed (.k 1023)) false ∧ c.g.full 0 = false ∧ mem1.bounce = []
      ∧ ((mem1.lanes c 4 .load (fun _ => true) (c.addrs (fE (.v 0) .b32 0) (dispE (fE (.v 0) .b32 0)) (c.eff noGuard))).2.toOption).any
          (fun as => decide (as.length = 1 ∧ ∀ a ∈ as, a.pa = 0x200000 ∧ peerOf a.pa = none)
            && ((mem1.lanes c 4 .load (fun _ => true) (c.addrs (fE (.v 0) .b32 0) (dispE (fE (.v 0) .b32 0)) (c.eff noGuard))).1.touchL2 c false as).isSome) = true)
    ∧ ∃ c, Clear mem2 c noGuard [(1, .v 0)] (baseUsed (fE (.v 0) .b32 0) ++ offUsed (.k 1023)) false ∧ c.g.full 0 = false ∧ mem2.bounce = [] ∧ c.repeats = false ∧ c.g.replay = [] ∧ c.b.check = none
      ∧ ((mem2.lanes c 4 .load (fun _ => true) (c.addrs (fE (.v 0) .b32 0) (dispE (fE (.v 0) .b32 0)) (c.eff noGuard))).2.toOption).any
          (fun as => decide (∃ a ∈ as, (peerOf a.pa).isSome = true)
            && ((mem2.lanes c 4 .load (fun _ => true) (c.addrs (fE (.v 0) .b32 0) (dispE (fE (.v 0) .b32 0)) (c.eff noGuard))).1.touchL2 c false as).isSome) = true :=
  ⟨clear_of (by decide +kernel), clear_of (by decide +kernel)⟩

/-- A load in flight, one that met a poisoned line. -/
def flying (bad : Bool) : State := withG mem1 fun g =>
  g.raise { Flight.plain 9 0 0 1 with writes := [.sca 20 5], bad := if bad then some (.poison, 0x200000) else none }

theorem witness_LoadCompletion : ∀ bad, ((flying bad).groups.get 3).any (fun g => (g.flights.find? fun x => x.id == 9 && !x.done).any fun f =>
    decide (f.cls = 0 ∧ f.bad.isSome = bad ∧ f.mask &&& g.liveLanes ≠ 0 ∧ g.saved = [])) = true := by decide +kernel

/-- What the buffering of a store's lanes needs, each to a line of a peer or none. -/
def stores (s : State) (peer : Bool) (c : Ctx) : Bool :=
  let r := s.lanes c 4 .store (fun _ => true) (c.addrs (fE (.k 4) .b32 0) (dispE (fE (.k 4) .b32 0)) (c.eff noGuard))
  r.2.toOption.any fun as => decide (as.length = 1 ∧ ∀ a ∈ as, (peerOf a.pa).isSome = peer)
    && (as.foldlM (fun (t : State) (a : LaneAcc) => t.bufferStore c a.pa (toBytes 4 (c.g.wide 1 (.k 4) a.lane)) (t.shareOf c.l.part a.pa a.region)) r.1).any
      fun u => (u.touchL2 c false as).isSome

theorem witness_StoresComplete :
    (∃ c, Clear mem1 c noGuard [] ((1, .k 4) :: (baseUsed (fE (.k 4) .b32 0) ++ offUsed (.k 1023))) false ∧ c.g.full 1 = false ∧ mem1.bounce = [] ∧ stores mem1 false c = true)
    ∧ ∃ c, Clear mem2 c noGuard [] ((1, .k 4) :: (baseUsed (fE (.k 4) .b32 0) ++ offUsed (.k 1023))) false ∧ c.g.full 1 = false ∧ mem2.bounce = [] ∧ stores mem2 true c = true :=
  ⟨clear_of (by decide +kernel), clear_of (by decide +kernel)⟩

/-- Window 0, unmapped, of the first 512 bytes; window 1, mapped at 2 MiB, its lines 0 and 1 filled and line 1 dirty. Word 0 is full. -/
def wins : State := withB mem1 fun b => { b with
  windows := (Table.empty.put 0 { off := 0, len := 512, mode := 0, mapped := false, base := 0, filled := [], dirty := [] }).put 1
    { off := 512, len := 512, mode := 0, mapped := true, base := 0x200000, filled := [0, 1], dirty := [1] },
  store := Table.empty.put 0 { val := 3, full := true, poison := false } }

/-- An unmapped window has no line to fill. -/
theorem fill_unmapped (s : State) (c : Ctx) (n : Nat) (w : Window) (h : w.mapped = false) : ∀ ls, s.fillLines c n w ls = (s, .ok none)
  | [] => rfl
  | _ :: ls => by
    show (if (!w.mapped || _) = true then s.fillLines c n w ls else _) = _
    rw [h, Bool.not_false, Bool.true_or, if_pos rfl]
    exact fill_unmapped s c n w h ls

def win0 : Window := { off := 0, len := 512, mode := 0, mapped := false, base := 0, filled := [], dirty := [] }

theorem witness_WindowAccesses_window : ∃ c, wins.ctx = some c ∧ c.b.windows.get 0 = some win0 := ctx_of (by decide +kernel)
theorem witness_WindowAccesses_lines (c : Ctx) : ∀ ls : List (Nat × Nat), (∀ l ∈ ls, 128 * l.1 < win0.len) → wins.fillLines c 0 win0 ls = (wins, .ok none) :=
  fun ls _ => fill_unmapped wins c 0 win0 rfl ls

/-- ldw and stw at the last word of the window, ldf at word 0, ste at word 1. -/
theorem witness_WindowAccesses :
    (∃ c, Clear wins c noGuard [(1, .v 3)] (offUsed (.k 12)) false ∧ c.g.full 0 = false)
    ∧ (∃ c, Clear (withK wins [(12, 508)]) c noGuard [(1, .v 3)] (offUsed (.k 12)) false ∧ c.g.full 0 = false
      ∧ (windowLanes win0 4 (c.winOffs (fG (.v 3) (.k 12) 0 2) (c.eff noGuard) 4)).toOption = some [(0, 508)] ∧ c.b.poisonIn 508 4 = none)
    ∧ (∃ c, Clear (withK wins [(12, 508)]) c noGuard [] ((1, .v 3) :: offUsed (.k 12)) false ∧ c.g.full 1 = false
      ∧ (windowLanes win0 4 (c.winOffs (fG (.v 3) (.k 12) 0 2) (c.eff noGuard) 4)).toOption = some [(0, 508)])
    ∧ (∃ c, Clear (withK wins [(12, 0)]) c noGuard [(1, .v 3)] (offUsed (.k 12)) false
      ∧ (windowLanes win0 4 ((accessLanes (.v 3) (c.eff noGuard)).map fun j => (j, c.g.winOff (fG (.v 3) (.k 12) 0 8) 0 4 j))).toOption = some [(0, 0)]
      ∧ (c.b.word 0).full = true ∧ (c.b.word 0).poison = false)
    ∧ (∃ c, Clear (withK wins [(12, 4)]) c noGuard [] ((1, .v 3) :: offUsed (.k 12)) false
      ∧ (windowLanes win0 4 ((accessLanes (.v 3) (c.eff noGuard)).map fun j => (j, c.g.winOff (fG (.v 3) (.k 12) 0 0) 0 4 j))).toOption = some [(0, 4)]
      ∧ (c.b.word 1).full = false)
    ∧ (∃ c, Clear (withK wins [(12, 0), (13, 512)]) c noGuard [] [(1, .k 12), (1, .k 13)] false
      ∧ (windowRange win0 4 (c.g.sreg 12).toNat (c.g.sreg 13).toNat).toOption = some ())
    ∧ ∃ c, Clear (withK wins [(13, 384)]) c noGuard [(1, .k 12)] [(1, .k 13)] false ∧ (c.g.sreg 13).toNat % 128 = 0 ∧ (c.g.sreg 13).toNat + 128 ≤ win0.len := by
  and_intros <;> exact clear_of (by decide +kernel)

/-- setw of a whole store's window and of an unset one; fillw on both kinds of window, flushw of the whole. -/
def setK : State := withK wins [(16, 0), (17, 65536), (18, 0), (19, 0), (20, 0), (21, 0), (22, 0), (23, 0), (12, 0), (13, 256)]
theorem witness_WindowManagement :
    (∃ c, Clear setK c noGuard [] [(8, .k 16)] false
      ∧ (setwCheck c.f.pc c.l.hdr.store (c.g.scalars 16 8)).toOption = some (some { off := 0, len := 65536, mode := 0, mapped := false, base := 0, filled := [], dirty := [] })
      ∧ c.b.windows.wf = true)
    ∧ (∃ c, Clear (withK setK [(17, 0)]) c noGuard [] [(8, .k 16)] false ∧ (setwCheck c.f.pc c.l.hdr.store (c.g.scalars 16 8)).toOption = some none)
    ∧ (∃ c, Clear setK c noGuard [] [(1, .k 12), (1, .k 13)] false ∧ c.b.windows.get 0 = some win0
      ∧ (windowRange win0 128 (c.g.sreg 12).toNat (c.g.sreg 13).toNat).toOption = some () ∧ c.g.full 0 = false ∧ c.g.full 1 = false)
    ∧ ∃ c, Clear setK c noGuard [] [(1, .k 12), (1, .k 13)] false ∧ (c.b.windows.get 1).any (fun w =>
        decide ((windowRange w 128 (c.g.sreg 12).toNat (c.g.sreg 13).toNat).toOption = some () ∧ w.mapped = true ∧ 0 ∈ w.filled ∧ 1 ∈ w.filled)) = true ∧ c.g.full 0 = false := by
  and_intros <;> exact clear_of (by decide +kernel)

theorem witness_WindowFillReads : ∃ c, wins.ctx = some c ∧ c.repeats = false ∧ c.b.check = none ∧ wins.bounce = [] ∧ (c.b.windows.get 1).any (fun w =>
    (match (wins.translate c.l.part c.l.hdr.vdev c.g.core ((w.base + 128 * 3) % 2 ^ 80) .load).2 with
      | .ok pa r => !(wins.view { c.reader with also := [(.block c.g.block, none)] } (pa / 128)).2 && (peerOf pa).isNone
        && ((wins.translate c.l.part c.l.hdr.vdev c.g.core ((w.base + 128 * 3) % 2 ^ 80) .load).1.touchL2 c false
            [{ lane := 0, va := (w.base + 128 * 3) % 2 ^ 80, pa := pa, region := r }]).isSome
      | _ => false)
    && (c.b.pending.all fun p => p.va != (w.base + 128 * 3) % 2 ^ 80) && w.off % 4 == 0) = true := ctx_of (by decide +kernel)

/-- A line of four bytes in the group's store buffer. -/
def stored : State := { mem1 with buffer := [{ group := 3, line := 0x4000, mask := 15, data := mkLine fun i => BitVec.ofNat 8 i, poison := false, spilled := false, share := 0, vdev := 0, order := 0 }] }

theorem witness_PublishHands : ∃ c, Clear stored c noGuard [] [] false ∧ c.f.pend = .none ∧ c.g.counter 1 = 0 ∧ c.repeats = false ∧ c.b.check = none ∧ c.b.set = none
    ∧ c.b.pubPoison = none ∧ c.b.pending = [] ∧ (∃ b ∈ stored.buffer, b.group = c.uid) ∧ (stored.parts.get c.l.part).isSome = true := clear_of (by decide +kernel)

/-- With an empty buffer a publish leaves the state as it is, and the group may mark. -/
theorem witness_PublishesComplete : (∃ c, Clear grp c noGuard [] [] false ∧ c.b.check = none ∧ c.repeats = false ∧ c.g.replay = [] ∧ c.g.idle = true
      ∧ c.f.mask = c.g.liveLanes ∧ c.f.handler = .none ∧ grp.publish c = .done grp)
    ∧ ∃ c, Clear two c noGuard [] [] false ∧ c.b.check = none ∧ c.g.idle = true ∧ c.rmarkSaves = false ∧ two.publish c = .done two := by
  refine ⟨(clear_of (s := grp) (g := noGuard) (ds := []) (ss := []) (cr := false) (p := fun c => (c.b.check = none ∧ c.repeats = false ∧ c.g.replay = [] ∧ c.g.idle = true ∧ c.f.mask = c.g.liveLanes ∧ c.f.handler = .none)
      ∧ nothingToHand grp c = true) (by decide +kernel)).imp ?_,
    (clear_of (s := two) (g := noGuard) (ds := []) (ss := []) (cr := false) (p := fun c => (c.b.check = none ∧ c.g.idle = true ∧ c.rmarkSaves = false) ∧ nothingToHand two c = true) (by decide +kernel)).imp ?_⟩
  · exact fun c ⟨k, ⟨a, b, d, e, f, g⟩, h⟩ => ⟨k, a, b, d, e, f, g, publishes_nothing h _⟩
  · exact fun c ⟨k, ⟨a, b, d⟩, h⟩ => ⟨k, a, b, d, publishes_nothing h _⟩

theorem witness_WaitsComplete : (∃ c, Clear (flying false) c noGuard [] [] false ∧ (∀ k, k < 5 → c.g.counter k ≤ (1 : BitVec 32).toNat / 2 ^ (6 * k) % 64) ∧ c.g.delivered = [])
    ∧ (∃ c, Clear (flying false) c noGuard [] [] false ∧ (0 : BitVec 32).toNat / 2 ^ (6 * 0) % 64 < c.g.counter 0)
    ∧ (∃ c, Clear (withK (flying false) [(12, 1)]) c noGuard [] [(1, .k 12)] false ∧ (0 : BitVec 16).toNat % 8 < 5 ∧ c.g.counter 0 ≤ (c.g.sreg 12).toNat ∧ c.g.delivered = [])
    ∧ ∃ c, Clear (withK (flying false) [(12, 0)]) c noGuard [] [(1, .k 12)] false ∧ (c.g.sreg 12).toNat < c.g.counter 0 := by
  and_intros <;> exact clear_of (by decide +kernel)

/-! ### Witnesses: atomics, barriers and queues -/

theorem witness_AtomicsComplete :
    (∃ c, Clear mem1 c noGuard [] ((1, .k 4) :: (baseUsed (fE (.k 4) .b32 0) ++ offUsed (.k 1023))) false ∧ c.g.full 4 = false ∧ mem1.bounce = [] ∧ c.repeats = false ∧ c.g.replay = []
      ∧ c.b.check = none ∧ ((mem1.lanes c 4 .atomic (atomTypeOk 0) (c.addrs (fE (.k 4) .b32 0) (dispA (fE (.k 4) .b32 0)) (c.eff noGuard))).2.toOption).any
          (fun as => decide (as.length = 1 ∧ ∀ a ∈ as, a.pa / 128 ∉ mem1.poison ∧ peerOf a.pa = none)
            && (((mem1.lanes c 4 .atomic (atomTypeOk 0) (c.addrs (fE (.k 4) .b32 0) (dispA (fE (.k 4) .b32 0)) (c.eff noGuard))).1.clamp c
                (scopeCode .grp)).touchL2 c false as).isSome) = true)
    ∧ (atomRegs 0 (aopE (fE (.k 4) .b32 0)) .b32).1 = 1 :=
  ⟨clear_of (by decide +kernel), by decide +kernel⟩

/-- What the lanes of a reduction need: update-only copies that have room, or elements on a peer. -/
def reduces (s : State) (peer : Bool) (c : Ctx) : Bool :=
  let r := s.lanes c 4 .atomic (atomTypeOk 0) (c.addrs (fE (.k 4) .b32 0) (dispA (fE (.k 4) .b32 0)) (c.eff noGuard))
  r.2.toOption.any fun as => decide (as.length = 1 ∧ ∀ a ∈ as, (peerOf a.pa).isSome = peer)
    && (peer || (as.foldlM (fun (t : State) a => t.contribute c false 0 0 4 (c.g.wide 1 (.k 4) a.lane) a) (r.1.clamp c (scopeCode .grp))).isSome)

theorem witness_ReductionsComplete :
    (∃ c, Clear mem1 c noGuard [] ((1, .k 4) :: (baseUsed (fE (.k 4) .b32 0) ++ offUsed (.k 1023))) false ∧ c.g.full 4 = false ∧ mem1.bounce = []
      ∧ c.b.check = none ∧ reduces mem1 false c = true)
    ∧ ∃ c, Clear mem2 c noGuard [] ((1, .k 4) :: (baseUsed (fE (.k 4) .b32 0) ++ offUsed (.k 1023))) false ∧ c.g.full 4 = false ∧ mem2.bounce = []
      ∧ c.b.check = none ∧ reduces mem2 true c = true :=
  ⟨clear_of (by decide +kernel), clear_of (by decide +kernel)⟩

theorem witness_WindowAtomicsComplete : ∃ c, Clear (withK wins [(12, 0)]) c noGuard [] ((1, .k 4) :: offUsed (.k 12)) false ∧ c.g.full 4 = false ∧ c.repeats = false ∧ c.b.check = none
    ∧ c.b.windows.get 0 = some win0
    ∧ (windowLanes win0 4 ((accessLanes (.k 4) (c.eff noGuard)).map fun j => (j, c.g.winOff (fG (.k 4) (.k 12) 0 2) (dispG (fG (.k 4) (.k 12) 0 2)) 4 j))).toOption = some [(0, 0)]
    ∧ c.shareCore 0 = c.g.core ∧ c.b.poisonIn 0 4 = none ∧ winSize (fG (.k 4) (.k 12) 0 2) = .b32 := clear_of (by decide +kernel)

def bar0 : Barrier := { p := 0, eb := 4, ea := 1, cb := 0, ca := 0, init := true, poisoned := false }
theorem witness_BarrierPhases : bar0.poisoned = false ∧ bar0.init = true ∧ ({ bar0 with cb := 4, ca := 1 } : Barrier).cb = bar0.eb ∧ bar0.ea < ({ bar0 with ca := 2 } : Barrier).ca
    ∧ bar0.cb ≤ bar0.eb ∧ bar0.ca ≤ bar0.ea ∧ bar0.cb ≠ bar0.eb := by decide

/-- Barrier 63 in phase 5. -/
def barred : State := withB (withK grp [(12, 5), (13, 6)]) fun b => { b with bars := b.bars.put 63 { bar0 with p := 5 } }
def barPoison : State := withB barred fun b => { b with bars := b.bars.put 63 { bar0 with poisoned := true } }

theorem witness_BarriersComplete :
    (∃ c, Clear barred c noGuard [] [(1, .k 12), (1, .k 13)] false ∧ badBar 63 c = false ∧ (c.g.sreg 12).toNat ≠ 0)
    ∧ (∃ c, Clear barred c noGuard [(1, .k 20)] [(1, .k 12)] false ∧ badBar 63 c = false ∧ (∀ d ∈ c.g.delivered, d.bar ≠ some 63)
      ∧ (c.b.bar 63).poisoned = false ∧ c.f.pend = .none ∧ signed 32 ((c.b.bar 63).p - c.g.sreg 12).toNat = 0)
    ∧ (∃ c, Clear (withK barred [(12, 3)]) c noGuard [(1, .k 20)] [(1, .k 12)] false ∧ signed 32 ((c.b.bar 63).p - c.g.sreg 12).toNat = 2)
    ∧ (∃ c, Clear (withK barred [(12, 4)]) c noGuard [(1, .k 20)] [(1, .k 12)] false ∧ signed 32 ((c.b.bar 63).p - c.g.sreg 12).toNat = 1)
    ∧ (∃ c, Clear barred c noGuard [(1, .k 20)] [(1, .k 13)] false ∧ signed 32 ((c.b.bar 63).p - c.g.sreg 13).toNat < 0)
    ∧ (∃ c, Clear barPoison c noGuard [(1, .k 20)] [(1, .k 12)] false ∧ (c.b.bar 63).poisoned = true)
    ∧ ∃ c, Clear (withPend barred (.bar 4)) c noGuard [(1, .k 20)] [(1, .k 12)] false ∧ c.f.pend = .bar 4 ∧ (c.b.bar 63).p.toNat ≠ 4 := by
  and_intros <;> exact clear_of (by decide +kernel)

/-- Work queue 0 with one item of two places. -/
def queued : State := withP (withK grp [(12, 7), (13, 8)]) fun p => { p with queues := Table.empty.put 0 { cap := 2, items := [9], waiters := [] } }
def emptied : State := withP queued fun p => { p with queues := Table.empty.put 0 { cap := 2, items := [], waiters := [] } }

theorem witness_WorkQueuesComplete :
    (∃ c, Clear queued c noGuard [(2, .k 20)] [] false ∧ unboundQ 0 c = false ∧ c.repeats = false ∧ c.g.replay = []
      ∧ queued.workQueue c 0 = some (0, { cap := 2, items := [9], waiters := [] }) ∧ c.f.pend = .none)
    ∧ (∃ c, Clear emptied c noGuard [(2, .k 20), (1, .k 22)] [] false ∧ emptied.workQueue c 0 = some (0, { cap := 2, items := [], waiters := [] }) ∧ c.f.pend = .none)
    ∧ ∃ c, Clear queued c noGuard [] [(2, .k 12)] false ∧ c.f.pend = .none
      ∧ queued.publish c (fun m => .handed m [c.g.pair (opndIdx (.k 12))]) = .done queued :=
  ⟨clear_of (by decide +kernel), clear_of (by decide +kernel),
   (clear_of (s := queued) (g := noGuard) (ds := []) (ss := [(2, .k 12)]) (cr := false) (p := fun c => c.f.pend = .none ∧ nothingToHand queued c = true) (by decide +kernel)).imp fun _ k => ⟨k.1, k.2.1, publishes_nothing k.2.2 _⟩⟩

/-- The sequencer's set and a group of one of its blocks, with words waiting both ways and a chunk drained. -/
def ports (s : State) : State := withSet (withK s [(12, 7)]) fun t => { t with
  toSeq := [1, 2], toGrp := [3], engines := t.engines.map fun e => { e with results := [mkLanes fun j => toWord j] } }
def grpPorts : State := withB (ports { grp with sets := Table.empty.put 4 (TileSet.start 1 [2] 3 0 0) }) fun b => { b with set := some 4 }
def seqPorts : State := ports tseq

theorem witness_EnginePortsComplete :
    (∃ c, Clear grpPorts c noGuard [] [(1, .k 12)] false ∧ unboundQ 4 c = false ∧ (grpPorts.setOf c).isSome = true ∧ c.port 4 = some 4 ∧ c.g.seq = false)
    ∧ (∃ c, Clear seqPorts c noGuard [] [(1, .k 12)] false ∧ (seqPorts.setOf c).isSome = true ∧ c.port 5 = some 5 ∧ c.g.seq = true)
    ∧ (∃ c, Clear seqPorts c noGuard [(1, .k 20)] [] false ∧ c.port 4 = some 4 ∧ (seqPorts.setOf c).any (fun t => decide (t.2.toSeq = [1, 2])) = true)
    ∧ (∃ c, Clear grpPorts c noGuard [(1, .k 20)] [] false ∧ c.port 5 = some 5 ∧ (grpPorts.setOf c).any (fun t => decide (t.2.toGrp = [3])) = true)
    ∧ (∃ c, Clear grpPorts c noGuard [(1, .v 20)] [] false ∧ c.port 1 = some 1 ∧ (grpPorts.results c).length = 1)
    ∧ ∃ c, Clear grpPorts c noGuard [(1, .k 20)] [] false ∧ c.port 2 = some 2 ∧ c.port 3 = some 3 := by
  and_intros <;> exact clear_of (by decide +kernel)

/-- A copy of 8 bytes from 0x200000 to window 0, and cards of length 0 and of an odd length. -/
def carded (n : Nat) : State := withK wins [(24, 0x200000), (25, 0), (26, 0), (27, n), (28, 0), (29, 0), (30, 0), (31, 2),
  (32, 0x200000), (33, 0), (34, 0), (35, 4), (36, 16), (37, n / 4), (38, 0), (39, 128), (40, 0), (41, 0), (42, 0), (43, 0)]

/-- A repeat run that has the copy's place in its keyed entries. -/
def recopies : State := withG (withB (carded 8) fun b => { b with check := some 7, run := 2 }) fun g =>
  { g with keyed := [{ kind := .pub, op := 3, data := [2, 1, 99], digest := 0 }] }

theorem witness_CopyCardsComplete :
    (∃ c, Clear (carded 8) c noGuard [] [(8, .k 24)] false ∧ unboundQ 2 c = false ∧ c.port 2 = some 2 ∧ (c.copyCard (c.g.scalars 24 8)).toOption.isSome = true
      ∧ c.g.full 2 = false ∧ (carded 8).cards false c.g.core < 64 ∧ (c.g.scalars 24 8).getD 3 0 ≠ 0)
    ∧ (∃ c, Clear recopies c noGuard [] [(8, .k 24)] false ∧ unboundQ 2 c = false ∧ c.port 2 = some 2 ∧ (c.copyCard (c.g.scalars 24 8)).toOption.isSome = true
      ∧ c.g.full 2 = false ∧ recopies.cards false c.g.core < 64 ∧ (c.g.scalars 24 8).getD 3 0 ≠ 0 ∧ c.repeats = true ∧ c.b.check ≠ none ∧ c.holdsUp recopies = false
      ∧ (recopies.takeOwn c.uid fun e => decide (e.kind = .pub ∧ e.op = 3 ∧ e.data.take 2 = [2, c.g.ordOf 2 + 1 - c.g.base.getD 2 0])).isSome = true)
    ∧ (∃ c, Clear (carded 0) c noGuard [] [(8, .k 24)] false ∧ (c.copyCard (c.g.scalars 24 8)).toOption.isSome = true ∧ (c.g.scalars 24 8).getD 3 0 = 0)
    ∧ (∃ c, Clear (carded 6) c noGuard [] [(8, .k 24)] false ∧ (c.copyCard (c.g.scalars 24 8)).toOption = none)
    ∧ (∃ c, Clear (carded 8) c noGuard [] [(12, .k 32)] false ∧ (c.gcopyCard (c.g.scalars 32 12)).toOption.isSome = true ∧ (c.g.scalars 32 12).getD 5 0 ≠ 0)
    ∧ ∃ c, Clear (carded 0) c noGuard [] [(12, .k 32)] false ∧ (c.gcopyCard (c.g.scalars 32 12)).toOption.isSome = true ∧ (c.g.scalars 32 12).getD 5 0 = 0 := by
  and_intros <;> exact clear_of (by decide +kernel)


/-! ### Witnesses: tile instructions -/

/-- A tile sequencer with pairing (0, 0, 0), a window of 16384 bytes at its block, and an unfolding of four rows by four columns. -/
def shapeK : List (Nat × Nat) := [(24, 0x40004), (25, 0x10001), (26, 0x11110101), (27, 0), (28, 0), (29, 0), (30, 0), (31, 0)]
def tileWin : Window := { off := 0, len := 16384, mode := 0, mapped := false, base := 0, filled := [], dirty := [] }
def tile0 : State := withB (withK tseq ([(12, 0), (13, 0), (14, 0), (15, 0), (16, 0x200000), (17, 0), (18, 0), (19, 64)] ++ shapeK)) fun b => { b with windows := Table.empty.put 0 tileWin }
def tiles : State := withSet tile0 fun ts => { ts with pairing := some (0, 0, 0) }
def unfolded : State := withSet tiles fun ts => { ts with unfold := some { desc := [], win := 0, windows := [tileWin] } }

theorem witness_TileIssueComplete :
    (∃ c, Clear tile0 c noGuard [] [] false ∧ (tile0.setOf c).any (fun t => decide (tile0.entries t.1 t.2 < 32)) = true ∧ c.g.full 3 = false ∧ (pairKind (0, 0, 0)).isSome = true ∧ c.g.counter 3 = 0)
    ∧ (∃ c, Clear tiles c noGuard [] [(8, .k 24)] false ∧ c.g.full 3 = false ∧ (tiles.setOf c).any (fun t => decide (t.2.pairing = some (0, 0, 0)
        ∧ (shapeOf (c.g.scalars 24 8)).ok = true ∧ pairQuantA (0, 0, 0) = false ∧ tiles.engineWindows t.2 0 = some [tileWin]
        ∧ ∀ e ∈ (shapeOf (c.g.scalars 24 8)).ends (0, 0, 0), e ≤ tileWin.len)) = true)
    ∧ (∃ c, Clear unfolded c noGuard [] [(2, .k 12), (2, .k 14)] false ∧ c.g.full 3 = false ∧ (unfolded.setOf c).any (fun t => decide (unfolded.entries t.1 t.2 < 32
        ∧ t.2.unfold.isSome = true ∧ t.2.kinds.getD 0 false = pairInt (0, 0, 0))) = true)
    ∧ (∃ c, Clear tiles c noGuard [] [(1, .k 12)] false ∧ (c.g.sreg 12).toNat % 128 = 0 ∧ (c.g.sreg 12).toNat + 8192 ≤ tileWin.len)
    ∧ (∃ c, Clear tiles c noGuard [] ([(1, .k 12)] ++ [(2, .k 14)]) false ∧ bitAt 0x94 2 = true ∧ 0x94 / 16 % 4 = 1 ∧ bitAt 0x94 7 = true)
    ∧ ∃ c, Clear (withSet tiles fun ts => ts.setKinds (fun _ => true) true) c noGuard [] [] false
      ∧ ((withSet tiles fun ts => ts.setKinds (fun _ => true) true).setOf c).any (fun t => t.2.kinds.getD (0x30 % 4) false) = true ∧ 0x30 / 16 % 4 = 3 ∧ bitAt 0x30 2 = false ∧ bitAt 0x30 3 = false
      ∧ bitAt 0x30 6 = false := by
  and_intros <;> exact clear_of (by decide +kernel)

/-- Expert 7 of the partition, of 4096 bytes at 2 MiB with its fallback at 3 MiB. -/
def expert7 : Expert := { valid := true, primary := 0x200000, kind := 3, len := 4096, fallback := 0x300000, routed := 5, fetched := 9, fell := 2 }
def expertK : List (Nat × Nat) := [(40, 7), (41, 64), (42, 64), (43, 1000)]
def experts (s : State) : State := withK (withP s fun p => { p with experts := p.experts.put 7 expert7 }) expertK
def expertV : State := withV (experts grp) 4 fun j => if j < 3 then 7 else 5000
def marked : State := withSet (experts tiles) fun ts => { ts with marks := [7] }

theorem witness_TileLoadsAndExpertsComplete :
    (∃ c, Clear tiles c noGuard [] [(3, .k 16), (1, .k 19)] false ∧ (tiles.setOf c).any (fun t => decide (tiles.entries t.1 t.2 < 32)) = true ∧ c.g.full 3 = false
      ∧ c.g.pointer 16 % 64 = 0 ∧ (c.g.sreg 19).toNat % 64 = 0 ∧ (c.g.sreg 19).toNat ≤ 65536 ∧ (c.g.sreg 19).toNat ≠ 0)
    ∧ (∃ c, Clear (withK tiles [(19, 0)]) c noGuard [] [(3, .k 16), (1, .k 19)] false ∧ c.g.full 3 = false ∧ c.repeats = false ∧ c.b.check = none ∧ (c.g.sreg 19).toNat = 0)
    ∧ (∃ c, Clear (withK (experts tiles) [(42, 0)]) c noGuard [] [(2, .k 40), (2, .k 42)] false ∧ c.g.full 3 = false
      ∧ ((withK (experts tiles) [(42, 0)]).part c.l.part).expert (c.g.sreg 40).toNat = expert7 ∧ (c.g.sreg 42).toNat = 0)
    ∧ (∃ c, Clear (experts tiles) c noGuard [] [(2, .k 40), (2, .k 42)] false ∧ c.g.full 3 = false ∧ ((experts tiles).part c.l.part).expert (c.g.sreg 40).toNat = expert7
      ∧ (c.g.sreg 41).toNat + (c.g.sreg 42).toNat = 128 ∧ ((experts tiles).setOf c).any (fun t => decide ((c.g.sreg 40).toNat ∉ t.2.marks ∧ (experts tiles).entries t.1 t.2 < 32)) = true)
    ∧ (∃ c, Clear marked c noGuard [] [(2, .k 40), (2, .k 42)] false ∧ c.g.full 3 = false ∧ (c.g.sreg 42).toNat % 64 = 0 ∧ (c.g.sreg 42).toNat ≤ 65536 ∧ (c.g.sreg 42).toNat ≠ 0
      ∧ (marked.setOf c).any (fun t => decide ((c.g.sreg 40).toNat ∈ t.2.marks ∧ marked.entries t.1 t.2 < 32)) = true ∧ expert7.valid = true ∧ c.repeats = false ∧ c.b.check = none ∧ (marked.part c.l.part).expert (c.g.sreg 40).toNat = expert7
      ∧ (c.g.sreg 41).toNat + (c.g.sreg 42).toNat ≤ expert7.len)
    ∧ (∃ c, Clear marked c noGuard [] [] false ∧ c.g.counter 3 = 0 ∧ c.g.delivered = [] ∧ c.repeats = false ∧ c.g.replay = [] ∧ badBar 5 c = false
      ∧ (marked.setOf c).any (fun t => decide ((∀ b ∈ t.2.blocks, (marked.blocks.get b).isSome = true) ∧ t.2.blocks.Nodup)) = true)
    ∧ (∃ c, Clear expertV c noGuard [] [(1, .v 4)] false ∧ c.g.full 4 = false ∧ c.repeats = false ∧ c.g.replay = [] ∧ c.b.check = none ∧ expert7.routed ≤ 2 ^ 48 - 1 ∧ (expertV.parts.get c.l.part).isSome = true)
    ∧ ∃ c, Clear expertV c noGuard [(2, .k 44)] [(1, .k 40)] false ∧ c.g.full 4 = false ∧ c.repeats = false ∧ c.g.replay = [] ∧ (c.g.sreg 40).toNat < 4096
      ∧ c.b.check = none ∧ (fG (.k 44) (.k 40) 0 6).func.toNat % 4 ≠ 3 ∧ bitAt (fG (.k 44) (.k 40) 0 6).func.toNat 2 = true ∧ (expertV.parts.get c.l.part).isSome = true
      ∧ (expertV.part c.l.part).expert (c.g.sreg 40).toNat = expert7 := by
  and_intros <;> exact clear_of (by decide +kernel)

/-! ### Witnesses: collectives, gates and the system -/

/-- Group 7 of collectives: this device is member 2, the lowest of members 2 and 3. -/
def coll7 : CollGroup :=
  { part := 0, slot := 2, fabric := [2, 3], view := 5, members := 0xC, member := true, joining := false, opNum := 3, stale := 0, digest := none, ops := Table.empty, suspects := 0,
    joiner := none, acked := none, proposed := none, acks := 0, heard := 0x8, lastReason := 0 }
def collOp (job : Nat) : CollOp :=
  { job := job, card := [], members := 0xC, layout := 0xC, contrib := Table.empty, stale := 0, choices := Table.empty, deciding := true, awaiting := true, reduced := false, restarted := false }
/-- The identifier in k16, a digest in k18 and k19, and a card of an all-reduce at k52. -/
def collK : State := withK grp [(16, 7), (17, 0), (18, 5), (19, 1), (52, 0x200000), (53, 0), (54, 0), (55, 16), (56, 0x300000), (57, 0), (58, 0), (59, 7 * 65536), (60, 0), (61, 0), (62, 0), (63, 0)]
def colls (g : CollGroup) : State := { collK with colls := Table.empty.put 7 g }
def member : State := colls coll7
def outsider : State := colls { coll7 with member := false }
/-- A collective's job of group 3, whose operation awaits its choice. -/
def awaits : State :=
  { colls { coll7 with ops := Table.empty.put 2 (collOp 50) } with
    jobs := Table.empty.put 50 { Job.card .coll [0x200000, 16, 0x300000, 0, 0, 0, 0, 0, 0, 2, 4] none none none [] [] with group := 3, block := 2, aux := [7, 2, 1, 0, 0] } }

/-- A device that is no member, after a warm start with every core tested, with an expected digest or none. -/
def rejoins (d : Option (BitVec 64)) : State :=
  { colls { coll7 with member := false, digest := d } with
    warm := true, coreRecs := { rows := (List.range Config.cores).map fun i => (i, { CoreRec.reset with testedSince := true }) } }

theorem get_each {α : Type} (r : α) (c : Nat) : ∀ l : List Nat, c ∈ l → assocGet (l.map fun i => (i, r)) c = some r
  | x :: l, h => by
    by_cases e : x = c
    · simp [assocGet, e]
    · simpa [assocGet, e, Ne.symm e] using get_each r c l ((List.mem_cons.mp h).resolve_left (Ne.symm e))

theorem rejoins_ready (d : Option (BitVec 64)) : (rejoins d).joinReady = true := by
  have h : ∀ c, c ∈ List.range Config.cores → (rejoins d).core c = { CoreRec.reset with testedSince := true } := fun c hc => by
    show ((assocGet ((List.range Config.cores).map fun i => (i, { CoreRec.reset with testedSince := true })) c).getD CoreRec.reset) = _
    rw [get_each _ c _ hc]
    rfl
  refine Bool.and_eq_true_iff.mpr ⟨rfl, List.all_eq_true.mpr fun c hc => ?_⟩
  rw [h c hc]
  rfl

theorem witness_CollectivesComplete :
    (∃ c, Clear member c noGuard [(12, .k 20)] [(1, .k 16)] false ∧ c.repeats = false ∧ c.g.replay = [] ∧ member.collOf c.l.part ((c.g.sreg 16).toNat % 65536) = some coll7)
    ∧ (∃ c, Clear member c noGuard [] [] false ∧ c.repeats = false ∧ c.g.replay = [])
    ∧ (∃ c, Clear member c noGuard [] [(1, .k 16)] false ∧ c.b.check = none ∧ member.awaitingOf c.uid = [])
    ∧ (∃ c, Clear awaits c noGuard [] [(1, .k 16)] false ∧ c.b.check = none ∧ (awaits.collOf c.l.part ((c.g.sreg 16).toNat % 65536)).isSome = true ∧ awaits.awaitingOf c.uid = [(7, 2, 1)])
    ∧ (∃ c, Clear member c noGuard [] [(4, .k 16)] false ∧ coll7.member = true ∧ lowSlot coll7.members = coll7.slot)
    ∧ (∃ c, Clear (withPend outsider (.done 0xE4 [1])) c noGuard [(1, .k 20)] [(4, .k 16)] false ∧ c.f.pend = .done 0xE4 [1])
    ∧ (∃ c, Clear member c noGuard [(1, .k 20)] [(4, .k 16)] false ∧ c.f.pend = .none)
    ∧ (∃ c, Clear outsider c noGuard [(1, .k 20)] [(4, .k 16)] false ∧ c.f.pend = .none ∧ outsider.joinReady = false)
    ∧ (∃ c, Clear (rejoins none) c noGuard [(1, .k 20)] [(4, .k 16)] false ∧ c.f.pend = .none ∧ (rejoins none).collOf c.l.part 7 = some { coll7 with member := false, digest := none })
    ∧ (∃ c, Clear (rejoins (some 0x100000005)) c noGuard [(1, .k 20)] [(4, .k 16)] false ∧ c.f.pend = .none
      ∧ BitVec.ofNat 64 ((c.g.sreg 18).toNat + 2 ^ 32 * (c.g.sreg 19).toNat) = 0x100000005)
    ∧ ∃ c, Clear member c noGuard [] [(12, .k 52)] false ∧ unboundQ 3 c = false ∧ c.port 3 = some 3 ∧ (member.collCard c (c.g.scalars 52 12)).toOption.isSome = true ∧ c.g.full 2 = false
      ∧ member.cards true c.g.core < 16 ∧ c.g.keyed = [] ∧ member.detached c = none ∧ coll7.ops.get coll7.opNum = none ∧ c.repeats = false
      ∧ c.g.replay = [] ∧ c.b.check = none ∧ (c.g.sreg 55).toNat ≠ 0 := by
  and_intros <;> exact clear_of (by decide +kernel)

/-- Gate 7 in k8 and the operand in k10 and k11. -/
def gated (p : Pend) : State := withPend (withK grp [(8, 7), (9, 0), (10, 3), (11, 0)]) p

theorem witness_GateOperationsComplete :
    (∀ p ∈ [Pend.none, .done 0xE8 ((List.range 23).map fun _ => 1), .denied 7], ∀ w ∈ [(true, false, 8, 4), (false, false, 8, 4)],
      ((gated p).ctx.any fun c => decide ((gated p).precheck c ([(w.2.2.1, .k 40), (w.2.2.2, .k 8)] ++ gateReads 8 w.1 w.2.1) = none ∧ c.eff noGuard ≠ 0
        ∧ c.g.poisoned (c.eff noGuard) (usedRegs (gateReads 8 w.1 w.2.1)) = none ∧ c.repeats = false ∧ c.g.replay = [] ∧ c.f.pend = p ∧ (c.g.sreg 8).toNat < 4096 ∧ c.holds = false)) = true)
    ∧ (∃ c, Clear (gated .none) c noGuard [(20, .k 40), (16, .k 8)] (gateReads 8 false true) false ∧ c.f.pend = .none)
    ∧ (∃ c, Clear (gated (.gate 9)) c noGuard [(8, .k 40), (4, .k 8)] (gateReads 8 true false) false ∧ c.f.pend = .gate 9)
    ∧ ∃ c, Clear (gated .none) c noGuard [(8, .k 40), (4, .k 8)] (gateReads 8 true false) false ∧ c.f.pend = .none ∧ c.b.check = none
      ∧ (gated .none).pendingGate c (c.gateOp (fG (.k 40) (.k 8) 0 0) 0xE8 7 (c.g.pair 10)) = none
      ∧ (gated .none).publish c.openly (fun n => .handed n [7, c.g.pair 10]) ((gated .none).firing c) = .done (gated .none) := by
  refine ⟨by decide +kernel, clear_of (by decide +kernel), clear_of (by decide +kernel), (clear_of (s := gated .none) (g := noGuard) (ds := [(8, .k 40), (4, .k 8)]) (ss := gateReads 8 true false) (cr := false)
    (p := fun c => (c.f.pend = .none ∧ c.b.check = none ∧ (gated .none).pendingGate c (c.gateOp (fG (.k 40) (.k 8) 0 0) 0xE8 7 (c.g.pair 10)) = none)
      ∧ nothingToHand (gated .none) c.openly = true ∧ (gated .none).firing c = false) (by decide +kernel)).imp ?_⟩
  exact fun c ⟨k, ⟨a, b, d⟩, h, o⟩ => ⟨k, a, b, d, publishes_nothing h _ o⟩

/-- A checked block's primary, with its segment's record. -/
def checkedB : State := { (withB grp fun b => { b with check := some 5, run := 1 }) with checks := Table.empty.put (checkKey 5 0) (Check.start 1 0 0 2 [0]) }

theorem witness_SystemRegistersComplete :
    (∃ c, Clear grp c noGuard [(2, .k 20)] [] false ∧ c.l.host = true)
    ∧ (∃ c, Clear (guest grp) c noGuard [(2, .k 20)] [] false ∧ c.l.host = false ∧ c.repeats = false ∧ c.g.replay = [])
    ∧ (∃ c, Clear grp c noGuard [] [(2, .k 20)] false ∧ c.l.host = true ∧ (grp.parts.get c.l.part).isSome = true)
    ∧ (∃ c, Clear checkedB c noGuard [] [] false ∧ c.l.host = true ∧ c.b.run = 1 ∧ c.check.any (fun k => (checkedB.checks.get k).any fun ch => (ch.runs.get c.b.run).isSome) = true)
    ∧ ∃ c, Clear (withF grp fun f => { f with handler := .preempt }) c noGuard [] [] false ∧ c.f.handler = .preempt ∧ c.g.idle = true := by
  and_intros <;> exact clear_of (by decide +kernel)

/-- A ring of 16 entries registered for one thing or another at 2 MiB. -/
def ring0 : Ring := { desc := 0x200000, base := 0x300000, entries := 16, windex := 0, dropped := 0 }
def debugged : State := withP grp fun p => { p with debugger := some true }
def sampled : State := withP (withK grp [(20, 300)]) fun p => { p with sampleRings := p.sampleRings.put 0 ring0 }

theorem witness_ObservationComplete :
    (∃ c, Clear (withG grp fun g => { g with seq := true }) c noGuard [] [] false ∧ (withG grp fun g => { g with seq := true }).stops c.l.part = false ∧ c.g.seq = true)
    ∧ (∃ c, Clear (withB grp fun b => { b with run := 2 }) c noGuard [] [] false ∧ c.repeats = true)
    ∧ (∃ c, Clear grp c noGuard [] [] false ∧ c.repeats = false ∧ grp.stops c.l.part = false ∧ c.g.seq = false)
    ∧ (∃ c, Clear debugged c noGuard [] [] false ∧ c.repeats = false ∧ debugged.stops c.l.part = true ∧ debugged.holdable c.b = true ∧ c.b.set = none)
    ∧ (∃ c, Clear grp c noGuard [] [(1, .k 20)] false ∧ ((grp.part c.l.part).vd c.l.hdr.vdev).trace = false)
    ∧ ∃ c, Clear sampled c noGuard [] [(1, .k 20)] false ∧ c.repeats = false ∧ ((sampled.part c.l.part).sampleRings.get c.l.hdr.vdev).isSome = true
      ∧ ((sampled.part c.l.part).vdev.get c.l.hdr.vdev).isSome = true := by
  and_intros <;> exact clear_of (by decide +kernel)

def served : State := withP (withK grp [(20, 300)]) fun p => { p with svcRing := some ring0, svcSeq := 3 }
def asked : State := withP (withPend grp (.svc 3)) fun p => { p with svcs := p.svcs.put 3 { group := 3, frag := 0, record := [] } }

theorem witness_ServicesComplete :
    (∃ c, Clear grp c noGuard [(1, .k 22)] [(1, .k 20)] false ∧ c.repeats = false ∧ c.g.replay = [] ∧ c.f.pend = .none ∧ grp.pendingSvc c 0 0 = none ∧ c.b.check = none ∧ (grp.part c.l.part).svcRing = none)
    ∧ (∃ c, Clear (withPend grp (.done 0xF7 [9])) c noGuard [(1, .k 22)] [(1, .k 20)] false ∧ c.f.pend = .done 0xF7 [9])
    ∧ (∃ c, Clear served c noGuard [(1, .k 22)] [(1, .k 20)] false ∧ c.f.pend = .none ∧ served.pendingSvc c 0 0 = none ∧ (served.part c.l.part).svcRing = some ring0
      ∧ ring0.windex - fromBytes (Memory.readN served.mem (ring0.desc + 0x20) 8) < ring0.entries)
    ∧ ((asked.part 0).svcs.get 3).any (fun q => (asked.groups.get q.group).any fun g => decide (g.life = .live) && (g.frags.get q.frag).any fun f => decide (f.pend = .svc 3)) = true
    ∧ (asked.part 0).svcs.wf = true := by
  and_intros <;> first | exact clear_of (by decide +kernel) | decide +kernel

/-! ### Witnesses: steps of the hardware -/

def spilledFrag : State := withF grp fun f => { f with onChip := false }
/-- A fragment that waits at a reconvergence header for the siblings of set 0. -/
def waiting : State := withG (withF grp fun f => { f with phase := .reconv, sib := some 0, reconv := some 0x100000 }) fun g => { g with sibs := g.sibs.put 0 { reconv := none, sib := none } }
def asleep : State := withPend grp .sleep
def joining : State := withPend outsider (.join 7 5)
def sampling : State := withP grp fun p => { p with vdev := p.vdev.upd 0 fun v => { v with sampling := true, mean := 256 } }

theorem witness_FragmentEvents :
    (∃ g, spilledFrag.groups.get 3 = some g ∧ (g.frags.get 0).any (fun f => !f.onChip) = true)
    ∧ (∃ c, waiting.ctxOf 3 0 = some c ∧ c.f.phase = .reconv ∧ c.f.sib = some 0 ∧ (c.g.sibs.get 0).isSome = true ∧ c.b.life = .resident ∧ c.b.hold = none ∧ c.b.quiesce = none
      ∧ waiting.running = true ∧ (waiting.part c.l.part).frozen = false ∧ c.repeats = false)
    ∧ (∃ g, asleep.groups.get 3 = some g ∧ (g.frags.get 0).any (fun f => decide (f.pend = .sleep)) = true)
    ∧ (∃ c, joining.ctxOf 3 0 = some c ∧ c.f.pend = .join 7 5)
    ∧ ∃ c, sampling.ctxOf 3 0 = some c ∧ ((sampling.part c.l.part).vdev.get c.l.hdr.vdev).any (·.sampling) = true ∧ c.g.core = 0 ∧ c.g.quarter = 0 ∧ c.f.phase = .run ∧ c.g.seq = false ∧ c.issues sampling = true
      ∧ c.outsideTrap = false ∧ sampling.peek c c.f.pc = .word 0 := by
  and_intros <;> exact some_of (by decide +kernel)

def version (part : Option Nat) (round : Nat) : Version :=
  { line := 0x4000, part := part, round := round, seq := round, data := mkLine fun i => BitVec.ofNat 8 i, poison := false, share := 0, stamps := Table.empty, vdev := 0 }
/-- Stores of group 3 handed to the open round of partition 0, and two versions of their line, the older of which no reader needs. -/
def handedOf (ident order : Nat) (v : Byte) : Handed :=
  { part := 0, round := 8, layer := none, seg := 0, group := 3, ident := ident, order := order, line := 0x4000, mask := 3, data := mkLine fun _ => v, poison := false, share := 0, vdev := 0 }
def rounded : State := { (withG (withP grp fun p => { p with round := 7, roundOpen := true }) fun g => { g with snap := 7 }) with
  handed := [handedOf 3 1 5], versions := [version (some 0) 6, version (some 0) 4] }
/-- A round one of whose lines finds no place: the only way allotted in its set holds greenware. -/
def narrow : State := withP rounded fun p => { p with vdev := p.vdev.upd 0 fun v => { v with ways := 1 } }
def crowded : State :=
  let t := (narrow.fillHome 0 0 0x4000 .priv false).getD narrow
  { narrow with l2 := Table.empty.put (narrow.home 0x4000) ((t.l2.getD (narrow.home 0x4000) []).map fun e => { e with line := 0x4001 }),
                green := [{ handedOf 3 1 5 with line := 0x4001, layer := some { check := 0, run := 1, index := 0 } }] }
def peerFlight : Flight := { Flight.plain 9 0 0 1 with peer := some 0x4000000000000000000 }
def peering : State := withG mem1 fun g => g.raise peerFlight
/-- A store on its way to a peer. -/
def peerStoring : State := { peering with peerStores := [(3, 0x4000, peerFlight)] }

theorem witness_RoundAndLineEvents :
    ((rounded.parts.get 0).isSome = true ∧ (rounded.part 0).roundOpen = true ∧ (rounded.closeRound 0).isSome = true
      ∧ (rounded.groups.rows.all fun r => decide (r.2.life = .live)) = true)
    ∧ ((crowded.part 0).roundOpen = true ∧ (crowded.closeRound 0).isNone = true)
    ∧ ((rounded.versions.find? fun v => decide (v.line = 0x4000 ∧ v.part = some 0 ∧ v.round = 4)) = some (version (some 0) 4)
      ∧ (rounded.versions.find? fun w => decide (w.line = 0x4000)) = some (version (some 0) 6)
      ∧ (rounded.readers.all fun rd => decide (rounded.versionFor rd 0x4000 ≠ some (version (some 0) 4))) = true ∧ rounded.fetches (version (some 0) 4) = false)
    ∧ (∃ g, peering.groups.get 3 = some g ∧ ∃ x ∈ g.flights, x.id = 9 ∧ x.done = false ∧ x.peer.isSome = true)
    ∧ (peering.peerStores.find? fun y => y.1 == 3 && y.2.2.id == 9).isNone = true ∧ (∃ c, peering.groupCtx 3 = some c ∧ c.b.pending = [] ∧ peering.behindRoute c 0x4000000000000000000 = [])
    ∧ (∃ g, peering.groups.get 3 = some g ∧ ∀ y ∈ g.flights, y.id = 9 → y.done = false → y.peer = some 0x4000000000000000000)
    ∧ (∃ x, (peerStoring.peerStores.find? fun y => y.1 == 3 && y.2.2.id == 9) = some x ∧ x.2.1 = 0x4000)
    ∧ (∃ b, wins.blocks.get 2 = some b ∧ b.onCores = true ∧ (b.windows.get 1).any (fun w => w.dirty.contains 1) = true)
    ∧ rounded.adminRing = none := by
  and_intros <;> first | exact some_of (by decide +kernel) | decide +kernel

/-- Two stores and a reduction of one line. -/
def onePlus : HandedUpd := { part := 0, ident := 3, order := 2, upd := { group := 3, addr := 0x200004, float := false, aop := 0, bytes := 4, vals := [1], share := 0, vdev := 0, poison := false } }

theorem witness_ClosingLine : rounded.adminRing = none ∧ rounded.mem.wf = true
    ∧ (roundFor [handedOf 3 1 5, handedOf 2 0 9] [onePlus] 0x4000).1 = [handedOf 2 0 9, handedOf 3 1 5] ∧ (roundFor [handedOf 3 1 5, handedOf 2 0 9] [onePlus] 0x4000).2 = [onePlus]
    ∧ (0x200004 : Nat) / 128 = 0x4000 ∧ (0x200004 : Nat) % 128 + 4 ≤ 128 ∧ (1 : Nat) < onePlus.upd.addr % 128 := by decide +kernel

/-- A queue whose descriptor is at 4000, with 16 packets at 8000 and 16 records at A000, and one packet in it. The launch header at 300000 has one group of 8 registers. -/
def queueAt : PacketQueue := { desc := 0x4000, open_ := [], ready := Table.empty, taken := 0, wants := Table.empty }
def headerBytes : List Byte :=
  toBytes 64 0x100000 ++ toBytes 8 0 ++ toBytes 8 1 ++ toBytes 8 1 ++ toBytes 8 1 ++ toBytes 8 1 ++ toBytes 8 (1 + 256) ++ toBytes 144 0
def packet (ty : Nat) : List Byte :=
  match ty with
  | 1 => toBytes 8 1 ++ toBytes 56 0x300000
  | 2 => toBytes 8 2 ++ toBytes 16 0x300000 ++ toBytes 16 0x310000 ++ toBytes 24 64
  | _ => toBytes 8 3 ++ toBytes 8 4 ++ toBytes 48 77
def fronted (ty : Nat) (code : Nat) : State :=
  let s := withP grp fun p => { p with packets := p.packets.put 1 queueAt, queues := p.queues.put 4 { cap := 64, items := [], waiters := [] } }
  { s with mem := Memory.writeN (Memory.writeN (Memory.writeN (Memory.writeN s.mem 0x4000 (toBytes 16 0x8000 ++ toBytes 4 16 ++ toBytes 4 16 ++ toBytes 8 1 ++ toBytes 8 0 ++ toBytes 16 0xA000))
      0x8000 (packet ty)) 0x300000 headerBytes) 0x300000 (toBytes 8 code) }
/-- The same with the header's line poisoned. -/
def frontBad : State := { fronted 1 0x100000 with poison := [0x300000 / 128] }
def balanced (s : State) : State := withP s fun p => { p with vdev := p.vdev.upd 0 fun v => { v with balance := 100 } }
def noBlocks (s : State) : State := { s with blocks := Table.empty, groups := Table.empty }
def freshLaunch : State := noBlocks (balanced (withL grp fun l => { l with nextBlock := 0 }))
def backBlock (life : BlockLife) : State := balanced (withB grp fun b => { b with life := life })

/-- The packet at the head of queue 1, of a type and in order, meets what is asked of its bytes. -/
def fronts (s : State) (ty : Nat) (p : List Byte → Bool) : Bool :=
  (s.packetAt 0 1).any fun x => fromBytes (x.2.2.2.take 1) == ty && packetOk x.2.2.2 && p x.2.2.2
def headerRead (s : State) (bs : List Byte) : FrontRead := (s.readHeader 0 (fromBytes ((bs.drop 8).take 16))).2
def goodHeader (r : FrontRead) : Bool := match r with | .bytes h => (headerOf h).toOption.isSome | _ => false
def admits (s : State) (h : Head) : Bool := (s.admission 0).any fun x => x.1 == h

/-- The packet with a reserved byte set, with a header address on a page that is not there, and with a full work queue. -/
def broken (ty : Nat) : State := { fronted ty 0x100000 with mem := Memory.writeN (fronted ty 0x100000).mem 0x8002 [1] }
def away : State := { fronted 1 0x100000 with mem := Memory.writeN (fronted 1 0x100000).mem 0x8008 (toBytes 16 0x4000000) }
def packed : State := withP (fronted 3 0) fun p => { p with queues := p.queues.put 4 { cap := 1, items := [5], waiters := [] } }
/-- A launch of a tile set, and the header of a plain one. -/
def freshSet : State := noBlocks (balanced (withL grp fun l => { l with nextBlock := 0, hdr := loadHeader (BitVec.ofNat 80 loadBase) true }))
def plainHeader : Header := loadHeader (BitVec.ofNat 80 loadBase) false
/-- A tile set of which everything is to be placed again. -/
def againSet : State := withSet (balanced (withB tseq fun b => { b with life := .queued })) fun ts => { ts with again := true }
def isBad (s : State) (ty : Nat) : Bool := (s.packetAt 0 1).any fun x => fromBytes (x.2.2.2.take 1) == ty && !packetOk x.2.2.2

theorem witness_FrontEndEvents_packets : (grp.packetAt 0 1).isNone = true
    ∧ (isBad (broken 1) 1 = true ∧ isBad (broken 2) 2 = true ∧ isBad (broken 3) 3 = true)
    ∧ fronts frontBad 1 (fun bs => headerRead frontBad bs == .refused .poison) = true
    ∧ fronts (fronted 1 1) 1 (fun bs => match headerRead (fronted 1 1) bs with | .bytes h => (headerOf h).toOption.isNone | _ => false) = true
    ∧ fronts (fronted 1 0x100000) 1 (fun bs => goodHeader (headerRead (fronted 1 0x100000) bs)) = true
    ∧ fronts away 1 (fun bs => match headerRead away bs with | .absent _ => true | _ => false) = true
    ∧ fronts (fronted 2 0) 2 (fun _ => true) = true
    ∧ fronts (fronted 3 0) 3 (fun bs => (((fronted 3 0).part 0).queues.get (fromBytes ((bs.drop 8).take 2))).any fun w => w.items.length < w.cap) = true
    ∧ fronts packed 3 (fun bs => ((packed.part 0).queues.get (fromBytes ((bs.drop 8).take 2))).any fun w => w.cap ≤ w.items.length) = true := by
  decide +kernel

/-- The packet at the head has its identifier yet to take, or has it. -/
theorem witness_FrontEndEvents_identifiers :
    ((((fronted 1 0x100000).packetAt 0 1).any fun x => x.1.ident.isNone && decide (((fronted 1 0x100000).part 0).packets.get 1 = some x.1)) = true ∧ ((fronted 1 0x100000).parts.get 0).isSome = true)
    ∧ ({ queueAt with ident := some 9 } : PacketQueue).ident = some 9 := by decide +kernel

theorem witness_FrontEndEvents_launches :
    ((grp.parts.get 0).isSome = true ∧ (grp.part 0).vdevs.getLsbD plainHeader.vdev = true
      ∧ (grp.updPart 0 fun x => { x with nextLaunch := if (grp.part 0).nextLaunch = 0xFFFFFFFE then 0 else (grp.part 0).nextLaunch + 1 }).couldFit
          (Launch.start plainHeader 0 (grp.part 0).nextLaunch true 1 0 false 0 grp.uid) = true)
    ∧ ((noBlocks grp).launches.get 1).any (fun l => !l.recorded && l.ended.isNone && (noBlocks grp).launchDone 1 l) = true
    ∧ ((withL grp fun l => { l with ended := some (5, 1) }).launches.get 1).any (fun l => !l.recorded && l.ended.isSome) = true
    ∧ (grp.launches.get 1).any (fun l => !l.recorded && l.ended.isNone && !grp.launchDone 1 l) = true
    ∧ (admits freshLaunch (.fresh 1) = true ∧ (freshLaunch.launches.get 1).any (fun l => l.hdr.tile == 0) = true)
    ∧ (admits freshSet (.fresh 1) = true ∧ (freshSet.launches.get 1).any (fun l => l.hdr.tile != 0) = true)
    ∧ (admits (backBlock .queued) (.restart 2) = true ∧ ((backBlock .queued).launchOf 2).isSome = true ∧ ((backBlock .queued).blocks.get 2).any (fun b => b.set.isNone) = true)
    ∧ (admits againSet (.restart 2) = true ∧ (againSet.launchOf 2).isSome = true ∧ (againSet.blocks.get 2).any (fun b => (b.set.bind againSet.sets.get).any fun ts => ts.again) = true)
    ∧ (admits (backBlock .saved) (.resume 2) = true ∧ ((backBlock .saved).launchOf 2).isSome = true ∧ ((backBlock .saved).blocks.get 2).any (fun b => b.set.isNone) = true) := by
  decide +kernel

/-- A job of group 3. -/
def jobOf (kind : JobKind) (vals : List Nat) (life : JobLife) (w : Option Window) (aux : List Nat) : Job :=
  { Job.card kind vals w w none [] [] with part := 0, group := 3, block := 2, flight := 9, life := life, aux := aux }
def jobbed (s : State) (j : Job) : State := { (withG s fun g => g.raise (Flight.plain 9 2 0 0)) with jobs := Table.empty.put 9 j }
/-- A copy within window 0 of 8 bytes; the same done in round 0; the oldest instruction a drain, a chain or a zeroing; and an xfetch that is undecided. -/
def copying : State := jobbed wins (jobOf .copy [0, 8, 64] .queued (some win0) [])
def copied : State := jobbed wins (jobOf .copy [0, 8, 64] (.performed 0) (some win0) [])
def drainCmd (op : Nat) : TileCmd := { TileCmd.mk' op 0 [0, 0, 0] [] none with pairing := some (0, 0, 0), flight := 9 }
def draining (op : Nat) : State := withSet (withG tiles fun g => g.raise (Flight.plain 9 3 0 0)) fun ts => { ts with queue := [drainCmd op] }
def fetching : State := jobbed (experts tiles) (jobOf .xfetch [0x200000, 64, 0, 4, 0x300000, 7, 1000] .queued none [0])

theorem witness_JobEvents :
    (∃ c, copying.groupCtx 3 = some c ∧ copying.running = true ∧ (copying.part 0).frozen = false ∧ (copying.jobs.get 9).any (fun j => copying.jobReady 9 j) = true ∧ c.g.block = 2
      ∧ (copying.blocks.get 2).any (fun b => (b.poisonIn win0.off 8).isNone) = true)
    ∧ ((copied.jobs.get 9).any (fun j => decide (j.life = .performed 0)) = true ∧ (copied.part 0).frozen = false ∧ (copied.groups.get 3).isSome = true)
    ∧ (∀ op ∈ [0xC5, 0xC9, 0xC8], ((draining op).groupCtx 3).any (fun c => !c.b.off && c.b.hold.isNone && ((draining op).sets.get 4).any fun ts => !ts.ended && (draining op).bufferReady 4 (drainCmd op)
      && ts.engines.all fun e => decide (e.results.length + drainSize 0 ≤ 32)) = true)
    ∧ ∃ x, fetching.openFetch 9 = some x ∧ (fetching.sets.get 4).isSome = true ∧ (fetching.parts.get 0).isSome = true ∧ x.1.vals.getD 6 0 ≠ 0 ∧ x.2.repeats = false
      ∧ (fetching.landed 9 x.1 x.2).isSome = true := by
  and_intros <;> first | exact some_of (by decide +kernel) | decide +kernel

/-! ### Witnesses: schedulers, configuration, gates -/

/-- A partition of 1 to 4 clusters from a number, lent to another or not. -/
def clustersOf (base limit : Nat) (p : Part) : Part := { p with enable := true, base := base, limit := limit }
def exhausted : State := withP grp fun p => { p with vdev := p.vdev.upd 0 fun v => { v with balance := -5 } }
def exhaustedJob : State := jobbed exhausted (jobOf .copy [0, 8, 64] (.performed 9) (some win0) [])
def handling : State := withB grp fun b => { b with life := .quiesced }
def paged : State := withP (withB grp fun b => { b with life := .waitPage, pages := [7] }) fun p =>
  { p with pageReqs := p.pageReqs.put 7 { seq := 7, va := 0x4000000, vdev := 0, access := 0, launch := 0, block := 0, posted := true } }
def frozenP : State := withP grp fun p => { p with frozen := true }
/-- Partition 0 may lend cluster 2 to partition 1; partition 0 has lent its only cluster and has a launch to admit. -/
def lender : State := (withP grp fun p => { (clustersOf 0 3 p) with lendOn := true, lendTo := 1 }).updPart 1 (clustersOf 10 10)
def lentTo1 (s : State) : State := (withP s fun p => { p with autoReclaim := true }).updPart 1 fun p => { (clustersOf 10 10 p) with lent := [0] }
def reclaiming : State := lentTo1 freshLaunch
/-- The same with group 3's block, the borrower's, on the cluster. -/
def borrowed : State := (lentTo1 (withL grp fun l => { l with part := 1 })).updPart 1 fun p => { p with vdev := (grp.part 0).vdev }

theorem witness_SchedulerEvents :
    (∃ b, exhausted.blocks.get 2 = some b ∧ b.preemptible = true ∧ b.hold = none ∧ b.set = none ∧ (exhausted.launchOf 2).any (fun l => exhausted.triggered 2 0 b l) = true
      ∧ exhausted.jobs.rows = [] ∧ exhausted.gateOps.rows = [] ∧ (exhausted.groups.rows.all fun r => decide (r.2.flights = [] ∧ r.2.life = .live)) = true)
    ∧ (∃ b, exhaustedJob.blocks.get 2 = some b ∧ b.preemptible = true ∧ b.hold = none ∧ b.set = none ∧ (exhaustedJob.launchOf 2).any (fun l => exhaustedJob.triggered 2 0 b l) = true
      ∧ (exhaustedJob.jobs.rows.any fun r => decide (r.2.block = 2 ∧ r.2.kind ≠ .coll ∧ r.2.life ≠ .queued)) = true ∧ exhaustedJob.jobs.wf = true)
    ∧ (∃ b, handling.blocks.get 2 = some b ∧ b.life = .quiesced ∧ (handling.launches.get b.launch).any (fun l => l.ended.isNone) = true)
    ∧ (∃ b, grp.blocks.get 2 = some b ∧ b.preemptible = true ∧ b.hold = none ∧ b.set = none)
    ∧ (∃ b, paged.blocks.get 2 = some b ∧ b.life = .waitPage ∧ b.pages = [7] ∧ ((paged.part 0).pageReqs.get 7).isSome = true ∧ paged.blocks.wf = true ∧ (paged.part 0).pageReqs.wf = true
      ∧ (paged.launches.get b.launch).any (fun l => l.part == 0) = true)
    ∧ (∃ c, (balanced grp).groupCtx 3 = some c ∧ (balanced grp).watchable c.g c.b c.l = true ∧ ((balanced grp).parts.get c.l.part).isSome = true
      ∧ ((balanced grp).part c.l.part).clusterFires.getD (c.g.core / 4) 0 + 1 < ((balanced grp).part c.l.part).wdCluster)
    ∧ (((balanced grp).parts.get 0).isSome = true ∧ ((balanced grp).part 0).frozen = false ∧ (balanced grp).anyHeld 0 = false ∧ (balanced grp).monitored 0 = true)
    ∧ (frozenP.part 0).frozen = true
    ∧ ((grp.part 0).vdevs.getLsbD 0 = true ∧ grp.active 0 0 = true ∧ ({ grp with launches := Table.empty } : State).active 0 0 = false)
    ∧ (∃ b, exhausted.blocks.get 2 = some b ∧ ((exhausted.part 0).vd 0).balance ≤ 0 ∧ (exhausted.launches.get b.launch).any (fun l => l.part == 0 && l.hdr.vdev == 0) = true)
    ∧ ((lender.part 0).lendOn = true ∧ (lender.part 0).owns 2 = true ∧ lender.lentAway 0 2 = false ∧ (lender.part 0).lendTo ≠ 0 ∧ (lender.part (lender.part 0).lendTo).enable = true
      ∧ lender.clusterBusy 2 = false ∧ lender.needs 0 2 = false)
    ∧ ((reclaiming.part 0).owns 0 = true ∧ reclaiming.lentAway 0 0 = true ∧ reclaiming.clusterBusy 0 = false)
    ∧ ((borrowed.part 0).owns 0 = true ∧ borrowed.lentAway 0 0 = true ∧ borrowed.clusterBusy 0 = true ∧ 0 ∈ (borrowed.part 1).lent)
    ∧ ((reclaiming.part 0).autoReclaim = true ∧ (∀ x, x < Config.clusters → ((reclaiming.part 0).owns x && reclaiming.lentAway 0 x) = decide (x = 0)) ∧ reclaiming.head 0 0 = some (.fresh 1)
      ∧ (∀ v ∈ [1, 2, 3, 4, 5, 6, 7], reclaiming.head 0 v = none) ∧ reclaiming.placeHead (.fresh 1) = none
      ∧ (((({ reclaiming with blocks := reclaiming.blocks.filter fun _ b => !(b.onCores && b.cores.any fun c => c / 4 == 0) } : State).unlend 0)).placeHead (.fresh 1)).isSome = true) := by
  and_intros <;> first | exact some_of (by decide +kernel) | decide +kernel

/-- Partition 0 without work, and a record for partition 2. -/
def idleP : State := { noBlocks grp with launches := Table.empty }
def conf2 : PartConfig :=
  { enable := true, base := 4, limit := 7, colours := 0xFFFF, vdevs := 1, lendOn := false, lendTo := 0, autoReclaim := false, weights := List.replicate 8 1, caps := List.replicate 8 100,
    boosts := List.replicate 8 0, ways := List.replicate 8 0xFFFF }
def conf2' : PartConfig := { conf2 with base := 4, colours := 1 }
def smaller : State := withP idleP fun p => { p with colours := 0xFF00 }
/-- A valid range of 64 MiB from 64 MiB, readable and writable; a valid region of the table at 10000; an expert of 64 bytes. -/
def range128 : BitVec 128 := BitVec.ofNat 128 (1 + 2 ^ 3 + 2 ^ 4 + 2 ^ 98 + 2 ^ 68)
def region128 : BitVec 128 := BitVec.ofNat 128 (1 + 3 * 2 ^ 3 + 32 * 2 ^ 9 + 0x10000 * 2 ^ 72)
def expert512 : BitVec 512 := BitVec.ofNat 512 (0x200000 + 64 * 2 ^ 96 + 0x300000 * 2 ^ 128 + 64 * 2 ^ 224 + 2 ^ 416)
/-- A ring descriptor at 4000: base 300000, 16 entries. -/
def ringed : State := { idleP with mem := Memory.writeN idleP.mem 0x4000 (toBytes 16 0x300000 ++ toBytes 4 16) }
def keyed : State := idleP

theorem witness_ConfigurationEvents :
    (confOk conf2' = true ∧ smaller.confFits 2 conf2' = true ∧ smaller.partBusy 2 = false ∧ (smaller.part 2).roundOpen = false)
    ∧ ((rangeOf range128).any (fun r => r.valid && r.inPlace && (idleP.part 0).rangeClear 3 r && idleP.rangeFits 0 r) = true ∧ (idleP.parts.get 0).isSome = true ∧ idleP.partBusy 0 = false ∧ (idleP.part 0).roundOpen = false)
    ∧ (regionOf region128).isSome = true
    ∧ (mem2.drained 0 0 none = true ∧ ((mem2.part 0).vd 0).written.wf = true)
    ∧ (ringSize ((fronted 1 0).queueField queueAt 0x10 4) = true ∧ ringSize ((fronted 1 0).queueField queueAt 0x14 4) = true ∧ (fronted 1 0).queueField queueAt 0 16 < 2 ^ 80
      ∧ (fronted 1 0).queueField queueAt 0 16 % (64 * (fronted 1 0).queueField queueAt 0x10 4) = 0 ∧ (fronted 1 0).queueField queueAt 0x28 16 < 2 ^ 80
      ∧ (fronted 1 0).queueField queueAt 0x28 16 % (16 * (fronted 1 0).queueField queueAt 0x14 4) = 0 ∧ (fronted 1 0).queueField queueAt 0x40 64 = 0 ∧ isDevice 0x4000 = true ∧ ((fronted 1 0).part 0).enable = true)
    ∧ (expertOf expert512 ((idleP.part 0).expert 4095)).any (fun x => x.valid && (idleP.part 0).deviceResident x.fallback.toNat) = true
    ∧ ((∃ e ∈ (idleP.part 0).rangesOver 0, e.kind = 0) ∧ ∃ e ∈ (idleP.part 0).rangesOver (0 + 2 ^ 26 - 1), e.kind = 0)
    ∧ (ringed.ringAt 0x4000).isSome = true ∧ (ringed.parts.get 0).isSome = true ∧ (ringed.part 0).enable = true ∧ (State.reset.part 15).enable = false
    ∧ ((idleP.part 0).enable = true ∧ (idleP.part 0).vdevs.getLsbD 0 = true ∧ idleP.keys.wf = true) := by decide +kernel

theorem witness_HostAndPeerEvents :
    (∀ a ∈ [0x200000, 0x200078], ([1, 2, 3, 4, 5, 6, 7, 8] : List Byte) ≠ [] ∧ a % 128 + 8 ≤ 128 ∧ isDevice a = true ∧ isDevice (a + 8 - 1) = true ∧ grp.codeProtected a = false ∧ grp.holders a = [0])
    ∧ (grp.holders 0x8000000 = [] ∧ isDevice 0x8000000 = true ∧ isDevice (0x8000000 + 8 - 1) = true ∧ grp.codeProtected 0x8000000 = false)
    ∧ (isHost hostBase = true ∧ isHost (hostBase + 8 - 1) = true)
    ∧ (aopOk 0 0 .b64 = true ∧ aopOk 0 0 .b32 = true ∧ grp.poison.contains (0x8000000 / 128) = false ∧ grp.mem.wf = true) := by decide +kernel

/-- A gate of owner 0 without a rate that partition 0 may signal and wait on, and one with a rate; an operation of group 3 on it. -/
def gate0 : Gate := { payload := 0, deferred := 0, level := 0, stamp := 0, seq := 0, value := 5, acl := 0, rate := 0, depth := 0, frozen := false, owner := 0, queue := [] }
def gates (g : Gate) (op operand : Nat) : State :=
  { withPend grp (.gate 9) with gates := Table.empty.put 7 g, gateOps := Table.empty.put 9 { gate := 7, group := 3, frag := 0, part := 0, ident := 0, op := op, func := 0, operand := operand, payload := 0, seen := false } }
def oneGate (g : Gate) : State := { grp with gates := Table.empty.put 7 g }

theorem witness_GateEvents :
    ((gateOf 0).isSome = true ∧ grp.gates.get 7 = none ∧ aclOk 0x9A gate0.owner = true)
    ∧ (∀ g ∈ [gate0, { gate0 with frozen := true }], (oneGate g).gates.get 7 = some g ∧ g.queue = [] ∧ (oneGate g).gateOps.rows = [] ∧ (oneGate g).gates.wf = true)
    ∧ (∀ x ∈ [(0xE8, 3), (0xE9, 4), (0xEA, 4)], ((gates gate0 x.1 x.2).gateOps.get 9).any (fun o => decide (gate0.allows o = true ∧ o.op = x.1 ∧ (x.1 ≠ 0xE8 → passed gate0.value o.operand = true)))
      && ((gates gate0 x.1 x.2).groups.get 3).any (fun u => (u.frags.get 0).any fun f => decide (f.pend = .gate 9))
      && (gates gate0 x.1 x.2).launches.rows.all fun r => !(r.2.hdr.prereqs.any fun p => p.kind == 2 && !p.held)) = true := by decide +kernel

/-! ### Witnesses: the kiln, errors, the device, membership, the debugger -/

/-- A check whose shadow or keeping run is pending, or whose two runs have closed. -/
def closedRun : SegRun := { SegRun.idle with life := .closed, cores := [0] }
def check0 (runs : Table SegRun) : Check := { Check.start 1 0 0 2 [0] with runs := runs }
def checked (runs : Table SegRun) : State := { noBlocks (balanced grp) with checks := Table.empty.put (checkKey 5 0) (check0 runs) }
def pendingRun (kind : Nat) : State := checked ((Table.empty.put 1 closedRun).put kind { SegRun.idle with life := .pending })
def sumsOf (n : BitVec 64) : Sums := { store := n, stores := 0, reg := 0, regs := 0 }
def decidable (n : Nat) : State := checked ((Table.empty.put 1 closedRun).put 2 { closedRun with cores := [1], sums := Table.empty.put 0 (sumsOf (BitVec.ofNat 64 n)) })
/-- Core 0 under test with every other core of cluster 0 aside, and a launch of priority 12 for the partition on that cluster. -/
def testing (s : State) : State :=
  let out := { CoreRec.reset with aside := true }
  { s with coreRecs := (((Table.empty.put 0 { CoreRec.reset with testing := true }).put 1 out).put 2 out).put 3 out }
def aborting : State := testing (withL freshLaunch fun l => { l with hdr := { l.hdr with priority := 12 } })

theorem witness_KilnEvents :
    (∀ k ∈ [2, 3, 4], admits (pendingRun k) (.run (checkKey 5 0) k) = true ∧ ((pendingRun k).checks.get (checkKey 5 0)).isSome = true ∧ ((pendingRun k).launches.get 1).any (fun l => l.hdr.tile == 0) = true)
    ∧ (∀ n ∈ [0, 1], ((decidable n).checks.get (checkKey 5 0)).any (fun ch => !ch.decided && (ch.run 1).over && (ch.run 2).over && decide ((ch.run 3).life = .none) && (ch.runs.get 4).isNone
      && ((ch.run 1).agrees (ch.run 2) == (n == 0)) && ((decidable n).launches.get 1).any fun l => l.ended.isNone && !(decidable n).cannotCheck ch l) = true)
    ∧ (grp.running = true ∧ ((List.range 80).all fun i => !(grp.core (80 * 3 + i)).testing) = true ∧ ((grp.rotationOrder 3).find? fun c => (grp.core c).good).isSome = true)
    ∧ (aborting.underTest 0 = true ∧ aborting.suspects.length < 64)
    ∧ ((aborting.core 0).targeted = false ∧ (aborting.parts.get 0).isSome = true ∧ aborting.head 0 0 = some (.fresh 1) ∧ (aborting.launches.get 1).any (fun l => aborting.abortPrio ≤ l.hdr.priority) = true
      ∧ aborting.placeHead (.fresh 1) = none
      ∧ ((aborting.updCore 0 fun r => { r with testing := false, aborted := min (r.aborted + 1) 255 }).placeHead (.fresh 1)).isSome = true) := by decide +kernel

/-- A test that an error has brought on a bank: a slice's, a core store's. -/
def banked (unit : Nat) : State := { grp with bankTests := [(319, unit)] }

theorem witness_SiliconEvents : ((banked 2).bankTests.find? fun x => x.1 == 319 && bankTakes x.2 true) = some (319, 2)
    ∧ ((banked 0).bankTests.find? fun x => x.1 == 319 && bankTakes x.2 false) = some (319, 0) ∧ ((banked 2).core 319).slice = true ∧ (319 : Nat) < Config.cores ∧ (grp.groups.get 3).isSome = true ∧ (127 : Nat) < 128 ∧ (17 : Nat) ≤ 17 := by decide +kernel

/-- A device with nothing under way that may sleep; one that sleeps; one in maintenance; a suspect interval. -/
def quiet : State := { State.reset with tolerance := 50 }
def sleeping : State := { quiet with dev := .power 2 }
def tended : State := { State.reset with dev := .maintenance }
def suspected : State := { State.reset with suspects := [{ core := 1, from_ := 0, at_ := 0, segs := [] }] }

theorem witness_DeviceEvents : ((suspected.suspects[0]?).isSome = true ∧ suspected.suspects[1]? = none ∧ (grp.part 0).enable = true ∧ (State.reset.part 0).enable = false
      ∧ State.reset.dev ≠ .maintenance ∧ tended.dev = .maintenance ∧ (∀ r ∈ State.reset.parts.rows, r.2.enable = false) ∧ grp.dev ≠ .maintenance ∧ ∃ r ∈ grp.parts.rows, r.2.enable = true)
    ∧ (quiet.dev = .ready ∧ quiet.idle = true ∧ quiet.lowest ≠ 0 ∧ sleeping.dev = .power 2 ∧ State.reset.startFails = 0 ∧ State.reset.dev ≠ .off) :=
  ⟨by decide +kernel, by decide +kernel⟩

/-- What a cold start, and a warm one, of the reset state needs: its table keeps what starts leave, and its calibration has its checksum. -/
theorem witness_DeviceEvents_starts : (configKeeps State.reset.config State.reset.serial && Config.configVerifies State.reset.config) = Config.configVerifies State.reset.config
    ∧ State.reset.calibSum = Config.calibrationSum State.reset.calib :=
  ⟨by rw [show configKeeps State.reset.config State.reset.serial = true by decide +kernel, Bool.true_and], rfl⟩

/-- Group 7 as its parts need it: with a join or a proposal under way, a third member, an operation whose choices are due, and a completed job. -/
def coll5 : CollGroup := { coll7 with members := 0x1C }
def digested : CollGroup := { coll7 with digest := some 9 }
def opened : CollGroup := { coll7 with ops := Table.empty.put 3 { collOp 0 with card := [1] } }
def performedColl : State :=
  { (withG (colls coll7) fun g => g.raise (Flight.plain 9 2 0 0)) with
    jobs := Table.empty.put 9 { jobOf .coll [0x200000, 16, 0x300000, 0, 0, 0, 0, 0, 0, 2, 4] (.performed 0) (some win0) [7, 3, 1, 0, 1, 2, 3, 4] with group := 3 } }

/-- One whose operation is in flight; an acknowledged and a replaced proposal; an operation past its choices. -/
def busyColl : State := { performedColl with jobs := performedColl.jobs.upd 9 fun j => { j with life := .performed 5 } }
def acked5 : CollGroup := { coll5 with acked := some (2, 0x14) }
def proposed5 : CollGroup := { coll5 with proposed := some 0x14, acks := slotBit 2 }
def chosen7 : CollGroup := { coll7 with ops := Table.empty.put 2 { collOp 50 with deciding := false } }

theorem witness_MembershipEvents_views :
    (grp.colls.rows.length < 64 ∧ (7 : Nat) < 65536 ∧ (255 : Nat) < 256 ∧ (15 : Nat) < 16)
    ∧ (member.colls.get 7 = some coll7 ∧ coll7.view < 6 ∧ coll7.member = true ∧ coll7.members.getLsbD 3 = true ∧ coll7.heard.getLsbD 3 = true ∧ member.deep = false)
    ∧ (({ coll7 with member := false } : CollGroup).joining = false ∧ (0xC : BitVec 256).getLsbD coll7.slot = true)
    ∧ (3 ≠ coll7.slot ∧ coll7.suspects.getLsbD 3 = false ∧ coll7.pending = none ∧ coll7.proposed = none ∧ coll7.joiner = none)
    ∧ (lowSlot (coll5.members &&& ~~~(coll5.suspects ||| slotBit 3)) = coll5.slot ∧ quorum coll5.members (coll5.members &&& ~~~(coll5.suspects ||| slotBit 3)) = true
      ∧ coll5.view + 1 < 2 ^ 32 ∧ coll5.members &&& ~~~(coll5.suspects ||| slotBit 3) &&& ~~~slotBit coll5.slot ≠ 0)
    ∧ (lowSlot (({ coll5 with slot := 4 } : CollGroup).members &&& ~~~slotBit 3) ≠ 4)
    ∧ (let g := { coll5 with members := 0x7C }; lowSlot (g.members &&& ~~~(slotBit 4 ||| slotBit 5 ||| slotBit 6)) = 2 ∧ quorum g.members (g.members &&& ~~~(slotBit 4 ||| slotBit 5 ||| slotBit 6)) = false)
    ∧ ((0x14 : BitVec 256).getLsbD coll5.slot = true ∧ quorum coll5.members 0x14 = true ∧ (0x14 : BitVec 256) &&& ~~~coll5.members = 0 ∧ coll5.mayAck 2 0x14 = true)
    ∧ ((0x21C : BitVec 256).getLsbD coll5.slot = true ∧ quorum coll5.members 0x21C = true ∧ (0x21C : BitVec 256) &&& ~~~coll5.members ≠ 0
      ∧ member.collBusy 7 coll5 = false ∧ busyColl.collBusy 7 coll7 = true)
    ∧ (acked5.mayAck 3 0x14 = false ∧ ({ coll5 with replaced := true } : CollGroup).replaced = true)
    ∧ (proposed5.proposed = some 0x14 ∧ proposed5.replaced = false ∧ (0x14 : BitVec 256).getLsbD proposed5.slot = true
      ∧ (0x14 : BitVec 256) &&& ~~~(proposed5.acks ||| slotBit 4) = 0 ∧ (0x14 : BitVec 256) &&& ~~~(proposed5.acks ||| slotBit 2) ≠ 0)
    ∧ (let g := { acked5 with slot := 4 }; g.acked.isSome = true ∧ lowSlot (g.members &&& ~~~g.suspects) ≠ g.slot)
    ∧ (lowSlot coll7.members = coll7.slot ∧ coll7.members.getLsbD 9 = false ∧ coll7.digest ≠ some 9 ∧ digested.digest = some 9 ∧ digested.suspects = 0 ∧ member.collBusy 7 digested = false
      ∧ digested.joiner = none ∧ digested.proposed = none ∧ digested.acked = none) := by decide +kernel

theorem witness_MembershipEvents_operations :
    (opened.ops.get 3).any (fun o => o.card == [1] && o.ended.isNone && o.deciding && (slotsOf opened.members).any fun k => ((o.choices.put 2 1).get k).isNone) = true
    ∧ (coll7.ops.get 3 = none ∧ coll7.opNum ≤ 3 ∧ opened.members ≠ 0 ∧ opened.ops.wf = true ∧ opened.pending = none ∧ member.jobs = Table.empty ∧ 4 ≠ coll7.view)
    ∧ (opened.ops.get 3).any (fun o => o.card != [] && o.card != [2] && (member.jobs.get o.job).isNone) = true
    ∧ (chosen7.ops.get 2).any (fun o => !o.deciding && o.job != 0 && o.choices.rows.isEmpty) = true
    ∧ (performedColl.jobs.get 9).any (fun j => decide (j.kind = .coll ∧ j.life = .performed 0) && (performedColl.groups.get j.group).isSome && !(performedColl.part j.part).frozen
        && !performedColl.collAway j && (j.dst.any fun w => !w.mapped)
        && (performedColl.colls.get (j.aux.getD 0 0)).any fun g => g.pending.isNone) = true := by decide +kernel

/-- A debugger that may stop, and a block it holds; a key and a virtual device to dump. -/
def heldB : State := withB debugged fun b => { b with hold := some { cause := 2, bp := 0, code := 0, step := none } }
def dumpable : State := { noBlocks grp with keys := Table.empty.put 0 5 }
def dumping : State := withP { (withB grp fun b => { b with hold := some { cause := 4, bp := 0, code := 0, step := none } }) with keys := Table.empty.put 0 5 } fun p => { p with dumping := some (0, hostBase, [1, 2, 3]) }

theorem witness_DebugEvents :
    ((grp.parts.get 0).isSome = true ∧ (grp.part 0).debugger = none ∧ (debugged.part 0).debugger.isSome = true ∧ debugged.stops 0 = true ∧ (grp.part 0).bps.wf = true ∧ ringOk 0x10000 64 = true
      ∧ isDevice 0x200000 = true ∧ isHost hostBase = true ∧ ((debugged.part 0).vdev.get 0).isSome = true)
    ∧ (debugged.blocks.get 2).any (fun b => debugged.holdable b && b.set.isNone && b.index == 0 && (debugged.launches.get b.launch).any fun l => l.part == 0 && l.ident == 0) = true
    ∧ ((heldB.heldBlock 0 0 0).any (fun x => x.1 == 2 && x.2.set.isNone && x.2.run == 0) = true ∧ heldB.blocks.wf = true ∧ heldB.groups.wf = true)
    ∧ ((heldB.groupAt 2 0).any (fun x => x.1 == 3 && (x.2.fragOfLowest x.2.liveLanes).any fun k => (x.2.frags.get k).isSome) = true)
    ∧ (dumpable.keys.get 0 = some 5 ∧ (dumpable.part 0).vdevs.getLsbD 0 = true ∧ (dumpable.part 0).dumping = none ∧ dumpable.dumpCounts.getD 0 0 < 2 ^ 64 - 1)
    ∧ (let held := (dumpable.dumpBlocks 0 0).foldl (fun s x => s.holdBlock x.1 4 0 0 0) dumpable
      let bs := held.dumpStream 0 0 (held.ownedGates 0)
      isHost (hostBase + (bs.length + (bs.length + 65535) / 65536 * 48) - 1) = true)
    ∧ ((dumping.part 0).dumping = some (0, hostBase, [1, 2, 3]) ∧ (dumping.blocks.get 2).any (fun b => (b.hold.any fun h => h.cause == 4) && dumping.ofDevice 0 0 b && b.set.isNone) = true) := by decide +kernel

/-! ### Words written out from the encodings

Every instruction once: the opcode of 02 R51 in bits 63:56, the guard of R37 in 55:51, the format in 50:48, and below them the fields of R43 (format A: dst 47:37, a 36:26, b 25:15, modifiers 14:9, type 8:4, rounding 3:1, saturation 0; B: c 14:4, func 3:0; C: func 25:22, imm22; D: func 36:32, imm32; E: data 47:37, base 36:29, offset register 28:18, imm12 17:6, scope 5:3, size 2:0; F: offset 47:16, cond; G: x 47:37, y 36:26, handle 25:16, func). Vector register n is n in an operand field, scalar register n is 1024 + n. The tile words are those of a sequencer. -/

/-- Each word, the last of its block, decodes to its instruction, and the encoder gives the word back. -/
def reads (seq : Bool) (ws : List (Nat × Instr)) : Bool :=
  ws.all fun x => (match decodeWord seq true (BitVec.ofNat 64 x.1) with | .ok i => i == x.2 | .error _ => false) && encode x.2 == BitVec.ofNat 64 x.1

def words_integer : List (Nat × Instr) := [
  (0x020000C02A143001, .add { fA .s32 (.v 6) (.v 10) (.k 40) with modA := .swh, sat := true }),
  (0x02CA00C0287FFFFB, .addImm { fC (.v 6) (.v 10) 1 0x3FFFFB with g := { neg := true, mask := 9 } }),
  (0x030000C032140090, .sub (fA .n64 (.v 6) (.v 12) (.k 40))),
  (0x030200C028800007, .subImm (fC (.v 6) (.v 10) 2 0x7)),
  (0x040000C032140090, .addc (fA .n64 (.v 6) (.v 12) (.k 40))),
  (0x050000C02A140010, .subb (fA .n32 (.v 6) (.v 10) (.k 40))),
  (0x061800C02A140000, .mul { fA .s32 (.v 6) (.v 10) (.k 40) with g := { neg := false, mask := 3 } }),
  (0x060200C0283FFFFB, .mulImm (fC (.v 6) (.v 10) 0 0x3FFFFB)),
  (0x070000C02A140010, .mulh (fA .n32 (.v 6) (.v 10) (.k 40))),
  (0x080000C02A140000, .mulw (fA .s32 (.v 6) (.v 10) (.k 40))),
  (0x090100C02A140033, .mad (fB (.v 6) (.v 10) (.k 40) (.v 3) 3)),
  (0x0A0100C02A140081, .madw (fB (.v 6) (.v 10) (.k 40) (.v 8) 1)),
  (0x0B0000C032140080, .div (fA .s64 (.v 6) (.v 12) (.k 40))),
  (0x0B0200C028400009, .divImm (fC (.v 6) (.v 10) 1 0x9)),
  (0x0C0000C02A140010, .rem (fA .n32 (.v 6) (.v 10) (.k 40))),
  (0x0C0200C028400009, .remImm (fC (.v 6) (.v 10) 1 0x9)),
  (0x0D0000C028000171, .neg { fA .s8x4 (.v 6) (.v 10) (.v 0) with sat := true }),
  (0x0E0000C028000000, .abs (fA .s32 (.v 6) (.v 10) (.v 0))),
  (0x0F0000C02A140160, .min (fA .n8x4 (.v 6) (.v 10) (.k 40))),
  (0x0F0200C0287FFFFB, .minImm (fC (.v 6) (.v 10) 1 0x3FFFFB)),
  (0x100000C02A140000, .max (fA .s32 (.v 6) (.v 10) (.k 40))),
  (0x100200C0283FFFFB, .maxImm (fC (.v 6) (.v 10) 0 0x3FFFFB))]

def words_bits : List (Nat × Instr) := [
  (0x110000C032140120, .and (fA .b64 (.v 6) (.v 12) (.k 40))),
  (0x110200C0282AAAAA, .andImm (fC (.v 6) (.v 10) 0 0x2AAAAA)),
  (0x120000C02A140110, .or (fA .b32 (.v 6) (.v 10) (.k 40))),
  (0x120200C028000001, .orImm (fC (.v 6) (.v 10) 0 0x1)),
  (0x130000C02A140910, .xor { fA .b32 (.v 6) (.v 10) (.k 40) with modB := .rev }),
  (0x130200C028000002, .xorImm (fC (.v 6) (.v 10) 0 0x2)),
  (0x140000C028000110, .not (fA .b32 (.v 6) (.v 10) (.v 0))),
  (0x150000C02A140110, .andn (fA .b32 (.v 6) (.v 10) (.k 40))),
  (0x160000C032148120, .shl (fA .b64 (.v 6) (.v 12) (.k 41))),
  (0x160200C02800001F, .shlImm (fC (.v 6) (.v 10) 0 0x1F)),
  (0x170000C032148120, .shr (fA .b64 (.v 6) (.v 12) (.k 41))),
  (0x170200C02800001F, .shrImm (fC (.v 6) (.v 10) 0 0x1F)),
  (0x180000C032148120, .sra (fA .b64 (.v 6) (.v 12) (.k 41))),
  (0x180200C02800001F, .sraImm (fC (.v 6) (.v 10) 0 0x1F)),
  (0x190000C032148120, .rotl (fA .b64 (.v 6) (.v 12) (.k 41))),
  (0x190200C02800001F, .rotlImm (fC (.v 6) (.v 10) 0 0x1F)),
  (0x1A0000C032148120, .rotr (fA .b64 (.v 6) (.v 12) (.k 41))),
  (0x1A0200C02800001F, .rotrImm (fC (.v 6) (.v 10) 0 0x1F)),
  (0x1B0000C028000110, .clz (fA .b32 (.v 6) (.v 10) (.v 0))),
  (0x1C0000C030000120, .popc (fA .b64 (.v 6) (.v 12) (.v 0))),
  (0x1D0000C028000110, .brev (fA .b32 (.v 6) (.v 10) (.v 0))),
  (0x1E0100C02A140031, .bfx (fB (.v 6) (.v 10) (.k 40) (.v 3) 1)),
  (0x1E0200C028400805, .bfxImm (fC (.v 6) (.v 10) 1 0x805)),
  (0x1F0100C02A140030, .bfi (fB (.v 6) (.v 10) (.k 40) (.v 3) 0)),
  (0x1F0200C028000805, .bfiImm (fC (.v 6) (.v 10) 0 0x805))]

def words_integer2 : List (Nat × Instr) := [
  (0x200100C02A140030, .sel (fB (.v 6) (.v 10) (.k 40) (.v 3) 0)),
  (0x2100008032140090, .cmp (fA .n64 (.v 4) (.v 12) (.k 40))),
  (0x2102008028400064, .cmpImm (fC (.v 4) (.v 10) 1 0x64)),
  (0x2204828050240143, .lea { fE (.k 20) .b64 0x5 with off := .k 9 }),
  (0x2300829042140080, .addw (fA .s64 (.k 20) (.k 16) (.k 40))),
  (0x23028290403FFFFB, .addwImm (fC (.k 20) (.k 16) 0 0x3FFFFB)),
  (0x2400011030000130, .mov (fA .b128 (.v 8) (.k 12) (.v 0))),
  (0x2402806000400010, .movImm (fC (.k 3) (.v 0) 1 0x10)),
  (0x250300C0DEADBEEF, .movi (fD (.v 6) 0 0xDEADBEEF)),
  (0x2602807014400014, .movx (fC (.k 3) (.k 5) 1 0x14)),
  (0x2702007014000014, .movy (fC (.v 3) (.k 5) 0 0x14)),
  (0x280100C02A140036, .dot4 (fB (.v 6) (.v 10) (.k 40) (.v 3) 6)),
  (0x290100C02A140031, .sad (fB (.v 6) (.v 10) (.k 40) (.v 3) 1)),
  (0x2A0200D014000004, .iota (fC (.v 6) (.k 5) 0 0x4))]

def words_float : List (Nat × Instr) := [
  (0x309800E0321400A2, .fadd { fA .f32 (.v 7) (.v 12) (.k 40) with g := { neg := true, mask := 3 }, rnd := .rtz }),
  (0x310000C02A140151, .fsub { fA .bf16x2 (.v 6) (.v 10) (.k 40) with sat := true }),
  (0x320000C02A140148, .fmul { fA .f16x2 (.v 6) (.v 10) (.k 40) with rnd := .rna }),
  (0x330100C02A14003E, .fma (fB (.v 6) (.v 10) (.k 40) (.v 3) 14)),
  (0x340100C02A140039, .fnma (fB (.v 6) (.v 10) (.k 40) (.v 3) 9)),
  (0x350000C02A1400A0, .fmin (fA .f32 (.v 6) (.v 10) (.k 40))),
  (0x360000C02A1400A0, .fmax (fA .f32 (.v 6) (.v 10) (.k 40))),
  (0x370000C02A140140, .fminm (fA .f16x2 (.v 6) (.v 10) (.k 40))),
  (0x380000C02A1400A0, .fmaxm (fA .f32 (.v 6) (.v 10) (.k 40))),
  (0x390000C0280000A0, .fabs (fA .f32 (.v 6) (.v 10) (.v 0))),
  (0x3A0000C028000150, .fneg (fA .bf16x2 (.v 6) (.v 10) (.v 0))),
  (0x3B0001C02A1400B0, .fcmp (fA .f16 (.v 14) (.v 10) (.k 40))),
  (0x3C0000C0280000A0, .frcp (fA .f32 (.v 6) (.v 10) (.v 0))),
  (0x3D0000C0280000A0, .frsq (fA .f32 (.v 6) (.v 10) (.v 0))),
  (0x3E0000C0280000A4, .fsqrt { fA .f32 (.v 6) (.v 10) (.v 0) with rnd := .rup }),
  (0x3F0000C0280000A0, .fexp2 (fA .f32 (.v 6) (.v 10) (.v 0))),
  (0x400000C0280000A0, .flog2 (fA .f32 (.v 6) (.v 10) (.v 0))),
  (0x410000C0280000A0, .fsinpi (fA .f32 (.v 6) (.v 10) (.v 0))),
  (0x420000C0280000A0, .fcospi (fA .f32 (.v 6) (.v 10) (.v 0))),
  (0x430000C0280000A0, .ftanh (fA .f32 (.v 6) (.v 10) (.v 0))),
  (0x440000C0280000A0, .fsigm (fA .f32 (.v 6) (.v 10) (.v 0))),
  (0x450000C0280000A0, .ffrac (fA .f32 (.v 6) (.v 10) (.v 0))),
  (0x460000C0280000A6, .fround { fA .f32 (.v 6) (.v 10) (.v 0) with rnd := .rdn }),
  (0x470000C028000140, .fclass (fA .f16x2 (.v 6) (.v 10) (.v 0))),
  (0x480000C02A1400A1, .fldexp { fA .f32 (.v 6) (.v 10) (.k 40) with sat := true }),
  (0x480200C02A7FFFFB, .fldexpImm (fC (.v 6) (.v 10) 9 0x3FFFFB)),
  (0x490000C0280000A0, .ffrexp (fA .f32 (.v 6) (.v 10) (.v 0))),
  (0x4A0100C02A14003D, .fdot2 (fB (.v 6) (.v 10) (.k 40) (.v 3) 13))]

def words_convert : List (Nat × Instr) := [
  (0x500000C028000083, .cvt { fA .s64 (.v 6) (.v 10) (.v 0) with rnd := .rtz, sat := true }),
  (0x510000C0280000CA, .cvti { fA .bf16 (.v 6) (.v 10) (.v 0) with rnd := .sr }),
  (0x520000C02A1400DB, .pack { fA .e4m3 (.v 6) (.v 10) (.k 40) with rnd := .sr, sat := true }),
  (0x530000C028000070, .unpack (fA .n4 (.v 6) (.v 10) (.v 0))),
  (0x530200C02A400007, .unpackElement (fC (.v 6) (.v 10) 9 0x7)),
  (0x540101002802003D, .dq (fB (.v 8) (.v 10) (.v 4) (.v 3) 13)),
  (0x550100C02002003D, .qz (fB (.v 6) (.v 8) (.v 4) (.v 3) 13)),
  (0x560000101C000110, .srseed (fA .b32 (.v 0) (.k 7) (.v 0))),
  (0x5602000000155555, .srseedImm (fC (.v 0) (.v 0) 0 0x155555)),
  (0x570080E000000110, .srread (fA .b32 (.k 7) (.v 0) (.v 0)))]

def words_permute : List (Nat × Instr) := [
  (0x600000C02A140110, .perm (fA .b32 (.v 6) (.v 10) (.k 40))),
  (0x600100C02A140030, .permBytes (fB (.v 6) (.v 10) (.k 40) (.v 3) 0)),
  (0x610000C02A140110, .bcast (fA .b32 (.v 6) (.v 10) (.k 40))),
  (0x610200C02800007F, .bcastImm (fC (.v 6) (.v 10) 0 0x7F)),
  (0x620000C02A140110, .lshift (fA .b32 (.v 6) (.v 10) (.k 40))),
  (0x620200C0283FFFFB, .lshiftImm (fC (.v 6) (.v 10) 0 0x3FFFFB)),
  (0x630000C02A140110, .bshift (fA .b32 (.v 6) (.v 10) (.k 40))),
  (0x6302004004000001, .bshiftImm (fC (.v 2) (.v 1) 0 0x1)),
  (0x640000600A0860F0, .tlk { fA .b8 (.v 3) (.v 2) (.k 16) with modA := .swn }),
  (0x650100C02A140030, .bsel (fB (.v 6) (.v 10) (.k 40) (.v 3) 0)),
  (0x660081000C000130, .vote (fA .b128 (.k 8) (.v 3) (.v 0))),
  (0x670000C00C000010, .mpop (fA .n32 (.v 6) (.v 3) (.v 0))),
  (0x680080C00C000010, .mfirst (fA .n32 (.k 6) (.v 3) (.v 0))),
  (0x6900008008078130, .mand (fA .b128 (.v 4) (.v 2) (.v 15))),
  (0x6A00008000078130, .mor (fA .b128 (.v 4) (.v 0) (.v 15))),
  (0x6B00008008078130, .mxor (fA .b128 (.v 4) (.v 2) (.v 15))),
  (0x6C00008008000130, .mnot (fA .b128 (.v 4) (.v 2) (.v 0))),
  (0x6D0000C02A140010, .scan (fA .n32 (.v 6) (.v 10) (.k 40))),
  (0x6E0080C02A1400A4, .reduce { fA .f32 (.k 6) (.v 10) (.k 40) with rnd := .rup }),
  (0x6F0000C028000110, .rank (fA .b32 (.v 6) (.v 10) (.v 0)))]

def words_control : List (Nat × Instr) := [
  (0x701DFFFFFFFA0001, .br { fF 0xFFFFFFFA 0x1 with g := { neg := false, mask := 3 } }),
  (0x710500000009004C, .bru (fF 0x9 0x4C)),
  (0x7205800000000000, .jmp (fF 0x80000000 0x0)),
  (0x730500000005FF00, .call (fF 0x5 0xFF00)),
  (0x74069F8000000000, .ret (fG (.k 252) (.v 0) 0 0x0)),
  (0x7500001022068000, .brx (fA .s32 (.v 0) (.k 8) (.k 13))),
  (0x7696000000000000, .exit { fG (.v 0) (.v 0) 0 0x0 with g := { neg := true, mask := 2 } }),
  (0x7706000000000000, .yield (fG (.v 0) (.v 0) 0 0x0)),
  (0x780200101C400000, .sleep (fC (.v 0) (.k 7) 1 0x0)),
  (0x7906000000000000, .nop (fG (.v 0) (.v 0) 0 0x0)),
  (0x7A02000000000001, .trap (fC (.v 0) (.v 0) 0 0x1)),
  (0x7B06000000000001, .tret (fG (.v 0) (.v 0) 0 0x1)),
  (0x7C06000000000000, .pdone (fG (.v 0) (.v 0) 0 0x0)),
  (0x7D06000000000000, .rmark (fG (.v 0) (.v 0) 0 0x0)),
  (0x7E068290241F0001, .deq (fG (.k 20) (.k 9) 31 0x1)),
  (0x7F068130501F0001, .enq (fG (.k 9) (.k 20) 31 0x1))]

def words_memory : List (Nat × Instr) := [
  (0x800400805027FFC4, .ld { fE (.v 4) .b128 0xFFF with off := .k 9 }),
  (0x810400805FFC00C0, .st (fE (.v 4) .b8 0x3)),
  (0x8204008040260001, .ldu { fE (.v 4) .b16 0x800 with off := .v 9 }),
  (0x8304009FE025FFC3, .stu { fE (.v 4) .b64 0x7FF with base := 255, off := .v 9 }),
  (0x84060080240FFFF2, .ldw (fG (.v 4) (.v 9) 15 0xFFF2)),
  (0x8506008024000013, .stw (fG (.v 4) (.v 9) 0 0x13)),
  (0x860600802403FFF8, .ldf (fG (.v 4) (.v 9) 3 0xFFF8)),
  (0x874601C01C02FF80, .ste { fG (.v 14) (.v 7) 2 0xFF80 with g := { neg := false, mask := 8 } }),
  (0x8806809014020001, .fefill (fG (.k 4) (.k 5) 2 0x1)),
  (0x8906809014020000, .feget (fG (.k 4) (.k 5) 2 0x0)),
  (0x8A068100000F0000, .setw (fG (.k 8) (.v 0) 15 0x0)),
  (0x8B06809014070000, .fillw (fG (.k 4) (.k 5) 7 0x0)),
  (0x8C06809014070000, .flushw (fG (.k 4) (.k 5) 7 0x0)),
  (0x8D04000040240142, .prefetch { fE (.v 0) .b32 0x5 with off := .v 9 }),
  (0x8E06000000000000, .pub (fG (.v 0) (.v 0) 0 0x0)),
  (0x8F06000000000000, .snap (fG (.v 0) (.v 0) 0 0x0)),
  (0x9006000000000000, .phase (fG (.v 0) (.v 0) 0 0x0)),
  (0x9106000000000004, .fence (fG (.v 0) (.v 0) 0 0x4)),
  (0x920300003FFFFFC0, .waitc (fD (.v 0) 0 0x3FFFFFC0)),
  (0x9306812000000004, .waitr (fG (.k 9) (.v 0) 0 0x4))]

def words_atomics : List (Nat × Instr) := [
  (0xA00400804024C142, .atom { fE (.v 4) .b32 0x305 with off := .v 9 }),
  (0xA104010040240FC3, .cas { fE (.v 8) .b64 0x3F with off := .v 9 }),
  (0xA204008040254802, .red { fE (.v 4) .b32 0x520 with off := .v 9 }),
  (0xA304008040252082, .atomf { fE (.v 4) .b32 0x482 with off := .v 9 }),
  (0xA404008040241042, .redf { fE (.v 4) .b32 0x41 with off := .v 9 }),
  (0xA504010040248044, .atomw { fE (.v 8) .b128 0x201 with off := .v 9 }),
  (0xA006008024030002, .atomWindow (fG (.v 4) (.v 9) 3 0x2)),
  (0xA106010024030003, .casWindow (fG (.v 8) (.v 9) 3 0x3)),
  (0xA206008024030002, .redWindow (fG (.v 4) (.v 9) 3 0x2)),
  (0xA306008024030002, .atomfWindow (fG (.v 4) (.v 9) 3 0x2)),
  (0xA406008024030002, .redfWindow (fG (.v 4) (.v 9) 3 0x2))]

def words_barriers : List (Nat × Instr) := [
  (0xB0068090143F0000, .barinit (fG (.k 4) (.k 5) 63 0x0)),
  (0xB1068080003F0001, .bararr (fG (.k 4) (.v 0) 63 0x1)),
  (0xB206809014010000, .barwait (fG (.k 4) (.k 5) 1 0x0)),
  (0xB306808000010000, .bartok (fG (.k 4) (.v 0) 1 0x0)),
  (0xB406001014040000, .qpush (fG (.v 0) (.k 5) 4 0x0)),
  (0xB50600A000010000, .qpop (fG (.v 5) (.v 0) 1 0x0)),
  (0xB60680A0001F0000, .qstat (fG (.k 5) (.v 0) 31 0x0)),
  (0xB706860000020000, .copy (fG (.k 48) (.v 0) 2 0x0)),
  (0xB806860000010000, .gcopy (fG (.k 48) (.v 0) 1 0x0))]

def words_tile : List (Nat × Instr) := [
  (0xC006000000000186, .tcfg (fG (.v 0) (.v 0) 0 0x186)),
  (0xC10680E0000F0000, .unf (fG (.k 7) (.v 0) 15 0x0)),
  (0xC20681102C0003FF, .bload (fG (.k 8) (.k 11) 0 0x3FF)),
  (0xC30684D0A0000008, .xfetch (fG (.k 38) (.k 40) 0 0x8)),
  (0xC406815030000002, .mma (fG (.k 10) (.k 12) 0 0x2)),
  (0xC50600000000000F, .accz (fG (.v 0) (.v 0) 0 0xF)),
  (0xC606814000030007, .accld (fG (.k 10) (.v 0) 3 0x7)),
  (0xC706814000030002, .accst (fG (.k 10) (.v 0) 3 0x2)),
  (0xC8068570B000019C, .drain (fG (.k 43) (.k 44) 0 0x19C)),
  (0xC906814000000000, .chain (fG (.k 10) (.v 0) 0 0x0)),
  (0xCA06000000000000, .tsync (fG (.v 0) (.v 0) 0 0x0)),
  (0xCB060000003F0000, .tsig (fG (.v 0) (.v 0) 63 0x0))]

def words_experts : List (Nat × Instr) := [
  (0xD806008000000000, .ecnt (fG (.v 4) (.v 0) 0 0x0)),
  (0xD90680D024000007, .xstat (fG (.k 6) (.k 9) 0 0x7))]

def words_collectives : List (Nat × Instr) := [
  (0xE006850000030000, .coll (fG (.k 40) (.v 0) 3 0x0)),
  (0xE106851020000000, .cview (fG (.k 40) (.k 8) 0 0x0)),
  (0xE206000000000006, .cpolicy (fG (.v 0) (.v 0) 0 0x6)),
  (0xE306001020000002, .cack (fG (.v 0) (.k 8) 0 0x2)),
  (0xE406829060000000, .cjoin (fG (.k 20) (.k 24) 0 0x0))]

def words_gates : List (Nat × Instr) := [
  (0xE806819020000000, .gsig (fG (.k 12) (.k 8) 0 0x0)),
  (0xE906811010000000, .gwait (fG (.k 8) (.k 4) 0 0x0)),
  (0xEA06811010000000, .gtry (fG (.k 8) (.k 4) 0 0x0)),
  (0xEB06811010000003, .gxch (fG (.k 8) (.k 4) 0 0x3)),
  (0xEC06811010000000, .gstat (fG (.k 8) (.k 4) 0 0x0))]

def words_system : List (Nat × Instr) := [
  (0xF006828000000013, .sysrd (fG (.k 20) (.v 0) 0 0x13)),
  (0xF106001050000042, .syswr (fG (.v 0) (.k 20) 0 0x42)),
  (0xF206828000000000, .clk (fG (.k 20) (.v 0) 0 0x0)),
  (0xF306000000000002, .runk (fG (.v 0) (.v 0) 0 0x2)),
  (0xF40600000000FFFF, .brk (fG (.v 0) (.v 0) 0 0xFFFF)),
  (0xF503813700001234, .mark (fD (.k 9) 23 0x1234)),
  (0xF606001024000001, .sampctl (fG (.v 0) (.k 9) 0 0x1)),
  (0xF702815030400005, .svc (fC (.k 10) (.k 12) 1 0x5))]

theorem test_words_integer : reads false words_integer = true := by decide +kernel
theorem test_words_bits : reads false words_bits = true := by decide +kernel
theorem test_words_integer2 : reads false words_integer2 = true := by decide +kernel
theorem test_words_float : reads false words_float = true := by decide +kernel
theorem test_words_convert : reads false words_convert = true := by decide +kernel
theorem test_words_permute : reads false words_permute = true := by decide +kernel
theorem test_words_control : reads false words_control = true := by decide +kernel
theorem test_words_memory : reads false words_memory = true := by decide +kernel
theorem test_words_atomics : reads false words_atomics = true := by decide +kernel
theorem test_words_barriers : reads false words_barriers = true := by decide +kernel
theorem test_words_tile : reads true words_tile = true := by decide +kernel
theorem test_words_experts : reads false words_experts = true := by decide +kernel
theorem test_words_collectives : reads false words_collectives = true := by decide +kernel
theorem test_words_gates : reads false words_gates = true := by decide +kernel
theorem test_words_system : reads false words_system = true := by decide +kernel

/-- The words that the manual itself prints, with their assembly. -/
def words_manual : List (Nat × Instr) := [
  -- 02: ?!m3 fadd.f32.rtz v7, v12, k40; add.s32.sat has its own row above
  (0x309800E0321400A2, .fadd { fA .f32 (.v 7) (.v 12) (.k 40) with g := { neg := true, mask := 3 }, rnd := .rtz }),
  (0x0200006004010000, .add (fA .s32 (.v 3) (.v 1) (.v 2))),
  (0x2102008004400064, .cmpImm (fC (.v 4) (.v 1) 1 100)),
  (0x330100601002C0A4, .fma (fB (.v 3) (.v 4) (.v 5) (.k 10) 4)),
  (0x3000006004 * 2 ^ 24 + 0x0100A0, .fadd (fA .f32 (.v 3) (.v 1) (.v 2))),
  (0x92030000 * 2 ^ 32 + 0x3FFFFFC0, .waitc (fD (.v 0) 0 0x3FFFFFC0)),
  (0x80040080400800C2, .ld { fE (.v 4) .b32 3 with off := .v 2 }),
  (0x81040060001C1002, .st { fE (.v 3) .b32 64 with base := 0, off := .v 7 }),
  (0x701DFFFFFFFA0001, .br { fF 0xFFFFFFFA 1 with g := { neg := false, mask := 3 } }),
  (0x710500000009004C, .bru (fF 9 0x4C)),
  (0x7696000000000000, .exit { fG (.v 0) (.v 0) 0 0 with g := { neg := true, mask := 2 } }),
  (0x2402806000400010, .movImm (fC (.k 3) (.v 0) 1 0x10)),
  (0x7A02000000000001, .trap (fC (.v 0) (.v 0) 0 1)),
  (0x874601C01C02FF80, .ste { fG (.v 14) (.v 7) 2 0xFF80 with g := { neg := false, mask := 8 } }),
  (0xB806860000010000, .gcopy (fG (.k 48) (.v 0) 1 0)),
  (0x6302004004000001, .bshiftImm (fC (.v 2) (.v 1) 0 1)),
  (0x640000600A0860F0, .tlk { fA .b8 (.v 3) (.v 2) (.k 16) with modA := .swn }),
  (0xE806819020000000, .gsig (fG (.k 12) (.k 8) 0 0)),
  (0xE906811010000000, .gwait (fG (.k 8) (.k 4) 0 0)),
  (0xF206828000000000, .clk (fG (.k 20) (.v 0) 0 0)),
  (0xF306000000000002, .runk (fG (.v 0) (.v 0) 0 2)),
  (0xF006828000000013, .sysrd (fG (.k 20) (.v 0) 0 0x13)),
  (0xF406000000000003, .brk (fG (.v 0) (.v 0) 0 3)),
  (0xF503000700001234, .mark (fD (.v 0) 7 0x1234)),
  (0xF702815030400005, .svc (fC (.k 10) (.k 12) 1 5)),
  (0xE006850000030000, .coll (fG (.k 40) (.v 0) 3 0)),
  (0xE106851020000000, .cview (fG (.k 40) (.k 8) 0 0)),
  (0xE206000000000006, .cpolicy (fG (.v 0) (.v 0) 0 6)),
  (0xE306001020000002, .cack (fG (.v 0) (.k 8) 0 2)),
  (0xE406829060000000, .cjoin (fG (.k 20) (.k 24) 0 0)),
  (0xE406001040000001, .cjoin (fG (.v 0) (.k 16) 0 1))]
theorem test_words_manual : reads false words_manual = true := by decide +kernel

/-- The tile words that the manual prints. -/
def words_manual_tile : List (Nat × Instr) := [
  (0xC406815030000002, .mma (fG (.k 10) (.k 12) 0 2)), (0xC30684D0A0000008, .xfetch (fG (.k 38) (.k 40) 0 8)), (0xC8068570B000019C, .drain (fG (.k 43) (.k 44) 0 0x19C))]
theorem test_words_manual_tile : reads true words_manual_tile = true := by decide +kernel

/-- Words that are no instruction, with the fault of 02 R54 and R56: at a group, and at a sequencer. -/
def refuses (seq last : Bool) (ws : List (Nat × Code)) : Bool :=
  ws.all fun x => match decodeWord seq last (BitVec.ofNat 64 x.1) with | .ok _ => false | .error c => c == x.2
theorem test_words_refused : refuses false false [(0, .illegalEncoding), (0x0101400243 * 2 ^ 24 + 0x40C406, .illegalEncoding), (0x2B00000000000000, .unimplemented), (0xCC06000000000000, .illegalEncoding),
    (0xC506000000000001, .illegalEncoding), (0xF800000000000000, .unimplemented), (0x0207000000000000, .illegalEncoding), (0x3002000000000000, .illegalEncoding), (0x0200006004010190, .illegalEncoding),
    (0x020000600401000C, .illegalEncoding), (0x7696000000000000, .illegalEncoding), (0x0280006004010000, .illegalEncoding)] = true
  ∧ refuses true false [(0xCC06000000000000, .unimplemented), (0x2B00000000000000, .illegalEncoding), (0x309800E0321400A2, .illegalEncoding), (0x0200006004010000, .illegalEncoding)] = true := by
  decide +kernel

/-! ### Ill-formed terms

One for each check, which the check refuses; a step of the machine has no encoding. -/

def m0not : Guard := { neg := true, mask := 0 }
def illFormed : List (String × Bool × Bool × Instr) := [
  ("a step has no encoding", false, true, .roundClose 0),
  ("guard m0 negated (R37)", false, true, .add { fA .s32 (.v 1) (.v 2) (.v 3) with g := m0not }),
  ("guard at the sequencer (R38)", true, true, .accz { fG (.v 0) (.v 0) 0 1 with g := { neg := false, mask := 1 } }),
  ("class: iota at the sequencer (R53)", true, true, .iota (fC (.v 1) (.k 2) 0 0)),
  ("class: a tile word at a group (R52)", false, true, .accz (fG (.v 0) (.v 0) 0 1)),
  ("vector register at the sequencer (R39)", true, true, .add (fA .s32 (.v 1) (.k 2) (.k 3))),
  ("a block's end before its end (R29)", false, false, .jmp (fF 1 0)),
  ("vector index above 255 (R39)", false, true, .add (fA .s32 (.v 256) (.v 2) (.v 3))),
  ("odd pair (R40)", false, true, .add (fA .s64 (.v 1) (.v 2) (.v 4))),
  ("quad index (R40)", false, true, .mov (fA .b128 (.v 4) (.v 6) (.v 0))),
  ("vector source of a scalar result (R39)", false, true, .add (fA .s32 (.k 1) (.v 2) (.k 3))),
  ("type not accepted (R44)", false, true, .mulh (fA .s64 (.v 2) (.v 4) (.v 6))),
  ("rounding not accepted (R44)", false, true, .add { fA .s32 (.v 1) (.v 2) (.v 3) with rnd := .rtz }),
  ("stochastic rounding not accepted (R45)", false, true, .fadd { fA .f32 (.v 1) (.v 2) (.v 3) with rnd := .sr }),
  ("saturation not accepted (R44)", false, true, .rem { fA .s32 (.v 1) (.v 2) (.v 3) with sat := true }),
  ("modifier of a 64-bit type (R41)", false, true, .add { fA .s64 (.v 2) (.v 4) (.v 6) with modA := .lo }),
  ("unused operand (R42)", false, true, .neg (fA .s32 (.v 1) (.v 2) (.v 3))),
  ("unused modifier (R42)", false, true, .neg { fA .s32 (.v 1) (.v 2) (.v 0) with modB := .hi }),
  ("func not assigned, format B (R46)", false, true, .sad (fB (.v 1) (.v 2) (.v 3) (.v 4) 2)),
  ("func not assigned, format C (R46)", false, true, .andImm (fC (.v 1) (.v 2) 1 5)),
  ("func not assigned, format D (R46)", false, true, .movi (fD (.v 1) 1 5)),
  ("func not assigned, format G (R46)", false, true, .fence (fG (.v 0) (.v 0) 0 5)),
  ("cond not assigned, format F (R46)", false, true, .br (fF 1 3)),
  ("shift count (R107)", false, true, .shlImm (fC (.v 1) (.v 2) 0 32)),
  ("special register not assigned (R117)", false, true, .movImm (fC (.v 1) (.v 0) 1 0x0E)),
  ("mask register above m15 (R39)", false, true, .mand (fA .b128 (.v 16) (.v 1) (.v 2))),
  ("m0 written (R133)", false, true, .mand (fA .b128 (.v 0) (.v 1) (.v 2))),
  ("odd pair of masks (R115)", false, true, .cmp (fA .s32 (.v 3) (.v 1) (.v 2))),
  ("scope where none is taken (R48)", false, true, .ld { fE (.v 4) .b32 0 with scope := .blk }),
  ("register of a 64-bit access (R47)", false, true, .ld (fE (.v 5) .b64 0)),
  ("offset register of a scalar load (R39)", false, true, .ld { fE (.k 4) .b32 0 with off := .v 9 }),
  ("atomic operation not assigned (R261)", false, true, .atom (fE (.v 4) .b32 0x041)),
  ("size of an atomic (R261)", false, true, .atom (fE (.v 4) .b8 0)),
  ("window above 15 (R50)", false, true, .ldw (fG (.v 4) (.v 9) 16 2)),
  ("size of a window access (R257)", false, true, .ldw (fG (.v 4) (.v 9) 1 5)),
  ("barrier above 63 (R50)", false, true, .bartok (fG (.k 4) (.v 0) 64 0)),
  ("queue above 31 (R50)", false, true, .qstat (fG (.k 4) (.v 0) 32 0)),
  ("handle where none is taken (R42)", false, true, .gsig (fG (.k 4) (.k 8) 1 0)),
  ("vector operand of an engine word", false, true, .qpush (fG (.v 0) (.v 5) 4 0)),
  ("guard of an unguarded instruction (R204)", false, true, .pdone { fG (.v 0) (.v 0) 0 0 with g := { neg := false, mask := 3 } }),
  ("system register not assigned (R377)", false, true, .sysrd (fG (.k 4) (.v 0) 0 0x23)),
  ("system register that none may write (R377)", false, true, .syswr (fG (.v 0) (.k 4) 0 0x21)),
  ("gxch without a bit (R325)", false, true, .gxch (fG (.k 8) (.k 4) 0 0)),
  ("policy 0 (R401)", false, true, .cpolicy (fG (.v 0) (.v 0) 0 4)),
  ("tile format (R146)", true, true, .tcfg (fG (.v 0) (.v 0) 0 9)),
  ("immediate above the five limits (R250)", false, true, .waitc (fD (.v 0) 0 0x40000000))]
theorem test_ill_formed : (illFormed.all fun x => !decide (x.2.2.2.WellFormed x.2.1 x.2.2.1)) = true := by decide +kernel

/-- And the same term with the check met is well-formed. -/
theorem test_well_formed : ((words_integer ++ words_memory ++ words_system).all fun x => decide (x.2.WellFormed false true)) = true ∧ (words_tile.all fun x => decide (x.2.WellFormed true true)) = true := by
  decide +kernel

/-! ### Single steps

Each expected value is the manual's own, or worked by hand from the rule that the test names. -/

/-- The group after an instruction. -/
def after (i : Instr) (s : State) : Group :=
  match exec i s with
  | .next t => (t.groups.get 3).getD (Group.start 0 0 0 0 0 0 0 (Frag.start 0 0 0))
  | _ => Group.start 0 0 0 0 0 0 0 (Frag.start 0 0 0)
def lanesAfter (i : Instr) (s : State) (r n : Nat) : List Nat := (List.range n).map fun j => (laneOf ((after i s).vreg r) j).toNat
def scalarsAfter (i : Instr) (s : State) (r n : Nat) : List Nat := (List.range n).map fun j => ((after i s).sreg (r + j)).toNat
def masksAfter (i : Instr) (s : State) (m n : Nat) : List Bool := (List.range n).map fun j => ((after i s).mreg allLanes m).getLsbD j

/-- Vector registers from lists of lanes, and scalar registers; m4 and m5 are zero. -/
def vs (xs : List (Nat × List Nat)) (ks : List (Nat × Nat)) : State :=
  withG (xs.foldl (fun s x => withV s x.1 fun j => x.2.getD j 0) (withK grp ks)) fun g => { g with masks := (g.masks.put 4 0).put 5 0 }
/-- One value in v1, one in v2. -/
def ab (a b : Nat) : State := vs [(1, [a]), (2, [b])] []
def un (f : FormA → Instr) (ty : Ty) (a : Nat) : List Nat := lanesAfter (f (fA ty (.v 4) (.v 1) (.v 0))) (ab a 0) 4 1
def bin (f : FormA → Instr) (ty : Ty) (a b : Nat) : List Nat := lanesAfter (f (fA ty (.v 4) (.v 1) (.v 2))) (ab a b) 4 1

-- R112's example: 7, −7, the lowest value and 5 by 2, 0, −1 and 0.
def divs : State := vs [(1, [7, 2 ^ 32 - 7, 2 ^ 31, 5]), (2, [2, 0, 2 ^ 32 - 1, 0])] []
theorem test_div : lanesAfter (.div (fA .s32 (.v 3) (.v 1) (.v 2))) divs 3 4 = [3, 2 ^ 31, 2 ^ 31, 2 ^ 31 - 1] := by decide +kernel
theorem test_rem : lanesAfter (.rem (fA .s32 (.v 3) (.v 1) (.v 2))) divs 3 4 = [1, 2 ^ 32 - 7, 0, 5] := by decide +kernel
-- R115's example: the quotients against v1.
theorem test_cmp : let s := vs [(1, [7, 2 ^ 32 - 7, 2 ^ 31, 5]), (3, [3, 2 ^ 31, 2 ^ 31, 2 ^ 31 - 1])] []
    masksAfter (.cmp (fA .s32 (.v 4) (.v 3) (.v 1))) s 4 4 = [true, true, false, false] ∧ masksAfter (.cmp (fA .s32 (.v 4) (.v 3) (.v 1))) s 5 4 = [false, false, true, false] := by decide +kernel
-- R41: the modifiers of 0x12345678.
theorem test_modifiers : [Modifier.none, .lo, .hi, .swh, .rev, .swb, .swn, .rot].map (fun m => lanesAfter (.mov { fA .b32 (.v 4) (.v 1) (.v 0) with modA := m }) (ab 0x12345678 0) 4 1)
    = [[0x12345678], [0x56785678], [0x12341234], [0x56781234], [0x78563412], [0x34127856], [0x21436587], [0x12345678]] := by decide +kernel
-- R105, R110: wrap and saturate.
theorem test_add : bin .add .s32 0x7FFFFFFF 1 = [2 ^ 31] ∧ lanesAfter (.add { fA .s32 (.v 4) (.v 1) (.v 2) with sat := true }) (ab 0x7FFFFFFF 1) 4 1 = [2 ^ 31 - 1] := by decide +kernel
theorem test_addc_subb : bin .addc .n32 (2 ^ 32 - 1) 1 = [1] ∧ bin .subb .n32 0 1 = [1] := by decide +kernel
theorem test_abs : un .abs .s32 (2 ^ 31) = [2 ^ 31] ∧ lanesAfter (.abs { fA .s32 (.v 4) (.v 1) (.v 0) with sat := true }) (ab (2 ^ 31) 0) 4 1 = [2 ^ 31 - 1] := by decide +kernel
-- R111: the high word signed and unsigned, and the whole product.
theorem test_mulh : bin .mulh .s32 (2 ^ 32 - 1) 2 = [2 ^ 32 - 1] ∧ bin .mulh .n32 (2 ^ 32 - 1) 2 = [1] := by decide +kernel
theorem test_mulw : lanesAfter (.mulw (fA .s32 (.v 4) (.v 1) (.v 2))) (ab (2 ^ 32 - 1) 2) 4 1 = [2 ^ 32 - 2] ∧ lanesAfter (.mulw (fA .s32 (.v 4) (.v 1) (.v 2))) (ab (2 ^ 32 - 1) 2) 5 1 = [2 ^ 32 - 1] := by
  decide +kernel
-- R113: counts of the width and more.
theorem test_shifts : bin .shl .b32 1 32 = [0] ∧ bin .shr .b32 (2 ^ 31) 32 = [0] ∧ bin .sra .b32 (2 ^ 31) 33 = [2 ^ 32 - 1] ∧ bin .rotl .b32 0x80000001 33 = [3] ∧ bin .rotr .b32 1 1 = [2 ^ 31] := by decide +kernel
-- R114.
theorem test_clz_popc_brev : un .clz .b32 0 = [32] ∧ un .popc .b32 0xF0 = [4] ∧ un .brev .b32 1 = [2 ^ 31] := by decide +kernel
theorem test_bfx : lanesAfter (.bfxImm (fC (.v 4) (.v 1) 0 0x0404)) (ab 0x80 0) 4 1 = [2 ^ 32 - 8] ∧ lanesAfter (.bfxImm (fC (.v 4) (.v 1) 1 0x0404)) (ab 0x80 0) 4 1 = [8] := by decide +kernel
theorem test_bfi : lanesAfter (.bfiImm (fC (.v 4) (.v 1) 0 0x0404)) (vs [(1, [0xFA]), (4, [0xFFFFFFFF])] []) 4 1 = [0xFFFFFFAF] := by decide +kernel
-- R119: e zero- and sign-extended, and the address mod 2^80.
theorem test_addw : scalarsAfter (.addw (fA .s32 (.k 20) (.k 16) (.k 9))) (vs [] [(16, 0), (17, 0), (18, 0), (9, 2 ^ 32 - 1), (23, 5)]) 20 4 = [2 ^ 32 - 1, 2 ^ 32 - 1, 2 ^ 16 - 1, 0] := by decide +kernel
theorem test_lea : scalarsAfter (.lea { fE (.k 20) .b64 0xFFF with base := 4, off := .k 9 }) (vs [] [(16, 0), (17, 0), (18, 0), (9, 4), (23, 5)]) 20 4 = [2 ^ 32 - 4, 2 ^ 32 - 1, 2 ^ 16 - 1, 0] := by decide +kernel
theorem test_iota : lanesAfter (.iota (fC (.v 4) (.k 9) 0 0x3FFFFF)) (vs [] [(9, 1)]) 4 3 = [1, 0, 2 ^ 32 - 1] := by decide +kernel
theorem test_movx : lanesAfter (.movx (fC (.v 4) (.k 9) 0 0x3FFFFF)) (vs [(7, [5, 6])] [(9, 8)]) 4 2 = [5, 6] := by decide +kernel
-- R126's example: 1 − 2^−46 toward zero and to nearest.
theorem test_fma : lanesAfter (.fma (fB (.v 4) (.v 1) (.v 2) (.k 10) 4)) (vs [(1, [0x3F800001]), (2, [0x3F7FFFFE])] [(10, 0)]) 4 1 = [0x3F7FFFFF]
    ∧ lanesAfter (.fma (fB (.v 4) (.v 1) (.v 2) (.k 10) 0)) (vs [(1, [0x3F800001]), (2, [0x3F7FFFFE])] [(10, 0)]) 4 1 = [0x3F800000] := by decide +kernel
-- R122: a NaN beside a number, the zeros, magnitudes. R123: bits alone, classes.
theorem test_fmin : bin .fmin .f32 0x7FC00001 0x3F800000 = [0x3F800000] ∧ bin .fmin .f32 0 0x80000000 = [0x80000000] ∧ bin .fmax .f32 0x7F800001 0x7FC00001 = [0x7FC00000] ∧ bin .fmaxm .f32 0xC0000000 0x3F800000 = [0xC0000000] := by
  decide +kernel
theorem test_fclass : [0xFF800000, 0xBF800000, 0x80000001, 0x80000000, 0, 1, 0x3F800000, 0x7F800000, 0x7F800001, 0x7FC00000].map (un .fclass .f32) = (List.range 10).map fun i => [2 ^ i] := by decide +kernel
theorem test_fcmp : let s := vs [(1, [0, 0x7FC00000, 0xBF800000]), (2, [0x80000000, 0x7FC00000, 0])] []
    masksAfter (.fcmp (fA .f32 (.v 4) (.v 1) (.v 2))) s 4 3 = [false, false, true] ∧ masksAfter (.fcmp (fA .f32 (.v 4) (.v 1) (.v 2))) s 5 3 = [true, false, false] := by decide +kernel
-- R125.
theorem test_ffrac : un .ffrac .f32 0xB2800000 = [0x3F800000] ∧ un .ffrac .f32 0xBF800000 = [0] ∧ un .ffrac .f32 0xBE800000 = [0x3F400000] := by decide +kernel
theorem test_fround : un .fround .f32 0xBE99999A = [0x80000000] ∧ un .fround .f32 0x40200000 = [0x40000000] := by decide +kernel
theorem test_ffrexp : lanesAfter (.ffrexp (fA .f32 (.v 4) (.v 1) (.v 0))) (ab 0x40C00000 0) 4 1 = [0x3F400000] ∧ lanesAfter (.ffrexp (fA .f32 (.v 4) (.v 1) (.v 0))) (ab 0x40C00000 0) 5 1 = [3]
    ∧ lanesAfter (.ffrexp (fA .f32 (.v 4) (.v 1) (.v 0))) (ab 1 0) 5 1 = [2 ^ 32 - 148] := by decide +kernel
theorem test_fldexp : lanesAfter (.fldexpImm (fC (.v 4) (.v 1) 0 0x3FFF6B)) (ab 0x3F800000 0) 4 1 = [1] := by decide +kernel
-- R126: exact cases and the special values.
theorem test_functions : un .frcp .f32 0x80000000 = [0xFF800000] ∧ un .frsq .f32 0x40800000 = [0x3F000000] ∧ un .fsqrt .f32 0xBF800000 = [0x7FC00000] ∧ un .fexp2 .f32 0x40400000 = [0x41000000]
    ∧ un .flog2 .f32 0x3F800000 = [0] ∧ un .fsinpi .f32 0xC0000000 = [0x80000000] ∧ un .fcospi .f32 0x3F000000 = [0] ∧ un .ftanh .f32 0xFF800000 = [0xBF800000] ∧ un .fsigm .f32 0 = [0x3F000000] := by
  decide +kernel
-- R128 and R89: to integers, saturating; R129, R130.
theorem test_cvt : un .cvt .s8 0x43480000 = [127] ∧ un .cvti .n32 0x01000001 = [0x4B800000] := by decide +kernel
theorem test_pack : bin .pack .f16 0x3F800000 0xC0000000 = [0xC0003C00] ∧ lanesAfter (.unpackElement (fC (.v 4) (.v 1) 8 7)) (ab 0x80000000 0) 4 1 = [2 ^ 32 - 8] := by decide +kernel
theorem test_srseed : scalarsAfter (.srread (fA .b32 (.k 7) (.v 0) (.v 0))) (match exec (.srseedImm (fC (.v 0) (.v 0) 0 0)) grp with | .next t => t | _ => grp) 7 1 = [0x6D2B79F5] := by decide +kernel
-- R134 to R137.
theorem test_perm : lanesAfter (.perm (fA .b32 (.v 4) (.v 1) (.v 2))) (vs [(1, [10, 11, 12, 13]), (2, [3, 128, 2, 1])] []) 4 4 = [13, 10, 12, 11] := by decide +kernel
theorem test_permBytes : lanesAfter (.permBytes (fB (.v 4) (.v 1) (.v 2) (.k 9) 0)) (vs [(1, [0x44332211]), (2, [0x88776655])] [(9, 0x80070400)]) 4 1 = [0x00885511] := by decide +kernel
theorem test_bshift : lanesAfter (.bshiftImm (fC (.v 4) (.v 1) 0 1)) (vs [(1, [0x44332211, 0x88776655])] []) 4 2 = [0x33221100, 0x77665544] := by decide +kernel
theorem test_lshift : lanesAfter (.lshiftImm (fC (.v 4) (.v 1) 0 0x3FFFFF)) (vs [(1, [1, 2, 3])] []) 4 3 = [2, 3, 0] := by decide +kernel
theorem test_tlk : lanesAfter (.tlk { fA .b8 (.v 4) (.v 1) (.k 16) with modA := .swn }) (vs [(1, [0xF0102030])] [(16, 0x03020100), (17, 0), (18, 0), (19, 0x0F000000)]) 4 1 = [0x0F010203] := by decide +kernel
theorem test_bsel : lanesAfter (.bsel (fB (.v 4) (.v 1) (.v 2) (.k 9) 0)) (vs [(1, [0xFFFF0000]), (2, [0x12345678])] [(9, 0xFF00FF00)]) 4 1 = [0xFF340078] := by decide +kernel
-- R138 and R140: the example of six lanes.
def six : State := withF (vs [(1, [2, 0, 2, 1, 2, 0]), (3, [])] [(7, 10)]) fun f => { f with mask := 0x3F }
theorem test_rank : lanesAfter (.rank (fA .b32 (.v 2) (.v 1) (.v 0))) six 2 6 = [0, 0, 1, 0, 2, 1] := by decide +kernel
theorem test_scan : lanesAfter (.scan (fA .n32 (.v 3) (.v 1) (.k 7))) six 3 6 = [10, 12, 12, 14, 15, 17] := by decide +kernel
theorem test_reduce_mpop : scalarsAfter (.reduce (fA .n32 (.k 8) (.v 1) (.k 7))) six 8 1 = [17] ∧ scalarsAfter (.mpop (fA .n32 (.k 9) (.v 1) (.v 0))) six 9 1 = [4] ∧ scalarsAfter (.mfirst (fA .n32 (.k 9) (.v 3) (.v 0))) six 9 1 = [128] := by
  decide +kernel
-- R38: a guarded write leaves the lanes outside its mask.
theorem test_guard : lanesAfter (.movi { fD (.v 4) 0 7 with g := { neg := false, mask := 3 } }) (withG (vs [(4, [1, 1, 1])] []) fun g => { g with masks := g.masks.put 3 2 }) 4 3 = [1, 7, 1] := by decide +kernel
-- R264: the last expected arrival advances the phase. R56: a word of zeros traps.
theorem test_bararr : (match exec (.bararr (fG (.v 0) (.v 0) 63 0)) (withB barred fun b => { b with bars := b.bars.put 63 { bar0 with p := 5, eb := 0, ea := 1 } }) with
    | .next t => (t.blocks.get 2).map fun b => ((b.bar 63).p.toNat, (b.bar 63).ca) | _ => none) = some (6, 0) := by decide +kernel
theorem test_zero_word : (match step (State.reset.withFetchWord 64 0) with
    | .next t => (t.launches.get 1).map fun l => l.ended.map (·.2) | _ => none) = some (some (codeNum .illegalEncoding)) := by decide +kernel

end Sys2Proof.Tests
end

section
/-! PROOFS. Words and fields (02 R37, R43 to R47): each format's decoder finds the fields f in a word exactly where the word's bits are f's, so that building an instruction from a word and encoding it are each other's inverse. -/

namespace Sys2Proof.Machine

/-! ### One field -/

theorem bitsAt_lt (w lo n : Nat) : bitsAt w lo n < 2 ^ n := Nat.mod_lt _ (Nat.two_pow_pos n)

theorem ofNat_bitsAt_eq_iff {w lo n : Nat} (b : BitVec n) : BitVec.ofNat n (bitsAt w lo n) = b ↔ bitsAt w lo n = b.toNat := by
  rw [← BitVec.toNat_inj, BitVec.toNat_ofNat, Nat.mod_eq_of_lt (bitsAt_lt w lo n)]

theorem bitAt_eq_iff (w i : Nat) (b : Bool) : bitAt w i = b ↔ bitsAt w i 1 = if b then 1 else 0 := by
  cases b with
  | false => simp only [bitAt, bitsAt, beq_eq_false_iff_ne, ne_eq, Nat.mod_two_not_eq_one, Nat.pow_one, Bool.false_eq_true, if_false]
  | true => simp only [bitAt, bitsAt, beq_iff_eq, Nat.pow_one, if_true]

theorem opndCode_lt (o : Opnd) : opndCode o < 2 ^ 11 := by cases o <;> simp only [opndCode] <;> omega

theorem opndOf_bitsAt_eq_iff {w lo : Nat} (o : Opnd) : opndOf (bitsAt w lo 11) = o ↔ bitsAt w lo 11 = opndCode o := by
  have hx := bitsAt_lt w lo 11
  by_cases hv : bitsAt w lo 11 / 1024 % 2 = 0
  · rw [opndOf, if_pos hv]
    cases o with
    | v i =>
      simp only [opndCode, Opnd.v.injEq, ← BitVec.toNat_inj, BitVec.toNat_ofNat]
      omega
    | k i =>
      simp only [opndCode, reduceCtorEq, false_iff]
      omega
  · rw [opndOf, if_neg hv]
    cases o with
    | v i =>
      simp only [opndCode, reduceCtorEq, false_iff]
      omega
    | k i =>
      simp only [opndCode, Opnd.k.injEq, ← BitVec.toNat_inj, BitVec.toNat_ofNat]
      omega

theorem modCode_lt (m : Modifier) : modCode m < 2 ^ 3 := by cases m <;> decide
theorem modCode_modOf : ∀ x < 2 ^ 3, modCode (modOf x) = x := by decide
theorem modOf_modCode (m : Modifier) : modOf (modCode m) = m := by cases m <;> rfl

theorem modOf_bitsAt_eq_iff {w lo : Nat} (m : Modifier) : modOf (bitsAt w lo 3) = m ↔ bitsAt w lo 3 = modCode m :=
  ⟨fun h => h ▸ (modCode_modOf _ (bitsAt_lt w lo 3)).symm, fun h => h ▸ modOf_modCode m⟩

theorem tyCode_lt (t : Ty) : tyCode t < 2 ^ 5 := by cases t <;> decide

theorem tyOf_eq_some {x : Nat} {t : Ty} : tyOf x = some t ↔ x = tyCode t := by
  constructor
  · intro h
    unfold tyOf at h
    split at h <;> cases h <;> rfl
  · rintro rfl
    cases t <;> rfl

theorem rndCode_lt (r : Rnd) : rndCode r < 2 ^ 3 := by cases r <;> decide

theorem rndOf_eq_some {x : Nat} {r : Rnd} : rndOf x = some r ↔ x = rndCode r := by
  constructor
  · intro h
    unfold rndOf at h
    split at h <;> cases h <;> rfl
  · rintro rfl
    cases r <;> rfl

theorem scopeCode_lt (c : Scope) : scopeCode c < 2 ^ 3 := by cases c <;> decide

theorem scopeOf_eq_some {x : Nat} {c : Scope} : scopeOf x = some c ↔ x = scopeCode c := by
  constructor
  · intro h
    unfold scopeOf at h
    split at h <;> cases h <;> rfl
  · rintro rfl
    cases c <;> rfl

theorem sizeCode_lt (z : Size) : sizeCode z < 2 ^ 3 := by cases z <;> decide

theorem sizeOf'_eq_some {x : Nat} {z : Size} : sizeOf' x = some z ↔ x = sizeCode z := by
  constructor
  · intro h
    unfold sizeOf' at h
    split at h <;> cases h <;> rfl
  · rintro rfl
    cases z <;> rfl

/-- The guard's code in bits 55:51. -/
theorem encGuard_eq (g : Guard) : ∃ k < 2 ^ 5, encGuard g = k * 2 ^ 51 := by
  obtain ⟨neg, m⟩ := g
  refine ⟨(if neg then 2 ^ 4 else 0) + m.toNat, ?_, ?_⟩ <;> cases neg <;> simp only [encGuard, Bool.false_eq_true, if_false, if_true] <;> omega

theorem decGuard_eq_iff (w : Nat) (g : Guard) : decGuard w = g ↔ bitsAt w 51 5 * 2 ^ 51 = encGuard g := by
  obtain ⟨neg, m⟩ := g
  simp only [decGuard, Guard.mk.injEq, ofNat_bitsAt_eq_iff, bitAt_eq_iff]
  simp only [encGuard, bitsAt]
  cases neg <;> simp only [if_true, if_false, Bool.false_eq_true] <;> omega

/-! ### One format

Decoding finds the fields f in a word exactly where the word has the guard of f and, in bits 47:0, the bits of f. -/

/-- The fields that decoding finds in format A, each against its own bits. -/
theorem decA_fields (w : Nat) (f : FormA) : decA w = some f ↔ decGuard w = f.g ∧ opndOf (bitsAt w 37 11) = f.dst ∧ opndOf (bitsAt w 26 11) = f.a
    ∧ opndOf (bitsAt w 15 11) = f.b ∧ modOf (bitsAt w 12 3) = f.modA ∧ modOf (bitsAt w 9 3) = f.modB
    ∧ tyOf (bitsAt w 4 5) = some f.ty ∧ rndOf (bitsAt w 1 3) = some f.rnd ∧ bitAt w 0 = f.sat := by
  obtain ⟨g, d, a, b, ma, mb, t, r, s⟩ := f
  unfold decA
  cases tyOf (bitsAt w 4 5) <;> cases rndOf (bitsAt w 1 3) <;>
    simp only [reduceCtorEq, Option.some.injEq, FormA.mk.injEq, false_and, and_false]

theorem decA_eq_iff (w : Nat) (f : FormA) : decA w = some f ↔ decGuard w = f.g ∧ w % 2 ^ 48 = encA f := by
  have hd := opndCode_lt f.dst
  have ha := opndCode_lt f.a
  have hb := opndCode_lt f.b
  have hma := modCode_lt f.modA
  have hmb := modCode_lt f.modB
  have ht := tyCode_lt f.ty
  have hr := rndCode_lt f.rnd
  simp only [decA_fields, opndOf_bitsAt_eq_iff, modOf_bitsAt_eq_iff, tyOf_eq_some, rndOf_eq_some, bitAt_eq_iff]
  refine and_congr_right fun _ => ?_
  simp only [encA, bitsAt, Nat.pow_zero, Nat.div_one]
  split <;> omega

theorem decB_eq_iff (w : Nat) (f : FormB) : decB w = f ↔ decGuard w = f.g ∧ w % 2 ^ 48 = encB f := by
  obtain ⟨g, d, a, b, c, n⟩ := f
  have hd := opndCode_lt d
  have ha := opndCode_lt a
  have hb := opndCode_lt b
  have hc := opndCode_lt c
  simp only [decB, FormB.mk.injEq, opndOf_bitsAt_eq_iff, ofNat_bitsAt_eq_iff]
  refine and_congr_right fun _ => ?_
  simp only [encB, bitsAt, Nat.pow_zero, Nat.div_one]
  omega

theorem decC_eq_iff (w : Nat) (f : FormC) : decC w = f ↔ decGuard w = f.g ∧ w % 2 ^ 48 = encC f := by
  obtain ⟨g, d, a, n, x⟩ := f
  have hd := opndCode_lt d
  have ha := opndCode_lt a
  simp only [decC, FormC.mk.injEq, opndOf_bitsAt_eq_iff, ofNat_bitsAt_eq_iff]
  refine and_congr_right fun _ => ?_
  simp only [encC, bitsAt, Nat.pow_zero, Nat.div_one]
  omega

theorem decD_eq_iff (w : Nat) (f : FormD) : decD w = f ↔ decGuard w = f.g ∧ w % 2 ^ 48 = encD f := by
  obtain ⟨g, d, n, x⟩ := f
  have hd := opndCode_lt d
  simp only [decD, FormD.mk.injEq, opndOf_bitsAt_eq_iff, ofNat_bitsAt_eq_iff]
  refine and_congr_right fun _ => ?_
  simp only [encD, bitsAt, Nat.pow_zero, Nat.div_one]
  omega

/-- The fields that decoding finds in format E, each against its own bits. -/
theorem decE_fields (w : Nat) (f : FormE) : decE w = some f ↔ decGuard w = f.g ∧ opndOf (bitsAt w 37 11) = f.data
    ∧ BitVec.ofNat 8 (bitsAt w 29 8) = f.base ∧ opndOf (bitsAt w 18 11) = f.off ∧ BitVec.ofNat 12 (bitsAt w 6 12) = f.imm
    ∧ scopeOf (bitsAt w 3 3) = some f.scope ∧ sizeOf' (bitsAt w 0 3) = some f.size := by
  obtain ⟨g, d, b, o, x, c, z⟩ := f
  unfold decE
  cases scopeOf (bitsAt w 3 3) <;> cases sizeOf' (bitsAt w 0 3) <;>
    simp only [reduceCtorEq, Option.some.injEq, FormE.mk.injEq, false_and, and_false]

theorem decE_eq_iff (w : Nat) (f : FormE) : decE w = some f ↔ decGuard w = f.g ∧ w % 2 ^ 48 = encE f := by
  have hd := opndCode_lt f.data
  have ho := opndCode_lt f.off
  have hc := scopeCode_lt f.scope
  have hz := sizeCode_lt f.size
  simp only [decE_fields, opndOf_bitsAt_eq_iff, ofNat_bitsAt_eq_iff, scopeOf_eq_some, sizeOf'_eq_some]
  refine and_congr_right fun _ => ?_
  simp only [encE, bitsAt, Nat.pow_zero, Nat.div_one]
  omega

theorem decF_eq_iff (w : Nat) (f : FormF) : decF w = f ↔ decGuard w = f.g ∧ w % 2 ^ 48 = encF f := by
  obtain ⟨g, o, c⟩ := f
  simp only [decF, FormF.mk.injEq, ofNat_bitsAt_eq_iff]
  refine and_congr_right fun _ => ?_
  simp only [encF, bitsAt, Nat.pow_zero, Nat.div_one]
  omega

theorem decG_eq_iff (w : Nat) (f : FormG) : decG w = f ↔ decGuard w = f.g ∧ w % 2 ^ 48 = encG f := by
  obtain ⟨g, x, y, h, n⟩ := f
  have hx := opndCode_lt x
  have hy := opndCode_lt y
  simp only [decG, FormG.mk.injEq, opndOf_bitsAt_eq_iff, ofNat_bitsAt_eq_iff]
  refine and_congr_right fun _ => ?_
  simp only [encG, bitsAt, Nat.pow_zero, Nat.div_one]
  omega

end Sys2Proof.Machine
end

section
/-! PROOFS. The codec as a whole (02 R37, R43 to R54): a word is the one of an opcode and a layout exactly where it decodes to them, and an instruction is what its opcode makes of a layout; from both, decoding and encoding are each other's inverse on the legal instructions. Settles O14, O15, O16. -/

namespace Sys2Proof.Machine

/-! ### Layouts -/

/-- The fields of a word in one of the seven formats of 02 R43. -/
inductive Layout where
  | formA (f : FormA)
  | formB (f : FormB)
  | formC (f : FormC)
  | formD (f : FormD)
  | formE (f : FormE)
  | formF (f : FormF)
  | formG (f : FormG)

/-- The format code (02 R37). -/
def Layout.format : Layout → Nat
  | .formA _ => 0 | .formB _ => 1 | .formC _ => 2 | .formD _ => 3 | .formE _ => 4 | .formF _ => 5 | .formG _ => 6

/-- The guard fields (02 R37). -/
def Layout.guard : Layout → Guard
  | .formA f => f.g | .formB f => f.g | .formC f => f.g | .formD f => f.g | .formE f => f.g | .formF f => f.g | .formG f => f.g

/-- Bits 47:0 (02 R43). -/
def Layout.body : Layout → Nat
  | .formA f => encA f | .formB f => encB f | .formC f => encC f | .formD f => encD f | .formE f => encE f | .formF f => encF f | .formG f => encG f

/-- The word with an opcode (02 R37). -/
def Layout.word (op : Nat) (l : Layout) : BitVec 64 := encWord op l.format l.guard l.body

/-- The instruction that an opcode makes of the fields (02 R51). -/
def Layout.instr (op : Nat) : Layout → Option Instr
  | .formA f => instrA op f | .formB f => instrB op f | .formC f => instrC op f | .formD f => instrD op f | .formE f => instrE op f
  | .formF f => instrF op f | .formG f => instrG op f

/-- The fields of a word in a format. -/
def Layout.decode (w : Nat) : Nat → Option Layout
  | 0 => (decA w).map .formA
  | 1 => some (.formB (decB w))
  | 2 => some (.formC (decC w))
  | 3 => some (.formD (decD w))
  | 4 => (decE w).map .formE
  | 5 => some (.formF (decF w))
  | 6 => some (.formG (decG w))
  | _ => none

/-- Building an instruction is reading the fields and then the opcode. -/
theorem buildInstr_eq (w : Nat) : buildInstr w = (Layout.decode w (bitsAt w 48 3)).bind (Layout.instr (bitsAt w 56 8)) := by
  unfold buildInstr
  dsimp only
  generalize bitsAt w 48 3 = n
  match n with
  | 0 => exact (Option.bind_map (f := Layout.formA) (g := Layout.instr _)).symm
  | 4 => exact (Option.bind_map (f := Layout.formE) (g := Layout.instr _)).symm
  | 1 | 2 | 3 | 5 | 6 => rfl
  | n + 7 => rfl

/-! ### Bits of a word -/

theorem Layout.format_lt (l : Layout) : l.format < 2 ^ 3 := by cases l <;> simp only [format] <;> omega

theorem Layout.body_lt (l : Layout) : l.body < 2 ^ 48 := by
  cases l with
  | formA f =>
    have hd := opndCode_lt f.dst
    have ha := opndCode_lt f.a
    have hb := opndCode_lt f.b
    have hma := modCode_lt f.modA
    have hmb := modCode_lt f.modB
    have ht := tyCode_lt f.ty
    have hr := rndCode_lt f.rnd
    simp only [body, encA]
    split <;> omega
  | formB f =>
    have hd := opndCode_lt f.dst
    have ha := opndCode_lt f.a
    have hb := opndCode_lt f.b
    have hc := opndCode_lt f.c
    simp only [body, encB]
    omega
  | formC f =>
    have hd := opndCode_lt f.dst
    have ha := opndCode_lt f.a
    simp only [body, encC]
    omega
  | formD f =>
    have hd := opndCode_lt f.dst
    simp only [body, encD]
    omega
  | formE f =>
    have hd := opndCode_lt f.data
    have ho := opndCode_lt f.off
    have hc := scopeCode_lt f.scope
    have hz := sizeCode_lt f.size
    simp only [body, encE]
    omega
  | formF f =>
    simp only [body, encF]
    omega
  | formG f =>
    have hx := opndCode_lt f.x
    have hy := opndCode_lt f.y
    simp only [body, encG]
    omega

/-- A layout is found only in a word of its own format. -/
theorem Layout.format_of_decode {w n : Nat} {l : Layout} (h : decode w n = some l) : n = l.format := by
  unfold decode at h
  split at h
  case h_1 | h_5 =>
    obtain ⟨f, -, rfl⟩ := Option.map_eq_some_iff.mp h
    rfl
  case h_8 => cases h
  all_goals
    cases h
    rfl

/-- In the format of a layout, a word decodes to it exactly where its guard and its bits 47:0 are the layout's. -/
theorem Layout.decode_format_eq_some (w : Nat) (l : Layout) :
    decode w l.format = some l ↔ decGuard w = l.guard ∧ w % 2 ^ 48 = l.body := by
  cases l with
  | formA f => exact Iff.trans (by simp only [decode, format, Option.map_eq_some_iff, formA.injEq, exists_eq_right]) (decA_eq_iff w f)
  | formB f => exact Iff.trans (by simp only [decode, format, Option.some.injEq, formB.injEq]) (decB_eq_iff w f)
  | formC f => exact Iff.trans (by simp only [decode, format, Option.some.injEq, formC.injEq]) (decC_eq_iff w f)
  | formD f => exact Iff.trans (by simp only [decode, format, Option.some.injEq, formD.injEq]) (decD_eq_iff w f)
  | formE f => exact Iff.trans (by simp only [decode, format, Option.map_eq_some_iff, formE.injEq, exists_eq_right]) (decE_eq_iff w f)
  | formF f => exact Iff.trans (by simp only [decode, format, Option.some.injEq, formF.injEq]) (decF_eq_iff w f)
  | formG f => exact Iff.trans (by simp only [decode, format, Option.some.injEq, formG.injEq]) (decG_eq_iff w f)

theorem Layout.decode_eq_some (w n : Nat) (l : Layout) :
    decode w n = some l ↔ n = l.format ∧ decGuard w = l.guard ∧ w % 2 ^ 48 = l.body := by
  constructor
  · intro h
    obtain rfl := format_of_decode h
    exact ⟨rfl, (decode_format_eq_some w l).mp h⟩
  · rintro ⟨rfl, h⟩
    exact (decode_format_eq_some w l).mpr h

/-- A word is the one of an opcode and a layout exactly where its opcode, format, guard and bits 47:0 are theirs. -/
theorem Layout.eq_word_iff {op : Nat} (hop : op < 2 ^ 8) (l : Layout) (w : BitVec 64) :
    w = l.word op ↔ bitsAt w.toNat 56 8 = op ∧ bitsAt w.toNat 48 3 = l.format ∧ decGuard w.toNat = l.guard ∧ w.toNat % 2 ^ 48 = l.body := by
  obtain ⟨k, hk, hg⟩ := encGuard_eq l.guard
  have hf := l.format_lt
  have hb := l.body_lt
  rw [decGuard_eq_iff, word, encWord, ← BitVec.toNat_inj, BitVec.toNat_ofNat, hg]
  simp only [bitsAt]
  omega

/-! ### Opcodes and layouts -/

/-- An instruction that an opcode makes of a layout is encoded with that opcode and layout, and its opcode is an assigned one. -/
theorem Layout.of_instr_eq_some {op : Nat} {l : Layout} {i : Instr} (h : l.instr op = some i) :
    encode i = some (l.word op) ∧ opFormat i = some (op, l.format) ∧ 2 ≤ op ∧ opAssigned op = true := by
  cases l <;> simp only [instr, instrA, instrB, instrC, instrD, instrE, instrF, instrG] at h
  all_goals split at h
  all_goals cases h
  all_goals exact ⟨rfl, rfl, by decide, rfl⟩

/-- An instruction of the opcode table is what its opcode makes of some layout; a step of the machine has neither word nor opcode. -/
theorem exists_layout (i : Instr) :
    (∃ (l : Layout) (p : Nat × Nat), opFormat i = some p ∧ l.instr p.1 = some i) ∨ (encode i = none ∧ opFormat i = none) := by
  cases i
  case add f | sub f | addc f | subb f | mul f | mulh f | mulw f | div f | rem f | neg f | abs f | min f | max f | and f | or f |
      xor f | not f | andn f | shl f | shr f | sra f | rotl f | rotr f | clz f | popc f | brev f | cmp f | addw f | mov f | fadd f
      | fsub f | fmul f | fmin f | fmax f | fminm f | fmaxm f | fabs f | fneg f | fcmp f | frcp f | frsq f | fsqrt f | fexp2 f |
      flog2 f | fsinpi f | fcospi f | ftanh f | fsigm f | ffrac f | fround f | fclass f | fldexp f | ffrexp f | cvt f | cvti f |
      pack f | unpack f | srseed f | srread f | perm f | bcast f | lshift f | bshift f | tlk f | vote f | mpop f | mfirst f |
      mand f | mor f | mxor f | mnot f | scan f | reduce f | rank f | brx f =>
    exact .inl ⟨.formA f, _, rfl, rfl⟩
  case mad f | madw f | bfx f | bfi f | sel f | dot4 f | sad f | fma f | fnma f | fdot2 f | dq f | qz f | permBytes f | bsel f =>
    exact .inl ⟨.formB f, _, rfl, rfl⟩
  case addImm f | subImm f | mulImm f | divImm f | remImm f | minImm f | maxImm f | andImm f | orImm f | xorImm f | shlImm f |
      shrImm f | sraImm f | rotlImm f | rotrImm f | bfxImm f | bfiImm f | cmpImm f | addwImm f | movImm f | movx f | movy f |
      iota f | fldexpImm f | unpackElement f | srseedImm f | bcastImm f | lshiftImm f | bshiftImm f | sleep f | trap f | svc f =>
    exact .inl ⟨.formC f, _, rfl, rfl⟩
  case movi f | waitc f | mark f =>
    exact .inl ⟨.formD f, _, rfl, rfl⟩
  case lea f | ld f | st f | ldu f | stu f | prefetch f | atom f | cas f | red f | atomf f | redf f | atomw f =>
    exact .inl ⟨.formE f, _, rfl, rfl⟩
  case br f | bru f | jmp f | call f =>
    exact .inl ⟨.formF f, _, rfl, rfl⟩
  case ret f | exit f | yield f | nop f | tret f | pdone f | rmark f | deq f | enq f | ldw f | stw f | ldf f | ste f | fefill f |
      feget f | setw f | fillw f | flushw f | pub f | snap f | phase f | fence f | waitr f | atomWindow f | casWindow f |
      redWindow f | atomfWindow f | redfWindow f | barinit f | bararr f | barwait f | bartok f | qpush f | qpop f | qstat f |
      copy f | gcopy f | tcfg f | unf f | bload f | xfetch f | mma f | accz f | accld f | accst f | drain f | chain f | tsync f |
      tsig f | ecnt f | xstat f | coll f | cview f | cpolicy f | cack f | cjoin f | gsig f | gwait f | gtry f | gxch f | gstat f |
      sysrd f | syswr f | clk f | runk f | brk f | sampctl f =>
    exact .inl ⟨.formG f, _, rfl, rfl⟩
  all_goals exact .inr ⟨rfl, rfl⟩

/-- An instruction has a word exactly where it has an opcode. -/
theorem encode_isSome (i : Instr) : (encode i).isSome = (opFormat i).isSome := by
  obtain ⟨l, p, hp, hi⟩ | ⟨he, hf⟩ := exists_layout i
  · rw [hp, (Layout.of_instr_eq_some hi).1]
    rfl
  · rw [he, hf]
    rfl

/-- Every word that the encoder gives is that of a layout and an opcode which make the instruction of it. -/
theorem exists_layout_of_encode {i : Instr} {w : BitVec 64} (h : encode i = some w) :
    ∃ (l : Layout) (op : Nat), w = l.word op ∧ l.instr op = some i := by
  obtain ⟨l, p, -, hi⟩ | ⟨he, -⟩ := exists_layout i
  · exact ⟨l, p.1, Option.some.inj (h.symm.trans (Layout.of_instr_eq_some hi).1), hi⟩
  · cases he.symm.trans h

/-! ### Encoding and decoding -/

theorem opAssigned_lt {op : Nat} (h : opAssigned op = true) : op < 2 ^ 8 := by
  simp only [opAssigned, Bool.or_eq_true, decide_eq_true_eq] at h
  omega

/-- The word of a layout decodes to that layout. -/
theorem Layout.decode_word {op : Nat} (hop : op < 2 ^ 8) (l : Layout) :
    bitsAt (l.word op).toNat 56 8 = op ∧ decode (l.word op).toNat (bitsAt (l.word op).toNat 48 3) = some l := by
  obtain ⟨ho, hl⟩ := (l.eq_word_iff hop _).mp rfl
  exact ⟨ho, (decode_eq_some _ _ _).mpr hl⟩

/-- A word is the one of the layout it decodes to. -/
theorem Layout.word_decode {w : BitVec 64} {l : Layout} (h : decode w.toNat (bitsAt w.toNat 48 3) = some l) :
    l.word (bitsAt w.toNat 56 8) = w :=
  ((l.eq_word_iff (bitsAt_lt _ _ _) w).mpr ⟨rfl, (decode_eq_some _ _ _).mp h⟩).symm

/-- Building and encoding are each other's inverse. -/
theorem buildInstr_eq_some_iff (w : BitVec 64) (i : Instr) : buildInstr w.toNat = some i ↔ encode i = some w := by
  rw [buildInstr_eq, Option.bind_eq_some_iff]
  constructor
  · rintro ⟨l, hl, hi⟩
    rw [(Layout.of_instr_eq_some hi).1, Layout.word_decode hl]
  · intro h
    obtain ⟨l, op, rfl, hi⟩ := exists_layout_of_encode h
    obtain ⟨-, -, -, ha⟩ := Layout.of_instr_eq_some hi
    obtain ⟨ho, hl⟩ := l.decode_word (opAssigned_lt ha)
    exact ⟨l, hl, ho.symm ▸ hi⟩

/-- An encoded instruction's opcode stands in bits 63:56 of its word, and is an assigned one. -/
theorem opcode_of_encode {w : BitVec 64} {i : Instr} (h : encode i = some w) :
    ∃ fmt, opFormat i = some (bitsAt w.toNat 56 8, fmt) ∧ 2 ≤ bitsAt w.toNat 56 8 ∧ opAssigned (bitsAt w.toNat 56 8) = true := by
  obtain ⟨l, op, rfl, hi⟩ := exists_layout_of_encode h
  obtain ⟨-, hf, h2, ha⟩ := Layout.of_instr_eq_some hi
  rw [(l.decode_word (opAssigned_lt ha)).1]
  exact ⟨l.format, hf, h2, ha⟩

/-- Everything decoding can answer (02 R54): the two faults, or the legal instruction that the word builds. -/
theorem decodeWord_cases (seq last : Bool) (w : BitVec 64) :
    decodeWord seq last w = .error .illegalEncoding ∨ decodeWord seq last w = .error .unimplemented
      ∨ ∃ i, buildInstr w.toNat = some i ∧ legal seq last i = true ∧ decodeWord seq last w = .ok i := by
  by_cases h1 : bitsAt w.toNat 56 8 ≤ 1
  · exact .inl (if_pos h1)
  by_cases hc : (!classOk seq (bitsAt w.toNat 56 8)) = true
  · exact .inl ((if_neg h1).trans (if_pos hc))
  by_cases ha : (!opAssigned (bitsAt w.toNat 56 8)) = true
  · exact .inr (.inl ((if_neg h1).trans ((if_neg hc).trans (if_pos ha))))
  cases hb : buildInstr w.toNat with
  | none => exact .inl (by simp only [decodeWord, h1, hc, ha, hb, Bool.false_eq_true, if_false])
  | some i =>
    by_cases hl : legal seq last i = true
    · exact .inr (.inr ⟨i, rfl, hl, by simp only [decodeWord, h1, hc, ha, hb, hl, Bool.false_eq_true, if_false, if_true]⟩)
    · exact .inl (by simp only [decodeWord, h1, hc, ha, hb, hl, Bool.false_eq_true, if_false])

/-- Decoding answers an instruction exactly where the word is that of it and the instruction is legal there. -/
theorem decodeWord_eq_ok_iff (seq last : Bool) (w : BitVec 64) (i : Instr) :
    decodeWord seq last w = .ok i ↔ encode i = some w ∧ legal seq last i = true := by
  constructor
  · intro h
    obtain he | he | ⟨j, hb, hl, hj⟩ := decodeWord_cases seq last w
    · cases h.symm.trans he
    · cases h.symm.trans he
    · cases h.symm.trans hj
      exact ⟨(buildInstr_eq_some_iff w i).mp hb, hl⟩
  · rintro ⟨he, hl⟩
    obtain ⟨fmt, hf, h2, ha⟩ := opcode_of_encode he
    have hc : classOk seq (bitsAt w.toNat 56 8) = true := by
      simp only [legal, hf, Bool.and_eq_true] at hl
      exact hl.1.1
    simp only [decodeWord, (buildInstr_eq_some_iff w i).mpr he, hl, hc, ha, if_neg (Nat.not_le.mpr h2), Bool.not_true, Bool.false_eq_true, if_false, if_true]

end Sys2Proof.Machine

open Sys2Proof Sys2Proof.Machine

/-- Settles O14: a well-formed instruction has an opcode, hence a word, and decoding a word is the inverse of encoding a legal instruction. -/
theorem decodeOfEncode : Obligations.DecodeOfEncode := by
  intro seq last i ⟨hs, hl⟩
  obtain ⟨w, hw⟩ := Option.isSome_iff_exists.mp ((encode_isSome i).trans hs)
  exact ⟨w, hw, (decodeWord_eq_ok_iff seq last w i).mpr ⟨hw, hl⟩⟩

/-- Settles O15: the other direction of the same inverse; an encoded instruction has an opcode. -/
theorem encodeOfDecode : Obligations.EncodeOfDecode := by
  intro seq last w i h
  obtain ⟨he, hl⟩ := (decodeWord_eq_ok_iff seq last w i).mp h
  exact ⟨he, by rw [← encode_isSome, he]; rfl, hl⟩

/-- Settles O16: the decoder run on each word. -/
theorem sampleWords : Obligations.SampleWords := ⟨rfl, rfl, rfl, rfl, rfl, rfl, rfl⟩

end

section
/-! PROOFS. From a fetched word to a step (02 R30, R31, R52 to R56): what a word that is no instruction does, and what the issue of a word runs. Settles O17, O18, O19. -/

namespace Sys2Proof.Machine

/-! ### Words that are no instruction -/

/-- 02 R54: decoding raises no fault but those of steps 1 to 7. -/
theorem decodeWord_error {seq last : Bool} {w : BitVec 64} {code : Code} (h : decodeWord seq last w = .error code) :
    code = .illegalEncoding ∨ code = .unimplemented := by
  obtain he | he | ⟨i, -, -, hi⟩ := decodeWord_cases seq last w
  · exact .inl (Except.error.inj (h.symm.trans he))
  · exact .inr (Except.error.inj (h.symm.trans he))
  · cases h.symm.trans hi

/-- 02 R54: such a word takes the trap of the check that it fails. -/
theorem exec_wordNotAnInstruction {s : State} {c : Ctx} {w : BitVec 64} {code : Code} (hc : s.ctx = some c)
    (h : decodeWord c.g.seq c.f.atLast w = .error code) :
    exec (.wordNotAnInstruction w) s = .next (s.takeTrap c (faultAt code c.f.pc w.toNat)) := by
  change execWordNotAnInstruction w s = _
  simp only [execWordNotAnInstruction, hc, h, Ctx.trapped]

/-- 02 R52: step 2 comes before the question whether the opcode is assigned. -/
theorem decodeWord_reserved {last : Bool} {w : BitVec 64} (h1 : 0xC0 ≤ bitsAt w.toNat 56 8) (h2 : bitsAt w.toNat 56 8 ≤ 0xD7) :
    decodeWord false last w = .error .illegalEncoding := by
  have hc : classOk false (bitsAt w.toNat 56 8) = false := by
    simp only [classOk, h1, h2, Bool.false_eq_true, if_false, and_self, decide_true, Bool.not_true]
  have h0 : ¬ bitsAt w.toNat 56 8 ≤ 1 := by omega
  simp only [decodeWord, hc, h0, if_false, Bool.not_false, if_true]

/-! ### Decoding in a context -/

theorem Ctx.decode_of_error {c : Ctx} {w : BitVec 64} {code : Code} (h : decodeWord c.g.seq c.f.atLast w = .error code) :
    c.decode w = .wordNotAnInstruction w := by simp only [Ctx.decode, h]

theorem Ctx.decode_of_ok {c : Ctx} {w : BitVec 64} {i : Instr} (h : decodeWord c.g.seq c.f.atLast w = .ok i) :
    c.decode w = i := by simp only [Ctx.decode, h]

/-! ### The issue of a word -/

theorem State.noteBreak_of_life {s : State} {c : Ctx} (h : c.b.life ≠ .quiesced) : s.noteBreak c = s := by
  unfold State.noteBreak
  split
  · exact if_neg h
  · rfl

/-- A fragment inside its block, with nothing before its word, runs what the fetched word decodes to. -/
theorem State.prepare_word {s : State} {p : Issuer} {c : Ctx} {w : BitVec 64} (hc : s.ctxOf p.group p.frag = some c) (hi : c.issues s = true)
    (hb : s.boundary c = none) (hp : c.f.phase = .run) (hw : (s.noteBreak c).peek c c.f.pc = .word w) :
    s.prepare p = .run (c.decode w) (((s.noteBreak c).noteFetch c c.f.pc).issued p w) := by
  simp only [State.prepare, hc, hi, hb, hp, State.fetch, hw, Bool.not_true, Bool.false_eq_true, if_false, reduceCtorEq]

theorem State.afterStep_unheld {t : State} {c : Ctx} (h : c.b.hold = none) : t.afterStep c = t := by simp only [State.afterStep, h]

theorem thenDo_id {h : State → State} (hh : ∀ t, h t = t) (o : Out) : thenDo h o = o := by
  cases o <;> simp only [thenDo, hh]

theorem step_issue_word {s s1 : State} {p : Issuer} {i : Instr} {t : State} (hs : s.pick = some (.issue p, s1)) (hp : s1.prepare p = .run i t) :
    step s = thenDo (s1.settled p) (exec i t) := by simp only [step, hs, hp]

end Sys2Proof.Machine

open Sys2Proof Sys2Proof.Machine

/-- Settles O17: the class check of step 2 refuses the opcode, and the word takes that fault's trap. -/
theorem sequencerOpcodesReserved : Obligations.SequencerOpcodesReserved := by
  intro s c w hc hg h1 h2
  have hd : decodeWord c.g.seq c.f.atLast w = .error .illegalEncoding := hg ▸ decodeWord_reserved h1 h2
  exact ⟨hd, Ctx.decode_of_error hd, exec_wordNotAnInstruction hc hd⟩

/-- Settles O18: the word executes as the trap of its fault, and the steps of decoding raise two faults alone. -/
theorem undecodedWordTraps : Obligations.UndecodedWordTraps :=
  fun _ _ _ _ hc hd => ⟨exec_wordNotAnInstruction hc hd, decodeWord_error hd⟩

/-- Settles O19: the boundary is passed, the fetch finds the word, and its context decodes it to the instruction; what follows the instruction is only the hold of a single step. -/
theorem stepRunsDecoded : Obligations.StepRunsDecoded := by
  intro s s1 p c w i hs hc hi hb hp hw hd
  refine ⟨?_, State.noteBreak_of_life, fun hh => thenDo_id fun t => ?_⟩
  · rw [step_issue_word hs (State.prepare_word hc hi hb hp hw), Ctx.decode_of_ok hd]
  · simp only [State.settled, hc, State.afterStep_unheld hh]

end

section
/-! PROOFS. The prologue that instructions on registers share (02 R38, 17 R369): an empty effective mask and a poisoned source. Settles O13. -/

namespace Sys2Proof.Machine

/-- The group with its fragment past the word, and nothing written. -/
theorem moved_putGroup_advance {s : State} {c : Ctx} :
    Moved s (s.putGroup c.uid (c.g.advance c.fid c.f)) c c.f.next :=
  ⟨onlyGroup_putGroup _ _ _, c.g.advance c.fid c.f, by rw [State.putGroup_get, if_pos rfl], rfl, ⟨rfl, rfl, rfl, rfl, rfl⟩,
    oneFrag_advance _ _ _ _ rfl⟩

section
variable {s : State} {c : Ctx} {g : Guard} {ds ss : List (Nat × Opnd)}

/-- The case of `alu_idle` for an instruction that reaches beyond the registers. -/
theorem sysInstr_idle {k : Ctx → Mask → Act} (hc : s.ctx = some c) (hp : s.precheck c (ds ++ ss) = none) (he : c.eff g = 0) :
    sysInstr s g ds ss k = .next (s.putGroup c.uid (c.g.advance c.fid c.f)) := by
  simp only [sysInstr, sysFull, hc, hp, he, if_true, Bool.false_eq_true, if_false]

/-- The case of `alu_poisoned` for an instruction that reaches beyond the registers. -/
theorem sysInstr_poisoned {r : Bool × Nat} {k : Ctx → Mask → Act} (hc : s.ctx = some c) (hp : s.precheck c (ds ++ ss) = none) (he : c.eff g ≠ 0)
    (hq : c.g.poisoned (c.eff g) (usedRegs ss) = some r) :
    sysInstr s g ds ss k = c.trapped s { kind := 0, code := .poison, pc := c.f.pc, info := poisonInfo r } := by
  simp only [sysInstr, sysFull, hc, hp, he, hq, Bool.false_eq_true, if_false]

end

/-- Under a guard the instruction writes the registers of `ds` and reads those of `ss`, through one of the two prologues shared by all such instructions: `alu` on registers alone, `sysInstr` beyond them. -/
def UsesRegs (i : Instr) (g : Guard) (ds ss : List (Nat × Opnd)) (cross : Bool) : Prop :=
  ∀ s, (∃ k, exec i s = alu s g ds ss cross k) ∨ ∃ k, exec i s = sysInstr s g ds ss k

section
variable {i : Instr} {s : State} {c : Ctx} {g : Guard} {ds ss : List (Nat × Opnd)} {cross : Bool}

/-- With no lane in the effective mask the fragment only goes on (02 R38). -/
theorem UsesRegs.idle (hu : UsesRegs i g ds ss cross) (hc : s.ctx = some c) (hp : s.precheck c (ds ++ ss) = none) (he : c.eff g = 0) :
    exec i s = .next (s.putGroup c.uid (c.g.advance c.fid c.f)) := by
  obtain ⟨k, hk⟩ | ⟨k, hk⟩ := hu s
  · rw [hk, alu_idle hc hp he]
  · rw [hk, sysInstr_idle hc hp he]

/-- A poisoned source is trapped on (17 R369). -/
theorem UsesRegs.poisoned {r : Bool × Nat} (hu : UsesRegs i g ds ss false) (hc : s.ctx = some c) (hp : s.precheck c (ds ++ ss) = none)
    (he : c.eff g ≠ 0) (hq : c.g.poisoned (c.eff g) (usedRegs ss) = some r) :
    exec i s = .next (s.takeTrap c { kind := 0, code := .poison, pc := c.f.pc, info := poisonInfo r }) := by
  obtain ⟨k, hk⟩ | ⟨k, hk⟩ := hu s
  · exact hk.trans (alu_poisoned (cross := false) hc hp he hq)
  · exact hk.trans (sysInstr_poisoned hc hp he hq)

end

theorem usesRegs_add (f : FormA) : UsesRegs (.add f) f.g [(tyRegs f.ty, f.dst)] [(tyRegs f.ty, f.a), (tyRegs f.ty, f.b)] false := by
  intro s
  unfold exec execAdd aluA2
  exact .inl ⟨_, rfl⟩

theorem usesRegs_addImm (f : FormC) : UsesRegs (.addImm f) f.g [(1, f.dst)] [(1, f.a)] false := by
  intro s
  unfold exec execAddImm aluC1
  exact .inl ⟨_, rfl⟩

theorem usesRegs_fma (f : FormB) : UsesRegs (.fma f) f.g [(1, f.dst)] [(1, f.a), (1, f.b), (1, f.c)] false := by
  intro s
  unfold exec execFma aluB3
  exact .inl ⟨_, rfl⟩

theorem usesRegs_movi (f : FormD) : UsesRegs (.movi f) f.g [(1, f.dst)] [] false := by
  intro s
  unfold exec execMovi
  exact .inl ⟨_, rfl⟩

theorem usesRegs_perm (f : FormA) : UsesRegs (.perm f) f.g [(1, f.dst)] [(1, f.a), (1, f.b)] true := by
  intro s
  unfold exec execPerm
  exact .inl ⟨_, rfl⟩

theorem usesRegs_mand (f : FormA) : UsesRegs (.mand f) f.g [] [] false := by
  intro s
  unfold exec execMand maskOp
  exact .inl ⟨_, rfl⟩

theorem usesRegs_ld (f : FormE) : UsesRegs (.ld f) f.g [(sizeRegs f.size, f.data)] (baseUsed f ++ offUsed f.off) false := by
  intro s
  unfold exec execLd load
  exact .inr ⟨_, rfl⟩

theorem usesRegs_st (f : FormE) : UsesRegs (.st f) f.g [] ((sizeRegs f.size, f.data) :: baseUsed f ++ offUsed f.off) false := by
  intro s
  unfold exec execSt store
  exact .inr ⟨_, rfl⟩

theorem usesRegs_pub (f : FormG) : UsesRegs (.pub f) f.g [] [] false := by
  intro s
  unfold exec execPub
  exact .inr ⟨_, rfl⟩

end Sys2Proof.Machine

open Sys2Proof Sys2Proof.Machine

/-- Settles O13: each form runs through one of the two shared prologues, which go on with no lane and trap on a poisoned source before any effect. -/
theorem maskAndPoison : Obligations.MaskAndPoison := by
  constructor
  · intro i g ds ss s c hi hc hp he
    have hu : ∃ cross, UsesRegs i g ds ss cross := by
      obtain ⟨f, rfl, rfl, rfl, rfl⟩ | ⟨f, rfl, rfl, rfl, rfl⟩ | ⟨f, rfl, rfl, rfl, rfl⟩ | ⟨f, rfl, rfl, rfl, rfl⟩ | ⟨f, rfl, rfl, rfl, rfl⟩
        | ⟨f, rfl, rfl, rfl, rfl⟩ | ⟨f, rfl, rfl, rfl, rfl⟩ | ⟨f, rfl, rfl, rfl, rfl⟩ | ⟨f, rfl, rfl, rfl, rfl⟩ := hi
      · exact ⟨_, usesRegs_add f⟩
      · exact ⟨_, usesRegs_fma f⟩
      · exact ⟨_, usesRegs_addImm f⟩
      · exact ⟨_, usesRegs_movi f⟩
      · exact ⟨_, usesRegs_perm f⟩
      · exact ⟨_, usesRegs_mand f⟩
      · exact ⟨_, usesRegs_ld f⟩
      · exact ⟨_, usesRegs_st f⟩
      · exact ⟨_, usesRegs_pub f⟩
    obtain ⟨_, hu⟩ := hu
    exact ⟨_, hu.idle hc hp he, moved_putGroup_advance⟩
  · intro i g ds ss s c r hi hc hp he hq
    have hu : UsesRegs i g ds ss false := by
      obtain ⟨f, rfl, rfl, rfl, rfl⟩ | ⟨f, rfl, rfl, rfl, rfl⟩ | ⟨f, rfl, rfl, rfl, rfl⟩ | ⟨f, rfl, rfl, rfl, rfl⟩ := hi
      · exact usesRegs_add f
      · exact usesRegs_fma f
      · exact usesRegs_addImm f
      · exact usesRegs_st f
    exact hu.poisoned hc hp he hq
end

section
/-! PROOFS. Signs of floating-point zeros (04 R77, R83, R85): a finite code's value is the code's sign on a rational that its magnitude alone gives, and a finite value rounds to its own sign on a magnitude. Settles O8. -/

namespace Sys2Proof.Machine

/-! ### Codes -/

theorem Fmt.top_lt_signBit (f : Fmt) : f.top < f.signBit := by
  have hs : f.signBit = 2 ^ f.ew * 2 ^ f.mw := Nat.pow_add 2 f.ew f.mw
  have he := Nat.two_pow_pos f.ew
  cases hi : f.inf with
  | true =>
    simp only [Fmt.top, hi, if_true, hs]
    exact Nat.mul_lt_mul_of_pos_right (by omega) (Nat.two_pow_pos f.mw)
  | false =>
    simp only [Fmt.top, hi, Bool.false_eq_true, if_false]
    exact Nat.sub_one_lt (Nat.ne_of_gt (Nat.two_pow_pos _))

theorem Fmt.maxCode_le_top (f : Fmt) : f.maxCode ≤ f.top := Nat.sub_le _ _

theorem Fmt.neg_signed {f : Fmt} {m : Nat} (s : Bool) (h : m < f.signBit) : f.neg (f.signed s m) = s := by
  have hp : 0 < f.signBit := Nat.two_pow_pos _
  cases s with
  | false => simp only [Fmt.neg, Fmt.signed, Bool.false_eq_true, if_false, Nat.zero_add, Nat.div_eq_of_lt h]; rfl
  | true => simp only [Fmt.neg, Fmt.signed, if_true, Nat.add_div_left m hp, Nat.div_eq_of_lt h]; rfl

theorem Fmt.mag_signed {f : Fmt} {m : Nat} (s : Bool) (h : m < f.signBit) : f.mag (f.signed s m) = m := by
  cases s with
  | false => simp only [Fmt.mag, Fmt.signed, Bool.false_eq_true, if_false, Nat.zero_add, Nat.mod_eq_of_lt h]
  | true => simp only [Fmt.mag, Fmt.signed, if_true, Nat.add_mod_left, Nat.mod_eq_of_lt h]

/-- A code of the format is its sign on its magnitude. -/
theorem Fmt.signed_neg_mag {f : Fmt} {c : Nat} (h : c < 2 * f.signBit) : f.signed (f.neg c) (f.mag c) = c := by
  obtain hc | hc := Nat.lt_or_ge c f.signBit
  · have hs : f.signed false c = c := Nat.zero_add c
    rw [← hs, Fmt.neg_signed false hc, Fmt.mag_signed false hc]
  · obtain ⟨m, rfl⟩ := Nat.exists_eq_add_of_le hc
    have hm : m < f.signBit := by omega
    have hs : f.signed true m = f.signBit + m := rfl
    rw [← hs, Fmt.neg_signed true hm, Fmt.mag_signed true hm]

/-! ### Exact values of finite codes -/

/-- The rational of `mkFin` does not depend on the sign, and is zero for the numerator zero. -/
theorem mkFin_sign_apart (n d : Nat) (k : Int) : ∃ n' d', (n = 0 → n' = 0) ∧ ∀ s, mkFin s n d k = .fin s n' d' := by
  refine ⟨_, _, fun h => ?_, fun s => rfl⟩
  simp only [h, Nat.zero_mul, ite_self, Nat.zero_div]

/-- The two codes of a finite magnitude have the values of either sign on one rational, which is zero for the magnitude zero. -/
theorem Fmt.value_signed {f : Fmt} {m : Nat} (h : m < f.top) :
    ∃ n d, (m = 0 → n = 0) ∧ ∀ s, f.value (f.signed s m) = .fin s n d := by
  have hb : m < f.signBit := Nat.lt_trans h f.top_lt_signBit
  have hm : (m == f.top) = false := beq_false_of_ne (Nat.ne_of_lt h)
  have hnan : ∀ s, f.isNan (f.signed s m) = false := fun s => by
    rw [Fmt.isNan, Fmt.mag_signed s hb, decide_eq_false (Nat.not_lt.mpr (Nat.le_of_lt h)), hm, ite_self]
  have hinf : ∀ s, f.isInf (f.signed s m) = false := fun s => by
    rw [Fmt.isInf, Fmt.mag_signed s hb, hm, Bool.and_false]
  simp only [Fmt.value, hnan, hinf, Fmt.neg_signed _ hb, Fmt.mag_signed _ hb, Bool.false_eq_true, if_false]
  by_cases he : m / 2 ^ f.mw = 0
  · simp only [he, if_true]
    obtain ⟨n, d, hz, hv⟩ := mkFin_sign_apart (m % 2 ^ f.mw) 1 (f.emin - f.mw)
    exact ⟨n, d, fun hm => hz (by rw [hm, Nat.zero_mod]), hv⟩
  · simp only [he, if_false]
    obtain ⟨n, d, -, hv⟩ := mkFin_sign_apart (2 ^ f.mw + m % 2 ^ f.mw) 1 ((m / 2 ^ f.mw : Nat) - 1 + f.emin - f.mw)
    exact ⟨n, d, fun hm => absurd (by rw [hm, Nat.zero_div]) he, hv⟩

theorem Fmt.value_of_finite {f : Fmt} {c : Nat} (hc : c < 2 * f.signBit) (h : f.mag c < f.top) :
    ∃ n d, (f.mag c = 0 → n = 0) ∧ f.value c = .fin (f.neg c) n d
      ∧ f.value (f.signed (!f.neg c) (f.mag c)) = .fin (!f.neg c) n d := by
  obtain ⟨n, d, hz, hv⟩ := Fmt.value_signed h
  refine ⟨n, d, hz, ?_, hv _⟩
  rw [← hv (f.neg c), Fmt.signed_neg_mag hc]

/-! ### Sums and products of finite values -/

theorem XR.add_opposite (rdn s : Bool) (n d : Nat) : XR.add rdn (.fin s n d) (.fin (!s) n d) = .fin rdn 0 1 := by
  have hs : ¬s = !s := by cases s <;> decide
  have hx : (if s then -1 else 1) * ((n * d : Nat) : Int) + (if !s then -1 else 1) * ((n * d : Nat) : Int) = 0 := by
    cases s
    · simp only [Bool.not_false, Bool.false_eq_true, if_false, if_true]
      omega
    · simp only [Bool.not_true, Bool.false_eq_true, if_false, if_true]
      omega
  simp only [XR.add, if_neg hs, if_pos hx, ite_self]

theorem XR.add_zeros (rdn s : Bool) (d e : Nat) : XR.add rdn (.fin s 0 d) (.fin s 0 e) = .fin s 0 1 := by
  simp only [XR.add, and_self, if_true]

theorem XR.mul_fin (s t : Bool) (n d m e : Nat) : XR.mul (.fin s n d) (.fin t m e) = mkFin (s != t) (n * m) (d * e) 0 := rfl

/-! ### Rounding -/

theorem roundF_zero (f : Fmt) (mode : Rnd) (sat : Bool) (r : Nat) (s : Bool) (d : Nat) : roundF f mode sat r (.fin s 0 d) = f.signed s 0 := by
  simp only [roundF, if_true]

theorem overflow_signed (f : Fmt) (mode : Rnd) (sat s : Bool) : ∃ c ≤ f.top, overflow f mode sat s = f.signed s c := by
  refine ⟨_, ?_, rfl⟩
  have hm := f.maxCode_le_top
  split
  · exact hm
  · split
    · exact Nat.le_refl _
    · cases mode with
      | rne | rna | sr => exact Nat.le_refl _
      | rtz => exact hm
      | rup =>
        cases s
        · exact Nat.le_refl _
        · exact hm
      | rdn =>
        cases s
        · exact hm
        · exact Nat.le_refl _

theorem signed_or_overflow (f : Fmt) (mode : Rnd) (sat s : Bool) (code : Nat) :
    ∃ c ≤ f.top, (if f.maxCode < code then overflow f mode sat s else f.signed s code) = f.signed s c := by
  split
  next => exact overflow_signed f mode sat s
  next h => exact ⟨code, Nat.le_trans (Nat.le_of_not_lt h) f.maxCode_le_top, rfl⟩

/-- A finite value rounds to its own sign on a magnitude, an overflow included. -/
theorem roundF_fin (f : Fmt) (mode : Rnd) (sat : Bool) (r : Nat) (s : Bool) (n d : Nat) :
    ∃ c ≤ f.top, roundF f mode sat r (.fin s n d) = f.signed s c := by
  obtain rfl | hn := Nat.eq_zero_or_pos n
  · exact ⟨0, Nat.zero_le _, roundF_zero f mode sat r s d⟩
  · simp only [roundF, if_neg (Nat.ne_of_gt hn)]
    exact signed_or_overflow f mode sat s _

/-- A finite value that comes out as zero comes out as the zero of its sign. -/
theorem roundF_fin_of_mag_eq_zero {f : Fmt} {mode : Rnd} {sat : Bool} {r : Nat} {s : Bool} {n d : Nat}
    (h : f.mag (roundF f mode sat r (.fin s n d)) = 0) : roundF f mode sat r (.fin s n d) = f.signed s 0 := by
  obtain ⟨c, hc, hr⟩ := roundF_fin f mode sat r s n d
  rw [hr, Fmt.mag_signed s (Nat.lt_of_le_of_lt hc f.top_lt_signBit)] at h
  rw [hr, h]

end Sys2Proof.Machine

open Sys2Proof Sys2Proof.Machine

/-- Settles O8: each operand's value is its sign on a rational of its magnitude; opposite signs on one rational cancel, and a product's sign is set before rounding, which keeps it. -/
theorem floatZeroSigns : Obligations.FloatZeroSigns := by
  intro t m sat r x y _ hx hy hfx hfy
  obtain ⟨n, d, hn, hvx, hvx'⟩ := Fmt.value_of_finite hx hfx
  obtain ⟨k, e, -, hvy, -⟩ := Fmt.value_of_finite hy hfy
  obtain ⟨z, b, hz, hv0⟩ := Fmt.value_signed (Nat.zero_lt_of_lt hfx)
  obtain rfl : z = 0 := hz rfl
  simp only [hvx, hvx', hvy, hv0, XR.negate, XR.add_opposite, XR.add_zeros, XR.mul_fin, roundF_zero, implies_true, true_and]
  refine ⟨fun h0 => ?_, roundF_fin_of_mag_eq_zero⟩
  obtain ⟨p, q, hp, hpq⟩ := mkFin_sign_apart (n * k) (d * e) 0
  rw [hpq, hp (by rw [hn h0, Nat.zero_mul]), roundF_zero]
end

section
/-! PROOFS. How an instruction on registers whose arm is the shared prologue `alu` completes where nothing stops it: with a result in a destination, with bits in mask registers, or with the fragment's own record changed. -/

namespace Sys2Proof.Machine

/-- An instruction goes where its arm goes. -/
theorem next_of_arm {i : Instr} {s : State} {p : State → Prop} (arm : Out) (hi : exec i s = arm) (h : ∃ t, arm = .next t ∧ p t) :
    ∃ t, exec i s = .next t ∧ p t := hi ▸ h

/-! ### The group that the own part gives -/

theorem OneFrag.getD {g h : Group} {fid : Nat} {f : Frag} (hf : OneFrag g h fid f) (f' : Frag) : h.frags.getD fid f' = f := by
  rw [Table.getD_eq, hf fid, if_pos rfl]
  rfl

theorem OneFrag.putFrag {g h : Group} {fid : Nat} {f : Frag} (hf : OneFrag g h fid f) (f' : Frag) : OneFrag g (h.putFrag fid f') fid f' := by
  intro k
  simp only [Group.putFrag, Table.get_put, hf k]
  split <;> rfl

/-- A group whose fragments are those of the context. -/
theorem oneFrag_of_frags_eq {s : State} {c : Ctx} {h : Group} (hc : s.ctx = some c) (hh : h.frags = c.g.frags) : OneFrag c.g h c.fid c.f := by
  intro k
  rw [hh]
  split
  next hk => exact hk ▸ (State.ctx_some hc).2.1
  next => rfl

/-- A register write leaves the fragments as they were. -/
theorem oneFrag_writes {s : State} {c : Ctx} (hc : s.ctx = some c) (ws : List RegWrite) : OneFrag c.g (c.g.writes ws) c.fid c.f :=
  oneFrag_of_frags_eq hc (Group.writes_frags c.g ws)

theorem wroteReg_putFrag {g h : Group} {m : Mask} {n : Nat} {d : Opnd} {val : Nat → Nat} (fid : Nat) (f : Frag) (hw : WroteReg g h m n d val) :
    WroteReg g (h.putFrag fid f) m n d val := by cases d <;> exact hw

section
variable {s : State} {c : Ctx} {g : Guard} {ds ss : List (Nat × Opnd)} {cross : Bool} {k : Ctx → Mask → Except Trap Group} {h : Group} {f : Frag}

/-- Where nothing stops it, an `alu` whose own part leaves the issuing fragment as `f` leaves the group of that part with the fragment gone on. -/
theorem alu_next (hc : Clear s c g ds ss cross) (hk : k c (c.eff g) = .ok h) (hf : OneFrag c.g h c.fid f) :
    ∃ t, alu s g ds ss cross k = .next t ∧ OnlyGroup s t c.uid ∧ t.groups.get c.uid = some (h.advance c.fid f) := by
  refine ⟨_, alu_clear hc hk, onlyGroup_putGroup _ _ _, ?_⟩
  rw [State.putGroup_get, if_pos rfl, hf.getD]

/-- An own part that writes a result and may change the issuing fragment's record. -/
theorem alu_wroteFrom {n : Nat} {d : Opnd} {val : Nat → Nat} (hc : Clear s c g ds ss cross) (hk : k c (c.eff g) = .ok h) (hf : OneFrag c.g h c.fid f)
    (hframe : h.frame = c.g.frame) (hw : WroteReg c.g h (c.eff g) n d val) :
    ∃ t, alu s g ds ss cross k = .next t ∧ WroteFrom s t c f (c.eff g) n d val := by
  obtain ⟨t, ht, ho, hg⟩ := alu_next hc hk hf
  exact ⟨t, ht, ho, _, hg, hframe, hf.putFrag _, wroteReg_advance _ _ hw⟩

/-- An own part that changes the issuing fragment's record alone. -/
theorem alu_moved (hc : Clear s c g ds ss cross) (hk : k c (c.eff g) = .ok (c.g.putFrag c.fid f)) :
    ∃ t, alu s g ds ss cross k = .next t ∧ Moved s t c f.next := by
  have hf := (oneFrag_of_frags_eq hc.1 rfl).putFrag f
  obtain ⟨t, ht, ho, hg⟩ := alu_next hc hk hf
  exact ⟨t, ht, ho, _, hg, rfl, ⟨rfl, rfl, rfl, rfl, rfl⟩, hf.putFrag _⟩

end

/-! ### The shapes of operands -/

theorem ComputesA2.of_aluA2 {i : FormA → Instr} {nd na nb : FormA → Nat} {op : FormA → Nat → Nat → Nat}
    (hi : ∀ f s, exec (i f) s = aluA2 s f (nd f) (na f) (nb f) (op f)) : ComputesA2 i nd na nb op :=
  fun f s _ hc => hi f s ▸ alu_wrote hc rfl

theorem ComputesA1.of_aluA1 {i : FormA → Instr} {nd na : FormA → Nat} {op : FormA → Nat → Nat}
    (hi : ∀ f s, exec (i f) s = aluA1 s f (nd f) (na f) (op f)) : ComputesA1 i nd na op :=
  fun f s _ hc => hi f s ▸ alu_wrote hc rfl

theorem ComputesB3.of_aluB3 {i : FormB → Instr} {nd na nb nc : Nat} {op : FormB → Nat → Nat → Nat → Nat}
    (hi : ∀ f s, exec (i f) s = aluB3 s f nd na nb nc (op f)) : ComputesB3 i nd na nb nc op :=
  fun f s _ hc => hi f s ▸ alu_wrote hc rfl

theorem ComputesC1.of_aluC1 {i : FormC → Instr} {op : FormC → Nat → Nat} (hi : ∀ f s, exec (i f) s = aluC1 s f (op f)) : ComputesC1 i op :=
  fun f s _ hc => hi f s ▸ alu_wrote hc rfl

/-- The shape of a stochastically rounded result: the passes step the fragment's state under `.sr` alone. -/
theorem aluSr_wroteFrom {s : State} {c : Ctx} {f : FormA} {nd : Nat} {ss : List (Nat × Opnd)} {val : Group → Nat → Nat → Nat}
    (hc : Clear s c f.g [(nd, f.dst)] ss false) :
    ∃ t, aluSr s f nd ss val = .next t ∧
      WroteFrom s t c (if f.rnd = .sr then { c.f with rnd := (srPasses c.f.rnd (c.eff f.g) (opndScalar f.dst)).2 } else c.f) (c.eff f.g) nd f.dst
        fun j => val c.g (passRnd (srPasses c.f.rnd (c.eff f.g) (opndScalar f.dst)).1 (opndScalar f.dst) j) j := by
  refine alu_wroteFrom hc rfl ?_ ?_ ?_
  all_goals (dsimp only; split)
  · exact (oneFrag_writes hc.1 _).putFrag _
  · exact oneFrag_writes hc.1 _
  · exact Group.writes_frame _ _
  · exact Group.writes_frame _ _
  · exact wroteReg_putFrag _ _ (wroteReg_writes _ _ _ _ _)
  · exact wroteReg_writes _ _ _ _ _

end Sys2Proof.Machine
end

section
/-! PROOFS. Integer and floating-point operations of one, two and three sources (05 R110, R111, R116, R121 to R126): the arm of each is the shape its statement gives it, on the same operation. Settles O1, O7. -/

open Sys2Proof Sys2Proof.Machine

/-- Settles O1: each arm is the shape of its operands on the stated operation, and the shape completes. -/
theorem integerArithmeticComplete : Obligations.IntegerArithmeticComplete := by
  refine ⟨⟨.of_aluA2 ?_, .of_aluA2 ?_, .of_aluA2 ?_, .of_aluA2 ?_, .of_aluA1 ?_, .of_aluA1 ?_, .of_aluA2 ?_, .of_aluA2 ?_,
    .of_aluC1 ?_, .of_aluC1 ?_, .of_aluC1 ?_, .of_aluC1 ?_⟩,
    .of_aluA2 ?_, .of_aluC1 ?_, .of_aluA2 ?_, .of_aluA2 ?_, .of_aluB3 ?_, .of_aluB3 ?_, .of_aluB3 ?_, .of_aluB3 ?_⟩
  all_goals exact fun _ _ => rfl

/-- Settles O7: each arm is the shape of its operands on the stated operation, and the shape completes. -/
theorem floatOperationsComplete : Obligations.FloatOperationsComplete := by
  refine ⟨⟨.of_aluA2 ?_, .of_aluA2 ?_, .of_aluA2 ?_, .of_aluB3 ?_, .of_aluB3 ?_, .of_aluB3 ?_, .of_aluA2 ?_, .of_aluA2 ?_, .of_aluA2 ?_,
    .of_aluA2 ?_, .of_aluA1 ?_, .of_aluA1 ?_, .of_aluA1 ?_⟩,
    .of_aluA1 ?_, .of_aluA1 ?_, .of_aluA1 ?_, .of_aluA1 ?_, .of_aluA1 ?_, .of_aluA1 ?_, .of_aluA1 ?_, .of_aluA1 ?_, .of_aluA1 ?_,
    .of_aluA1 ?_, .of_aluA1 ?_, .of_aluA2 ?_, .of_aluC1 ?_, .of_aluA1 ?_⟩
  all_goals exact fun _ _ => rfl
end

section
/-! PROOFS. Codes and exact integers (04 R80, R81, R86; 05 R105): wrapping, signed values, saturation, and the elements of a packed word. Settles O2. -/

namespace Sys2Proof.Machine

/-! ### Wrapping -/

theorem wrap_natCast (n x : Nat) : wrap n (x : Int) = x % 2 ^ n := by
  rw [wrap, ← Int.natCast_emod, Int.toNat_natCast]

theorem wrap_lt (n : Nat) (x : Int) : wrap n x < 2 ^ n := by
  have hp : (0 : Int) < (2 ^ n : Nat) := Int.natCast_pos.mpr (Nat.two_pow_pos n)
  have hlt := Int.emod_lt_of_pos x hp
  have hnn := Int.emod_nonneg x (Int.ne_of_gt hp)
  rw [wrap]
  omega

theorem wrap_of_nonneg_of_lt {n : Nat} {x : Int} (h0 : 0 ≤ x) (h : x < (2 ^ n : Nat)) : wrap n x = x.toNat := by
  rw [wrap, Int.emod_eq_of_lt h0 h]

/-! ### Signed codes -/

theorem signed_of_lt {v a : Nat} (ha : a < 2 ^ (v + 1)) :
    signed (v + 1) a = if a < 2 ^ v then (a : Int) else a - (2 ^ (v + 1) : Nat) := by
  simp only [signed, Nat.mod_eq_of_lt ha, Nat.add_sub_cancel]

theorem signed_bounds {v a : Nat} (ha : a < 2 ^ (v + 1)) : -((2 ^ v : Nat) : Int) ≤ signed (v + 1) a ∧ signed (v + 1) a < (2 ^ v : Nat) := by
  rw [signed_of_lt ha]
  have hp := Nat.pow_succ 2 v
  split <;> omega

theorem signed_mod (n a : Nat) : signed n (a % 2 ^ n) = signed n a := by simp only [signed, Nat.mod_mod]

/-! ### Values and codes of an integer format -/

theorem intVal_mod (w : Nat) (sg : Bool) (a : Nat) : intVal w sg (a % 2 ^ w) = intVal w sg a := by
  cases sg with
  | false => simp only [intVal, Nat.mod_mod, Bool.false_eq_true, if_false]
  | true => simp only [intVal, signed_mod, if_true]

theorem intVal_unsigned {w a : Nat} (ha : a < 2 ^ w) : intVal w false a = a := by
  simp only [intVal, Bool.false_eq_true, if_false, Nat.mod_eq_of_lt ha]

theorem intCode_wrapped (w : Nat) (sg : Bool) (x : Int) : intCode w sg false x = wrap w x := rfl

theorem intCode_lt (w : Nat) (sg sat : Bool) (x : Int) : intCode w sg sat x < 2 ^ w := wrap_lt _ _

/-- An unsigned saturated code is the nearest value (04 R86). -/
theorem intCode_saturated_unsigned (w : Nat) (x : Int) : intCode w false true x = (max 0 (min x (2 ^ w - 1))).toNat := by
  have hp := Nat.two_pow_pos w
  have hc : ((2 ^ w : Nat) : Int) = 2 ^ w := Int.natCast_pow 2 w
  rw [intCode, if_pos rfl, satInt, intMin, intMax, if_neg Bool.false_ne_true, if_neg Bool.false_ne_true, hc]
  exact wrap_of_nonneg_of_lt (by omega) (by omega)

/-- A signed saturated code is the code of the nearest value (04 R86). -/
theorem intCode_saturated_signed (v : Nat) (x : Int) :
    intCode (v + 1) true true x = wrap (v + 1) (max (-(2 ^ v)) (min x (2 ^ v - 1))) := by
  have hc : ((2 ^ v : Nat) : Int) = 2 ^ v := Int.natCast_pow 2 v
  rw [intCode, if_pos rfl, satInt, intMin, intMax, if_pos rfl, if_pos rfl, Nat.add_sub_cancel, hc]

/-- A value of the format is not saturated. -/
theorem intCode_of_bounds {v : Nat} {x : Int} (sat : Bool) (h0 : -((2 ^ v : Nat) : Int) ≤ x) (h1 : x < (2 ^ v : Nat)) :
    intCode (v + 1) true sat x = wrap (v + 1) x := by
  cases sat with
  | false => rfl
  | true =>
    have hc : ((2 ^ v : Nat) : Int) = 2 ^ v := Int.natCast_pow 2 v
    have hm : max (-(2 ^ v : Int)) (min x (2 ^ v - 1)) = x := by omega
    rw [intCode_saturated_signed, hm]

theorem intCode_natCast {w n : Nat} (sat : Bool) (h : n < 2 ^ w) : intCode w false sat n = n := by
  cases sat with
  | false => rw [intCode_wrapped, wrap_natCast, Nat.mod_eq_of_lt h]
  | true =>
    have hx : max 0 (min (n : Int) (2 ^ w - 1)) = n := by
      have hc : ((2 ^ w : Nat) : Int) = 2 ^ w := Int.natCast_pow 2 w
      omega
    rw [intCode_saturated_unsigned, hx, Int.toNat_natCast]

/-! ### Elements -/

theorem mapElems_lt (w n : Nat) (op : Nat → Nat → Nat) (a b : Nat) : mapElems w n op a b < 2 ^ (w * n) := by
  induction n generalizing a b with
  | zero => exact Nat.zero_lt_one
  | succ n ih =>
    have hlow : op (a % 2 ^ w) (b % 2 ^ w) % 2 ^ w < 2 ^ w := Nat.mod_lt _ (Nat.two_pow_pos w)
    calc mapElems w (n + 1) op a b < 2 ^ w + 2 ^ w * mapElems w n op (a / 2 ^ w) (b / 2 ^ w) := Nat.add_lt_add_right hlow _
      _ = 2 ^ w * (mapElems w n op (a / 2 ^ w) (b / 2 ^ w) + 1) := by rw [Nat.mul_succ, Nat.add_comm]
      _ ≤ 2 ^ w * 2 ^ (w * n) := Nat.mul_le_mul_left _ (ih _ _)
      _ = 2 ^ (w * (n + 1)) := by rw [← Nat.pow_add, Nat.mul_succ, Nat.add_comm]

/-- Each element of a packed word is computed by itself (04 R81). -/
theorem mapElems_element {w n i : Nat} (op : Nat → Nat → Nat) (a b : Nat) (hi : i < n) :
    mapElems w n op a b / 2 ^ (w * i) % 2 ^ w = op (a / 2 ^ (w * i) % 2 ^ w) (b / 2 ^ (w * i) % 2 ^ w) % 2 ^ w := by
  have hp := Nat.two_pow_pos w
  induction n generalizing a b i with
  | zero => exact absurd hi (Nat.not_lt_zero i)
  | succ n ih =>
    cases i with
    | zero => simp only [mapElems, Nat.mul_zero, Nat.pow_zero, Nat.div_one, Nat.add_mul_mod_self_left, Nat.mod_mod]
    | succ i =>
      have hshift : ∀ x, x / 2 ^ (w * (i + 1)) = x / 2 ^ w / 2 ^ (w * i) := fun x => by
        rw [Nat.div_div_eq_div_mul, ← Nat.pow_add, Nat.mul_succ, Nat.add_comm]
      rw [hshift, hshift a, hshift b, ← ih _ _ (Nat.lt_of_succ_lt_succ hi), mapElems, Nat.add_mul_div_left _ _ hp,
        Nat.div_eq_of_lt (Nat.mod_lt _ hp), Nat.zero_add]

section
variable {t : Ty} {w n : Nat} {sg : Bool} (sat : Bool) (op : Int → Int → Int) (x y : Nat)

theorem intElems_element (ht : elems t = (w, n, sg)) {i : Nat} (hi : i < n) :
    intElems t sat op x y / 2 ^ (w * i) % 2 ^ w =
      intCode w sg sat (op (intVal w sg (x / 2 ^ (w * i) % 2 ^ w)) (intVal w sg (y / 2 ^ (w * i) % 2 ^ w))) := by
  rw [intElems, ht]
  exact (mapElems_element _ x y hi).trans (Nat.mod_eq_of_lt (intCode_lt _ _ _ _))

theorem intElems_one (ht : elems t = (w, 1, sg)) : intElems t sat op x y = intCode w sg sat (op (intVal w sg x) (intVal w sg y)) := by
  have hlt : intElems t sat op x y < 2 ^ w := by
    rw [intElems, ht]
    exact (Nat.mul_one w ▸ mapElems_lt w 1 _ x y :)
  have he := intElems_element sat op x y ht Nat.zero_lt_one
  rwa [Nat.mul_zero, Nat.pow_zero, Nat.div_one, Nat.div_one, Nat.div_one, Nat.mod_eq_of_lt hlt, intVal_mod, intVal_mod] at he

end

/-- The four ways of 05 R105 at one element of v + 1 bits. -/
theorem intElems_one_rule {tn ts : Ty} {v : Nat} (hn : elems tn = (v + 1, 1, false)) (hs : elems ts = (v + 1, 1, true)) (op : Int → Int → Int)
    {x y : Nat} (hx : x < 2 ^ (v + 1)) (hy : y < 2 ^ (v + 1)) :
    intElems tn false op x y = wrap (v + 1) (op x y) ∧ intElems ts false op x y = wrap (v + 1) (op (signed (v + 1) x) (signed (v + 1) y))
    ∧ intElems tn true op x y = (max 0 (min (op x y) (2 ^ (v + 1) - 1))).toNat
    ∧ intElems ts true op x y = wrap (v + 1) (max (-(2 ^ v)) (min (op (signed (v + 1) x) (signed (v + 1) y)) (2 ^ v - 1))) := by
  refine ⟨?_, intElems_one false op x y hs, ?_, ?_⟩
  · rw [intElems_one false op x y hn, intCode_wrapped, intVal_unsigned hx, intVal_unsigned hy]
  · rw [intElems_one true op x y hn, intCode_saturated_unsigned, intVal_unsigned hx, intVal_unsigned hy]
  · rw [intElems_one true op x y hs, intCode_saturated_signed]
    rfl

end Sys2Proof.Machine

open Sys2Proof Sys2Proof.Machine

/-- Settles O2: one element is the code of the exact result, and an element of a packed word is computed by itself. -/
theorem integerElementRule : Obligations.IntegerElementRule := by
  refine ⟨fun sat op x y hx hy => ?_, fun op x y hx hy => intElems_one_rule (v := 63) rfl rfl op hx hy⟩
  obtain ⟨h1, h2, h3, h4⟩ := intElems_one_rule (tn := .n32) (ts := .s32) (v := 31) rfl rfl op hx hy
  refine ⟨h1, h2, h3, h4, fun i hi => ⟨?_, ?_⟩⟩
  · have hb : ∀ z, intVal 8 false (z / 2 ^ (8 * i) % 256) = (z / 2 ^ (8 * i) % 256 : Nat) := fun z => intVal_unsigned (Nat.mod_lt _ (by decide))
    have he := intElems_element (t := .n8x4) sat op x y rfl hi
    simp only [Nat.reducePow, hb] at he
    rw [he]
    cases sat with
    | false => rfl
    | true => exact intCode_saturated_unsigned 8 _
  · have he := intElems_element (t := .s8x4) sat op x y rfl hi
    simp only [Nat.reducePow] at he
    rw [he]
    cases sat with
    | false => rfl
    | true => exact intCode_saturated_signed 7 _
end

section
/-! PROOFS. Division and remainder (05 R112): the quotient of two codes lies within the format but for the lowest value over −1. Settles O3. -/

namespace Sys2Proof.Machine

/-! ### Unsigned -/

theorem divCode_unsigned {w a b : Nat} (sat : Bool) (ha : a < 2 ^ w) (hb : b < 2 ^ w) :
    divCode w false sat a b = if b = 0 then 2 ^ w - 1 else a / b := by
  simp only [divCode, intVal_unsigned ha, intVal_unsigned hb, Int.natCast_eq_zero]
  split
  · rw [if_neg (Int.not_lt.mpr (Int.natCast_nonneg a)), intMax, if_neg Bool.false_ne_true, wrap_of_nonneg_of_lt (by omega) (by omega)]
    omega
  · rw [← Int.ofNat_tdiv]
    exact intCode_natCast sat (Nat.lt_of_le_of_lt (Nat.div_le_self a b) ha)

theorem remCode_unsigned {w a b : Nat} (ha : a < 2 ^ w) (hb : b < 2 ^ w) : remCode w false a b = if b = 0 then a else a % b := by
  simp only [remCode, intVal_unsigned ha, intVal_unsigned hb, Int.natCast_eq_zero, Nat.mod_eq_of_lt ha]
  split
  · rfl
  · rw [← Int.tmod_def, ← Int.ofNat_tmod, wrap_natCast, Nat.mod_eq_of_lt (Nat.lt_of_le_of_lt (Nat.mod_le a b) ha)]

/-! ### Signed -/

section
variable {v a b : Nat} (ha : a < 2 ^ (v + 1)) (hb : b < 2 ^ (v + 1))

theorem wrap_neg_half (v : Nat) : wrap (v + 1) (-((2 ^ v : Nat) : Int)) = 2 ^ v := by
  have hp := Nat.pow_succ 2 v
  have hv := Nat.two_pow_pos v
  have hm : (-((2 ^ v : Nat) : Int)) % ((2 ^ (v + 1) : Nat) : Int) = (2 ^ v : Nat) := by
    rw [← Int.add_emod_right, Int.emod_eq_of_lt (by omega) (by omega)]
    omega
  rw [wrap, hm, Int.toNat_natCast]

include ha in
theorem signed_eq_zero_iff : signed (v + 1) a = 0 ↔ a = 0 := by
  rw [signed_of_lt ha]
  have hv := Nat.two_pow_pos v
  split <;> omega

include ha in
theorem signed_eq_lowest_iff : signed (v + 1) a = -((2 ^ v : Nat) : Int) ↔ a = 2 ^ v := by
  rw [signed_of_lt ha]
  have hp := Nat.pow_succ 2 v
  split <;> omega

include hb in
theorem signed_eq_neg_one_iff : signed (v + 1) b = -1 ↔ b = 2 ^ (v + 1) - 1 := by
  rw [signed_of_lt hb]
  have hp := Nat.pow_succ 2 v
  split <;> omega

/-- The quotient of two values lies within the format, but for the lowest value over −1. -/
theorem tdiv_bounds {h x y : Int} (hx : -h ≤ x) (hx' : x < h) (hxy : ¬(x = -h ∧ y = -1)) : -h ≤ x.tdiv y ∧ x.tdiv y < h := by
  have hq : (x.tdiv y).natAbs = x.natAbs / y.natAbs := Int.natAbs_tdiv x y
  by_cases h2 : 2 ≤ y.natAbs
  · have hle : x.natAbs / y.natAbs ≤ x.natAbs / 2 := Nat.div_le_div_left h2 Nat.zero_lt_two
    omega
  · obtain rfl | rfl | rfl : y = 0 ∨ y = 1 ∨ y = -1 := by omega
    · rw [Int.tdiv_zero]
      omega
    · rw [Int.tdiv_one]
      exact ⟨hx, hx'⟩
    · rw [Int.tdiv_neg, Int.tdiv_one]
      omega

theorem intCode_half_saturated (v : Nat) : intCode (v + 1) true true (2 ^ v : Nat) = 2 ^ v - 1 := by
  have hp := Nat.pow_succ 2 v
  have hv := Nat.two_pow_pos v
  have hc : ((2 ^ v : Nat) : Int) = 2 ^ v := Int.natCast_pow 2 v
  have hm : max (-(2 ^ v : Int)) (min ((2 ^ v : Nat) : Int) (2 ^ v - 1)) = (2 ^ v - 1 : Nat) := by omega
  rw [intCode_saturated_signed, hm, wrap_natCast, Nat.mod_eq_of_lt (by omega)]

include ha hb

theorem divCode_signed (sat : Bool) :
    divCode (v + 1) true sat a b =
      if b = 0 then (if signed (v + 1) a < 0 then 2 ^ v else 2 ^ v - 1)
      else if a = 2 ^ v ∧ b = 2 ^ (v + 1) - 1 then (if sat then 2 ^ v - 1 else 2 ^ v)
      else wrap (v + 1) ((signed (v + 1) a).tdiv (signed (v + 1) b)) := by
  have hp := Nat.pow_succ 2 v
  have hv := Nat.two_pow_pos v
  simp only [divCode, intVal, if_true, signed_eq_zero_iff hb, intMin, intMax, Nat.add_sub_cancel]
  by_cases h0 : b = 0
  · simp only [h0, if_true]
    split
    · exact wrap_neg_half v
    · rw [wrap_of_nonneg_of_lt (by omega) (by omega)]
      omega
  · simp only [h0, if_false]
    by_cases hlow : a = 2 ^ v ∧ b = 2 ^ (v + 1) - 1
    · have hq : (signed (v + 1) a).tdiv (signed (v + 1) b) = (2 ^ v : Nat) := by
        rw [(signed_eq_lowest_iff ha).mpr hlow.1, (signed_eq_neg_one_iff hb).mpr hlow.2, Int.tdiv_neg, Int.tdiv_one, Int.neg_neg]
      rw [if_pos hlow, hq]
      cases sat with
      | false =>
        rw [intCode_wrapped, wrap_natCast, Nat.mod_eq_of_lt (by omega)]
        rfl
      | true => exact intCode_half_saturated v
    · rw [if_neg hlow]
      have hx := signed_bounds ha
      have hb := tdiv_bounds hx.1 hx.2 (y := signed (v + 1) b) (by rwa [signed_eq_lowest_iff ha, signed_eq_neg_one_iff hb])
      exact intCode_of_bounds sat hb.1 hb.2

theorem remCode_signed :
    remCode (v + 1) true a b = if b = 0 then a else wrap (v + 1) ((signed (v + 1) a).tmod (signed (v + 1) b)) := by
  simp only [remCode, intVal, if_true, signed_eq_zero_iff hb, Int.tmod_def, Nat.mod_eq_of_lt ha]

end

end Sys2Proof.Machine

open Sys2Proof Sys2Proof.Machine

/-- Settles O3: each form is the division of the codes, whose cases are those of the table. -/
theorem divisionComplete : Obligations.DivisionComplete := by
  refine ⟨.of_aluA2 fun _ _ => rfl, .of_aluA2 fun _ _ => rfl, .of_aluC1 fun _ _ => rfl, .of_aluC1 fun _ _ => rfl, fun w a b hw ha hb => ?_⟩
  obtain ⟨v, rfl⟩ : ∃ v, w = v + 1 := Nat.exists_eq_add_one.mpr (by omega)
  exact ⟨fun sat => divCode_unsigned sat ha hb, remCode_unsigned ha hb, divCode_signed ha hb, remCode_signed ha hb⟩
end

section
/-! PROOFS. Bitwise operations, shifts, rotations, counts and fields (05 R113, R114, R137), each by the bits of its result. Settles O4, O11. -/

namespace Sys2Proof.Machine

theorem testBit_complement {w c i : Nat} (hc : c < 2 ^ w) (hi : i < w) : (2 ^ w - 1 - c).testBit i = !c.testBit i := by
  rw [Nat.sub_sub, Nat.add_comm, Nat.testBit_two_pow_sub_succ hc, decide_eq_true hi, Bool.true_and]

theorem Group.lane_lt (g : Group) (o : Opnd) (j : Nat) : g.lane o j < 2 ^ 32 := by
  cases o <;> exact BitVec.isLt _

theorem Group.wide_one (g : Group) (o : Opnd) (j : Nat) : g.wide 1 o j = g.lane o j := rfl

/-! ### Shifts and rotations -/

/-- A rotation's result: the low bits move above the high ones. -/
theorem rotlN_eq {n x : Nat} (c : Nat) (hn : 0 < n) (hx : x < 2 ^ n) :
    rotlN n x c = 2 ^ (c % n) * (x % 2 ^ (n - c % n)) + x / 2 ^ (n - c % n) := by
  have hk : c % n ≤ n := Nat.le_of_lt (Nat.mod_lt c hn)
  have hs : 2 ^ n = 2 ^ (c % n) * 2 ^ (n - c % n) := by rw [← Nat.pow_add, Nat.add_sub_cancel' hk]
  simp only [rotlN, Nat.mod_eq_of_lt hx]
  rw [Nat.mul_comm x, hs, Nat.mul_mod_mul_left]

theorem testBit_rotlN {n x i : Nat} (c : Nat) (hx : x < 2 ^ n) (hi : i < n) : (rotlN n x c).testBit ((i + c) % n) = x.testBit i := by
  have hn : 0 < n := Nat.zero_lt_of_lt hi
  have hk := Nat.mod_lt c hn
  have hlow : x / 2 ^ (n - c % n) < 2 ^ (c % n) := by
    rw [Nat.div_lt_iff_lt_mul (Nat.two_pow_pos _), ← Nat.pow_add, Nat.add_sub_cancel' (Nat.le_of_lt hk)]
    exact hx
  rw [rotlN_eq c hn hx, Nat.testBit_two_pow_mul_add _ hlow, Nat.testBit_mod_two_pow, Nat.testBit_div_two_pow, ← Nat.add_mod_mod]
  by_cases hw : i + c % n < n
  · rw [Nat.mod_eq_of_lt hw, if_neg (by omega), Nat.add_sub_cancel, decide_eq_true (by omega), Bool.true_and]
  · have hm : (i + c % n) % n = i + c % n - n := by
      rw [Nat.mod_eq_sub_mod (by omega), Nat.mod_eq_of_lt (by omega)]
    rw [hm, if_pos (by omega)]
    congr 1
    omega

theorem testBit_rotrCode {w a i : Nat} (c : Nat) (ha : a < 2 ^ w) (hi : i < w) : (rotrCode w a c).testBit i = a.testBit ((i + c) % w) := by
  have hw : 0 < w := Nat.zero_lt_of_lt hi
  have hc := Nat.mod_lt c hw
  have hback : ((i + c) % w + (w - c % w)) % w = i := by
    rw [← Nat.add_mod_mod i c, Nat.mod_add_mod, show i + c % w + (w - c % w) = i + w by omega, Nat.add_mod_right, Nat.mod_eq_of_lt hi]
  have hr := testBit_rotlN (w - c % w) ha (Nat.mod_lt (i + c) hw)
  rwa [hback] at hr

theorem signed_eq_toInt (v a : Nat) : signed (v + 1) a = (BitVec.ofNat (v + 1) a).toInt := by
  have hp := Nat.pow_succ 2 v
  simp only [signed, BitVec.toInt_eq_toNat_cond, BitVec.toNat_ofNat, Nat.add_sub_cancel]
  split <;> split <;> omega

theorem sraCode_eq (v a c : Nat) : sraCode (v + 1) a c = ((BitVec.ofNat (v + 1) a).sshiftRight (min c (v + 1))).toNat := by
  rw [sraCode, signed_eq_toInt, ← Int.shiftRight_eq_div_pow, BitVec.sshiftRight, BitVec.toNat_ofInt, wrap]

/-- An arithmetic shift takes its bits from the sign beyond the width. -/
theorem testBit_sraCode {w i : Nat} (a c : Nat) (hi : i < w) : (sraCode w a c).testBit i = a.testBit (min (i + c) (w - 1)) := by
  obtain ⟨v, rfl⟩ := Nat.exists_eq_add_one.mpr (Nat.zero_lt_of_lt hi)
  rw [sraCode_eq, BitVec.testBit_toNat, BitVec.getLsbD_sshiftRight, decide_eq_false (Nat.not_le.mpr hi), Bool.not_false, Bool.true_and,
    BitVec.msb_eq_getLsbD_last]
  simp only [BitVec.getLsbD_ofNat]
  split
  next h =>
    rw [decide_eq_true h, Bool.true_and]
    congr 1
    omega
  next h =>
    rw [decide_eq_true (by omega), Bool.true_and]
    congr 1
    omega

/-! ### Counts -/

theorem reverseBits_lt (n x : Nat) : reverseBits n x < 2 ^ n := by
  induction n generalizing x with
  | zero => exact Nat.zero_lt_one
  | succ n ih =>
    have hr := ih (x / 2)
    have hb : x % 2 * 2 ^ n ≤ 1 * 2 ^ n := Nat.mul_le_mul_right _ (by omega)
    rw [reverseBits, Nat.pow_succ]
    omega

theorem testBit_reverseBits {n x i : Nat} (hi : i < n) : (reverseBits n x).testBit i = x.testBit (n - 1 - i) := by
  induction n generalizing x i with
  | zero => exact absurd hi (Nat.not_lt_zero i)
  | succ n ih =>
    rw [reverseBits, Nat.mul_comm, Nat.testBit_two_pow_mul_add _ (reverseBits_lt n _)]
    by_cases hn : i < n
    · rw [if_pos hn, ih hn, Nat.testBit_div_two]
      congr 1
      omega
    · obtain rfl : i = n := by omega
      rw [if_neg hn, Nat.sub_self, Nat.testBit_zero, Nat.add_sub_cancel, Nat.sub_self, Nat.testBit_zero, Nat.mod_mod]

/-! ### Fields -/

theorem testBit_bfxCode_unsigned {a i : Nat} (start width : Nat) (ha : a < 2 ^ 32) :
    (bfxCode false a start width).testBit i = (decide (i < min width 32) && a.testBit (min start 32 + i)) := by
  simp only [bfxCode, Bool.false_eq_true, if_false, Nat.mod_eq_of_lt ha]
  split
  next h => rw [h, Nat.zero_testBit, decide_eq_false (Nat.not_lt_zero i), Bool.false_and]
  next => rw [Nat.testBit_mod_two_pow, Nat.testBit_div_two_pow, Nat.add_comm]

/-- The bits of the field of 05 R114 within the word. -/
theorem testBit_field (s wd i : Nat) : ((2 ^ wd - 1) * 2 ^ s).testBit i = decide (s ≤ i ∧ i < s + wd) := by
  rw [Nat.testBit_mul_two_pow, Nat.testBit_two_pow_sub_one, ← Bool.decide_and]
  exact decide_eq_decide.mpr (by omega)

theorem field_lt {s wd w : Nat} (h : s + wd ≤ w) : (2 ^ wd - 1) * 2 ^ s < 2 ^ w := by
  have hp : 2 ^ wd * 2 ^ s ≤ 2 ^ w := by
    rw [← Nat.pow_add, Nat.add_comm]
    exact Nat.pow_le_pow_right Nat.zero_lt_two h
  exact Nat.lt_of_lt_of_le (Nat.mul_lt_mul_of_pos_right (Nat.sub_one_lt (Nat.ne_of_gt (Nat.two_pow_pos wd))) (Nat.two_pow_pos s)) hp

theorem testBit_bfiCode {base i : Nat} (ins start width : Nat) (hb : base < 2 ^ 32) (hi : i < 32) :
    (bfiCode base ins start width).testBit i = if start ≤ i ∧ i < start + width then ins.testBit (i - start) else base.testBit i := by
  have hf := field_lt (s := min start 32) (wd := min width (32 - min start 32)) (w := 32) (by omega)
  simp only [bfiCode, Nat.testBit_or, Nat.testBit_and, testBit_complement hf hi, testBit_field, Nat.mod_eq_of_lt hb]
  rw [Nat.testBit_mod_two_pow, Nat.testBit_mul_two_pow, decide_eq_true hi, Bool.true_and]
  by_cases hin : start ≤ i ∧ i < start + width
  · have hs : min start 32 = start := by omega
    rw [if_pos hin, hs, decide_eq_true (p := start ≤ i ∧ _) (by omega), decide_eq_true hin.1, Bool.not_true, Bool.and_false, Bool.false_or,
      Bool.true_and, Bool.and_true]
  · rw [if_neg hin, decide_eq_false (p := min start 32 ≤ i ∧ _) (by omega), Bool.not_false, Bool.and_true, Bool.and_false, Bool.or_false]

end Sys2Proof.Machine

open Sys2Proof Sys2Proof.Machine

/-- Settles O4: each arm is the shape of its operands on the stated operation; then each operation by the bits of its result. -/
theorem bitOperationsComplete : Obligations.BitOperationsComplete := by
  constructor
  · refine ⟨.of_aluA2 ?_, .of_aluA2 ?_, .of_aluA2 ?_, .of_aluA1 ?_, .of_aluA2 ?_, .of_aluA2 ?_, .of_aluA2 ?_, .of_aluA2 ?_, .of_aluA2 ?_, .of_aluA2 ?_,
      .of_aluC1 ?_, .of_aluC1 ?_, .of_aluC1 ?_, .of_aluC1 ?_, .of_aluC1 ?_, .of_aluC1 ?_, .of_aluC1 ?_, .of_aluC1 ?_, fun w a c _ ha => ?shifts⟩
    case shifts =>
      refine ⟨rfl, ?_, fun i hi => testBit_sraCode a c hi, fun i hi => testBit_rotlN c ha hi, fun i hi => testBit_rotrCode c ha hi⟩
      rw [shrCode, Nat.mod_eq_of_lt ha]
    all_goals exact fun _ _ => rfl
  · refine ⟨.of_aluA1 ?_, .of_aluA1 ?_, .of_aluA1 ?_, .of_aluB3 ?_, .of_aluC1 ?_, .of_aluB3 ?_, fun f s c hc => ?bfiImm, fun w a _ ha => ⟨?clz, ?brev⟩,
      fun a start width i ha _ => testBit_bfxCode_unsigned start width ha, fun base ins start width i hb _ hi => testBit_bfiCode ins start width hb hi⟩
    case bfiImm => exact next_of_arm (execBfiImm f s) rfl (alu_wrote hc rfl)
    case clz => rw [clzCode, Nat.mod_eq_of_lt ha]
    case brev => exact fun i hi => testBit_reverseBits hi
    all_goals exact fun _ _ => rfl

/-- Settles O11: a word is one register's 32 bits, so 2^32 − 1 − c is its complement. -/
theorem bitSelectComplete : Obligations.BitSelectComplete := by
  intro f s c hc
  have hbsel : ComputesB3 .bsel 1 1 1 1 fun _ a b c => (a &&& c) ||| (b &&& (2 ^ 32 - 1 - c)) := .of_aluB3 fun _ _ => rfl
  obtain ⟨t, ht, hw⟩ := hbsel f s c hc
  refine ⟨t, _, ht, hw, fun j i hi => ?_⟩
  simp only [Group.wide_one, Nat.testBit_or, Nat.testBit_and, testBit_complement (Group.lane_lt c.g f.c j) hi]
end

section
/-! PROOFS. How an instruction on mask registers completes (05 R115, R124, R138, R139): the bits in the active lanes of one register or of a pair, every other bit as it was. Settles O5, O12. -/

namespace Sys2Proof.Machine

/-! ### Mask registers written -/

/-- Of a group's record only mask registers differ, in the lanes `m`, where register k holds `bits k`. -/
def WroteBits (g h : Group) (m : Mask) (bits : Nat → Option (Nat → Bool)) : Prop :=
  h.frags = g.frags ∧ h.frame = g.frame ∧ h.vregs = g.vregs ∧ h.sregs = g.sregs ∧ h.vpoison = g.vpoison ∧ h.spoison = g.spoison
    ∧ ∀ k a j, k ≠ 0 → j < 128 → (h.mreg a k).getLsbD j =
        match bits k with
        | some b => if m.getLsbD j then b j else (g.mreg a k).getLsbD j
        | none => (g.mreg a k).getLsbD j

theorem wroteBits_write (g : Group) {m v : Mask} (d : Nat) {b : Nat → Bool} (hb : ∀ j, j < 128 → m.getLsbD j = true → v.getLsbD j = b j) :
    WroteBits g (g.write (.msk d m v)) m fun k => if k = d then some b else none := by
  refine ⟨rfl, rfl, rfl, rfl, rfl, rfl, fun k a j hk hj => ?_⟩
  rw [Group.mreg_write_msk g a m v d k hk hj]
  by_cases hd : k = d
  · simp only [hd, if_true]
    split
    next hm => exact hb j hj hm
    next => rfl
  · simp only [hd, if_false]

theorem getLsbD_mkMask_and (m : Mask) (b : Nat → Bool) (j : Nat) (hj : j < 128) (hm : m.getLsbD j = true) :
    (mkMask fun j => m.getLsbD j && b j).getLsbD j = b j := by
  rw [getLsbD_mkMask _ hj, hm, Bool.true_and]

/-- A comparison's two writes: the second leaves the first, whose register is another. -/
theorem wroteBits_pairWrites (g : Group) (m : Mask) (d : Nat) (lt eq : Nat → Bool) :
    WroteBits g (g.writes (pairWrites m d lt eq)) m (pairBits d lt eq) := by
  refine ⟨rfl, rfl, rfl, rfl, rfl, rfl, fun k a j hk hj => ?_⟩
  obtain ⟨-, -, -, -, -, -, h1⟩ := wroteBits_write g d (getLsbD_mkMask_and m lt)
  obtain ⟨-, -, -, -, -, -, h2⟩ := wroteBits_write (g.write (.msk d m _)) (d + 1) (getLsbD_mkMask_and m eq)
  refine (h2 k a j hk hj).trans ?_
  simp only [h1 k a j hk hj, pairBits]
  by_cases hd : k = d
  · simp only [hd, if_true, if_neg (Nat.ne_of_lt (Nat.lt_succ_self d))]
  · simp only [hd, if_false]

theorem alu_wroteMasks {s : State} {c : Ctx} {g : Guard} {ds ss : List (Nat × Opnd)} {cross : Bool} {k : Ctx → Mask → Except Trap Group}
    {h : Group} {bits : Nat → Option (Nat → Bool)} (hc : Clear s c g ds ss cross) (hk : k c (c.eff g) = .ok h)
    (hw : WroteBits c.g h (c.eff g) bits) : ∃ t, alu s g ds ss cross k = .next t ∧ WroteMasks s t c (c.eff g) bits := by
  obtain ⟨hf, hframe, hregs⟩ := hw
  have hone := oneFrag_of_frags_eq hc.1 hf
  obtain ⟨t, ht, ho, hg⟩ := alu_next hc hk hone
  exact ⟨t, ht, ho, _, hg, hframe, hone.putFrag _, hregs⟩

theorem maskOp_wroteMasks {s : State} {c : Ctx} {f : FormA} (op : Mask → Mask → Mask) (b : Bool → Bool → Bool)
    (hb : ∀ x y j, j < 128 → (op x y).getLsbD j = b (x.getLsbD j) (y.getLsbD j)) (hc : Clear s c f.g [] [] false) :
    ∃ t, maskOp s f op = .next t ∧ WroteMasks s t c (c.eff f.g) fun k =>
      if k = opndIdx f.dst then
        some fun j => b ((c.g.mreg c.f.mask (opndIdx f.a)).getLsbD j) ((c.g.mreg c.f.mask (opndIdx f.b)).getLsbD j)
      else none :=
  alu_wroteMasks hc rfl (wroteBits_write c.g _ fun j hj _ => hb _ _ j hj)

theorem cmpA2_wroteMasks {s : State} {c : Ctx} {f : FormA} {n : Nat} {lt eq : Nat → Nat → Bool} (hc : Clear s c f.g [] [(n, f.a), (n, f.b)] false) :
    ∃ t, cmpA2 s f n lt eq = .next t ∧ WroteMasks s t c (c.eff f.g) (pairBits (opndIdx f.dst)
      (fun j => lt (c.g.srcA f n j) (c.g.srcB f n j)) fun j => eq (c.g.srcA f n j) (c.g.srcB f n j)) :=
  alu_wroteMasks hc rfl (wroteBits_pairWrites _ _ _ _ _)

end Sys2Proof.Machine

open Sys2Proof Sys2Proof.Machine

/-- Settles O5: sel is a masked result; a comparison is the pair of its relations. -/
theorem selectAndCompareComplete : Obligations.SelectAndCompareComplete := by
  refine ⟨fun f s c hc => ?_, fun f s c hc => ?_, fun f s c hc => ?_, fun f s c hc => ?_⟩
  · exact next_of_arm (execSel f s) rfl (alu_wrote hc rfl)
  · exact next_of_arm (cmpA2 s f (tyRegs f.ty) (intLess (intTy f.ty).1 (intTy f.ty).2) (intSame (intTy f.ty).1)) rfl (cmpA2_wroteMasks hc)
  · refine next_of_arm (execCmpImm f s) rfl ?_
    unfold execCmpImm
    exact alu_wroteMasks hc rfl (wroteBits_pairWrites _ _ _ _ _)
  · exact next_of_arm (execFcmp f s) rfl (cmpA2_wroteMasks hc)

/-- Settles O12: the four mask operations act bit by bit. -/
theorem maskOperationsComplete : Obligations.MaskOperationsComplete := by
  refine fun f => ⟨fun s c hc => ?_, fun s c hc => ?_, fun s c hc => ?_, fun s c hc => ?_⟩
  · exact next_of_arm (execMand f s) rfl (maskOp_wroteMasks _ _ (fun _ _ _ _ => BitVec.getLsbD_and) hc)
  · exact next_of_arm (execMor f s) rfl (maskOp_wroteMasks _ _ (fun _ _ _ _ => BitVec.getLsbD_or) hc)
  · exact next_of_arm (execMxor f s) rfl (maskOp_wroteMasks _ _ (fun _ _ _ _ => BitVec.getLsbD_xor) hc)
  · refine next_of_arm (execMnot f s) rfl (maskOp_wroteMasks _ (fun a _ => !a) (fun x y j hj => ?_) hc)
    simp only [BitVec.getLsbD_not, hj, decide_true, Bool.true_and]
end

section
/-! PROOFS. Moves, special registers, run-time registers, addresses and iota (05 R117 to R119): all but the reads of `$core` and `$cluster` are results on registers alone; those two go through the log of a checked block. Settles O6. -/

namespace Sys2Proof.Machine

/-! ### One group changed, and the log consulted -/

theorem onlyGroup_refl (s : State) (uid : Nat) : OnlyGroup s s uid := ⟨rfl, fun _ _ => rfl⟩

theorem OnlyGroup.updGroup {s t : State} {uid : Nat} (ho : OnlyGroup s t uid) (h : Group → Group) : OnlyGroup s (t.updGroup uid h) uid :=
  ⟨ho.1, fun u hu => by rw [State.updGroup_get, if_neg hu, ho.2 u hu]⟩

theorem State.updGroup_get_same {s : State} {uid : Nat} {g : Group} (hg : s.groups.get uid = some g) (h : Group → Group) :
    (s.updGroup uid h).groups.get uid = some (h g) := by rw [State.updGroup_get, if_pos rfl, hg]; rfl

/-- An instruction that fits into the log, or logs nothing, goes on from the state it made. -/
theorem Ctx.finish_done {c : Ctx} {s : State} (h : c.holdsUp s = false) (t : State) : c.finish s (.done t) = .next (t.advance c.uid c.fid) := by
  simp only [Ctx.finish, Ctx.logFull, h, Bool.false_and, Bool.false_eq_true, if_false]

theorem State.consult_of_no_replay {s : State} {c : Ctx} (kind : LogKind) (op digest : Nat) (hr : c.repeats = false) (h : c.g.replay = []) :
    s.consult c kind op digest = .perform := by
  simp only [State.consult, h, hr, Bool.false_eq_true, if_false]

theorem State.consult_of_match {s : State} {c : Ctx} {e : LogEntry} {rest : List LogEntry} {digest : Nat} (h : c.g.replay = e :: rest)
    (hd : e.digest = digest ∨ (c.repeats = false ∧ c.b.lost = false)) :
    s.consult c e.kind e.op digest = .replay e.data (s.updGroup c.uid fun g => { g with replay := rest, log := g.log ++ [e] }) := by
  have hd' : e.digest = digest ∨ ((!c.repeats) = true ∧ (!c.b.lost) = true) := by simpa using hd
  simp only [State.consult, h, hd', and_self, if_true]

/-- A register result on top of a change of the group's logs alone: the registers change as by the result, and the fragment goes on. -/
theorem finish_wrote {s t : State} {c : Ctx} (replay log : List LogEntry) (hc : s.ctx = some c) (hh : c.holdsUp s = false) (ho : OnlyGroup s t c.uid)
    (hg : t.groups.get c.uid = some { c.g with replay := replay, log := log }) (m : Mask) (n : Nat) (d : Opnd) (val : Nat → Nat) :
    ∃ u h, c.finish s (.done (t.updGroup c.uid fun g => g.writes (destWrites m n d val))) = .next u ∧ OnlyGroup s u c.uid
      ∧ u.groups.get c.uid = some h ∧ h.frame = { c.g.frame with replay := replay, log := log } ∧ OneFrag c.g h c.fid c.f.next
      ∧ WroteReg c.g h m n d val := by
  refine ⟨_, _, Ctx.finish_done hh _, (ho.updGroup _).updGroup _, State.updGroup_get_same (State.updGroup_get_same hg _) _, Group.writes_frame _ _,
    fun k => ?_, ?_⟩
  · rw [Group.writes_frags, Table.get_upd, (State.ctx_some hc).2.1]
    rfl
  · have hw := wroteReg_writes { c.g with replay := replay, log := log } m n d val
    cases d <;> exact hw

/-! ### Special registers -/

/-- The registers and the bits that a special register takes, by func (05 R117). -/
def specialRegs (func : Nat) : Nat := match func with | 1 => 1 | 2 => 2 | _ => 4
def specialBits (func : Nat) : Nat := match func with | 1 => 32 | 2 => 64 | _ => 80

theorem execMovImm_special {f : FormC} {s : State} (hf : f.func ≠ 0) (ha : f.imm.toNat ≠ 0x00A) (hb : f.imm.toNat ≠ 0x00B) :
    exec (.movImm f) s = alu s f.g [(specialRegs f.func.toNat, f.dst)] [] false fun c m =>
      .ok (c.g.writes (destWrites m (specialRegs f.func.toNat) f.dst fun j =>
        s.special c f.imm.toNat (!opndScalar f.dst) j % 2 ^ specialBits f.func.toNat)) := by
  have hn : f.func.toNat ≠ 0 := fun h => hf (BitVec.eq_of_toNat_eq h)
  simp only [exec, execMovImm, if_neg hf, if_neg (not_or.mpr ⟨ha, hb⟩)]
  generalize f.func.toNat = x at hn ⊢
  match x, hn with
  | 1, _ | 2, _ | _ + 3, _ => rfl

theorem execMovImm_core {f : FormC} {s : State} (hf : f.func ≠ 0) (hab : f.imm.toNat = 0x00A ∨ f.imm.toNat = 0x00B) :
    exec (.movImm f) s = sysInstr s f.g [(specialRegs f.func.toNat, f.dst)] [] fun c m =>
      let put := fun (t : State) (v : Nat) =>
        Act.done (t.updGroup c.uid fun g => g.writes (destWrites m (specialRegs f.func.toNat) f.dst fun _ => v % 2 ^ specialBits f.func.toNat))
      let now := s.special c f.imm.toNat false 0
      if c.b.check.isNone then put s now
      else
        match s.consult c .coreRead f.imm.toNat 0 with
        | .perform => put (s.record c.uid .coreRead f.imm.toNat [now] 0) now
        | .replay d t => put t (d.getD 0 0)
        | .diverged t => .placed t := by
  have hn : f.func.toNat ≠ 0 := fun h => hf (BitVec.eq_of_toNat_eq h)
  simp only [exec, execMovImm, if_neg hf, if_pos hab]
  generalize f.func.toNat = x at hn ⊢
  match x, hn with
  | 1, _ | 2, _ | _ + 3, _ => rfl

/-! ### Reads of `$core` and `$cluster` -/

section
variable {f : FormC} {s : State} {c : Ctx} (hf : f.func ≠ 0) (hab : f.imm.toNat = 0x00A ∨ f.imm.toNat = 0x00B)
  (hc : Clear s c f.g [(specialRegs f.func.toNat, f.dst)] [] false)
include hf hab hc

/-- Outside a checked block nothing is logged. -/
theorem movImm_core_unchecked (hk : c.b.check = none) :
    ∃ t, exec (.movImm f) s = .next t ∧ Wrote s t c (c.eff f.g) (specialRegs f.func.toNat) f.dst
      fun _ => s.special c f.imm.toNat false 0 % 2 ^ specialBits f.func.toNat := by
  have hh : c.holdsUp s = false := by simp only [Ctx.holdsUp, hk, Option.isSome_none, Bool.false_and]
  obtain ⟨t, h, ht, ho, hg, hframe, hone, hw⟩ := finish_wrote c.g.replay c.g.log hc.1 hh (onlyGroup_refl s c.uid) (State.ctx_some hc.1).1
    (c.eff f.g) (specialRegs f.func.toNat) f.dst fun _ => s.special c f.imm.toNat false 0 % 2 ^ specialBits f.func.toNat
  refine ⟨t, ?_, ho, h, hg, hframe, hone, hw⟩
  rw [execMovImm_core hf hab, sysInstr_clear hc, ← ht]
  simp only [hk, Option.isNone_none, if_true]

/-- In a checked block a run with no log to follow adds the value to its own. -/
theorem movImm_core_recorded (hk : c.b.check ≠ none) (hr : c.repeats = false) (hlog : c.g.replay = []) (hroom : s.areaFull c.l.part = false) :
    ∃ t h, exec (.movImm f) s = .next t ∧ OnlyGroup s t c.uid ∧ t.groups.get c.uid = some h ∧ OneFrag c.g h c.fid c.f.next
      ∧ WroteReg c.g h (c.eff f.g) (specialRegs f.func.toNat) f.dst (fun _ => s.special c f.imm.toNat false 0 % 2 ^ specialBits f.func.toNat)
      ∧ h.log = c.g.log ++ [{ kind := .coreRead, op := f.imm.toNat, data := [s.special c f.imm.toNat false 0], digest := 0 }] := by
  have hh : c.holdsUp s = false := by simp only [Ctx.holdsUp, hroom, Bool.and_false]
  have hrec := State.updGroup_get_same (State.ctx_some hc.1).1 fun g =>
    g.logs { kind := .coreRead, op := f.imm.toNat, data := [s.special c f.imm.toNat false 0], digest := 0 }
  obtain ⟨t, h, ht, ho, hg, hframe, hone, hw⟩ := finish_wrote c.g.replay _ hc.1 hh ((onlyGroup_refl s c.uid).updGroup _) hrec
    (c.eff f.g) (specialRegs f.func.toNat) f.dst fun _ => s.special c f.imm.toNat false 0 % 2 ^ specialBits f.func.toNat
  refine ⟨t, h, ?_, ho, hg, hone, hw, congrArg Group.log hframe⟩
  rw [execMovImm_core hf hab, sysInstr_clear hc, ← ht]
  simp only [Option.isNone_iff_eq_none, hk, if_false, State.consult_of_no_replay _ _ _ hr hlog]
  rfl

/-- A run whose log has the read next takes the value from it. -/
theorem movImm_core_replayed {e : LogEntry} {rest : List LogEntry} (hk : c.b.check ≠ none) (hh : c.holdsUp s = false) (hlog : c.g.replay = e :: rest)
    (hkind : e.kind = .coreRead) (hop : e.op = f.imm.toNat) (hd : e.digest = 0 ∨ (c.repeats = false ∧ c.b.lost = false)) :
    ∃ t h, exec (.movImm f) s = .next t ∧ OnlyGroup s t c.uid ∧ t.groups.get c.uid = some h ∧ OneFrag c.g h c.fid c.f.next
      ∧ WroteReg c.g h (c.eff f.g) (specialRegs f.func.toNat) f.dst (fun _ => e.data.getD 0 0 % 2 ^ specialBits f.func.toNat)
      ∧ h.log = c.g.log ++ [e] ∧ h.replay = rest := by
  have htake := State.updGroup_get_same (State.ctx_some hc.1).1 fun g => { g with replay := rest, log := g.log ++ [e] }
  obtain ⟨t, h, ht, ho, hg, hframe, hone, hw⟩ := finish_wrote rest _ hc.1 hh ((onlyGroup_refl s c.uid).updGroup _) htake
    (c.eff f.g) (specialRegs f.func.toNat) f.dst fun _ => e.data.getD 0 0 % 2 ^ specialBits f.func.toNat
  refine ⟨t, h, ?_, ho, hg, hone, hw, congrArg Group.log hframe, congrArg Group.replay hframe⟩
  rw [execMovImm_core hf hab, sysInstr_clear hc, ← ht, ← hkind, ← hop]
  simp only [Option.isNone_iff_eq_none, hk, if_false, State.consult_of_match hlog hd]

end

end Sys2Proof.Machine

open Sys2Proof Sys2Proof.Machine

/-- Settles O6: func 0 writes the immediate; a special register is a result by its table, `$core` and `$cluster` by one of the three ways of the log. -/
theorem movesComplete : Obligations.MovesComplete := by
  refine ⟨.of_aluA1 fun _ _ => rfl, fun f s c hc => ?_, fun f hf s c hc => ?_, fun f s c hf ha hb hc => ?_, fun f s c hf hab hc => ⟨?_, ?_, ?_⟩,
    fun f s c hc hlt hq => ?_, fun f s c hc hlt => ?_, fun f s c hc => ?_, fun f s c hc => ?_, fun f s c hc => ?_, fun f s c hc => ?_⟩
  · exact next_of_arm (execMovi f s) rfl (alu_wrote hc rfl)
  · exact next_of_arm _ (if_pos hf) (alu_wrote hc rfl)
  · exact next_of_arm _ (execMovImm_special hf ha hb) (alu_wrote hc rfl)
  · exact movImm_core_unchecked hf hab hc
  · exact movImm_core_recorded hf hab hc
  · exact fun e rest => movImm_core_replayed hf hab hc
  · refine next_of_arm (execMovx f s) rfl (alu_wrote hc ?_)
    dsimp only
    rw [if_neg (Nat.not_le.mpr hlt), hq]
  · exact next_of_arm (execMovy f s) rfl (alu_wrote hc (if_neg (Nat.not_le.mpr hlt)))
  · exact next_of_arm (execLea f s) rfl (alu_wrote hc rfl)
  · refine next_of_arm (execAddw f s) rfl ?_
    unfold execAddw
    exact alu_wrote hc rfl
  · exact next_of_arm (execAddwImm f s) rfl (alu_wrote hc rfl)
  · exact next_of_arm (execIota f s) rfl (alu_wrote hc rfl)
end

section
/-! PROOFS. Cross-lane operations and conversions (05 R127 to R138, R140): a source read across lanes is part of the result's value, a stochastic rounding steps the fragment's state beside it. Settles O9, O10. -/

namespace Sys2Proof.Machine

/-- With no poisoned parameter the result stands. -/
theorem quantPoison_of_quantBad_eq_none {c : Ctx} {f : FormB} {m : Mask} {k : Group} (h : c.quantBad f m = none) : quantPoison c f m k = .ok k := by
  simp only [quantPoison, h]

end Sys2Proof.Machine

open Sys2Proof Sys2Proof.Machine

/-- Settles O9: conversions and packing round through the passes of the stochastic state; dq and qz read their parameters across lanes. -/
theorem conversionsComplete : Obligations.ConversionsComplete := by
  refine ⟨fun f s c hc => ?_, fun f s c hc => ?_, fun f s c hc => ?_, .of_aluA1 fun _ _ => rfl, .of_aluC1 fun _ _ => rfl, fun f s c hc hq => ?_,
   fun f s c hc hq => ?_, fun f s c hc => ?_, fun f s c hc => ?_, fun f s c hc => ?_⟩
  · exact next_of_arm (execCvt f s) rfl (aluSr_wroteFrom hc)
  · exact next_of_arm (execCvti f s) rfl (aluSr_wroteFrom hc)
  · exact next_of_arm (execPack f s) rfl (aluSr_wroteFrom hc)
  · refine next_of_arm (execDq f s) rfl ?_
    unfold execDq
    exact alu_wrote hc (quantPoison_of_quantBad_eq_none hq)
  · refine next_of_arm (execQz f s) rfl ?_
    unfold execQz
    exact alu_wrote hc (quantPoison_of_quantBad_eq_none hq)
  · exact next_of_arm (execSrseed f s) rfl (alu_moved hc rfl)
  · exact next_of_arm (execSrseedImm f s) rfl (alu_moved hc rfl)
  · exact next_of_arm (execSrread f s) rfl (alu_wrote hc rfl)

/-- Settles O10: each arm's value is the stated function of the context and the effective mask; vote writes a quad, or one mask register. -/
theorem lanesComplete : Obligations.LanesComplete := by
  refine ⟨?_, ?_, ?_, ?_, ?_, ?_, ?_, .of_aluB3 fun _ _ => rfl, ?_, fun f hf s c hc => ?_, fun f hf s c hc => ?_, ?_, ?_, ?_, ?_, ?_⟩
  · exact fun f s c hc => next_of_arm (execPerm f s) rfl (alu_wrote hc rfl)
  · exact fun f s c hc => next_of_arm (execBcast f s) rfl (alu_wrote hc rfl)
  · exact fun f s c hc => next_of_arm (execBcastImm f s) rfl (alu_wrote hc rfl)
  · exact fun f s c hc => next_of_arm (execLshift f s) rfl (alu_wrote hc rfl)
  · exact fun f s c hc => next_of_arm (execLshiftImm f s) rfl (alu_wrote hc rfl)
  · exact fun f s c hc => next_of_arm (execBshift f s) rfl (alu_wrote hc rfl)
  · exact fun f s c hc => next_of_arm (execBshiftImm f s) rfl (alu_wrote hc rfl)
  · exact fun f s c hc => next_of_arm (execTlk f s) rfl (alu_wrote hc rfl)
  · exact next_of_arm _ (if_pos hf) (alu_wrote hc rfl)
  · exact next_of_arm _ (if_neg hf) (alu_wroteMasks hc rfl (wroteBits_write c.g _ fun j hj _ => getLsbD_mkMask _ hj))
  · exact fun f s c hc => next_of_arm (execMpop f s) rfl (alu_wrote hc rfl)
  · exact fun f s c hc => next_of_arm (execMfirst f s) rfl (alu_wrote hc rfl)
  · exact fun f s c hc => next_of_arm (execScan f s) rfl (alu_wrote hc rfl)
  · exact fun f s c hc => next_of_arm (execReduce f s) rfl (alu_wrote hc rfl)
  · exact fun f s c hc => next_of_arm (execRank f s) rfl (alu_wrote hc rfl)
end

section
/-! PROOFS. How an instruction completes that changes the machine beyond its group's registers: what each operation on the state makes of the issuing group's record, and the group that the finished instruction leaves. -/

namespace Sys2Proof.Machine

/-! ### The issuing group's record along an instruction -/

/-- An instruction that began in `s` has come to `t`: the issuing group's record is `h`, and every other group is as it was. -/
def IssuerIs (s t : State) (c : Ctx) (h : Group) : Prop := OtherGroups s t c.uid ∧ t.groups.get c.uid = some h

theorem issuerIs_refl {s : State} {c : Ctx} (hc : s.ctx = some c) : IssuerIs s s c c.g := ⟨fun _ _ => rfl, (State.ctx_some hc).1⟩

section
variable {s t : State} {c : Ctx} {h : Group} (hi : IssuerIs s t c h)
include hi

theorem IssuerIs.of_groups_eq {u : State} (hu : u.groups = t.groups) : IssuerIs s u c h :=
  ⟨fun k hk => hu ▸ hi.1 k hk, hu ▸ hi.2⟩

theorem IssuerIs.updGroup (k : Group → Group) : IssuerIs s (t.updGroup c.uid k) c (k h) :=
  ⟨fun u hu => by rw [State.updGroup_get, if_neg hu, hi.1 u hu], State.updGroup_get_same hi.2 k⟩

/-- 10 R248: an operation of a class leaves. -/
theorem IssuerIs.fly (f : Flight) : IssuerIs s (t.fly c f) c (h.raise { f with blk := c.f.blk }) := (hi.updGroup _).of_groups_eq rfl

/-- 10 R249: an operation that completes as it is performed. -/
theorem IssuerIs.pass (cls : Nat) : IssuerIs s (t.pass c cls) c (h.pass t.uid cls c.f.pc) := (hi.updGroup _).of_groups_eq rfl

/-- 16 R345: a result enters the log. -/
theorem IssuerIs.record (kind : LogKind) (op : Nat) (data : List Nat) (digest : Nat) :
    IssuerIs s (t.record c.uid kind op data digest) c (h.logs { kind := kind, op := op, data := data, digest := digest }) := hi.updGroup _

/-- 09 R231: the snapshot number rises to the partition's. -/
theorem IssuerIs.snapTo (n : Nat) : IssuerIs s (t.snapTo c.uid n) c { h with snap := max h.snap n } := (hi.updGroup _).of_groups_eq rfl

/-- The snap step of a run with no log to follow: the partition's round is taken and logged. -/
theorem IssuerIs.snapNow_eq (hr : c.repeats = false) (hlog : h.replay = []) :
    t.snapNow c = (t.snapTo c.uid (t.part c.l.part).round).record c.uid .snap 0 [(t.part c.l.part).round] 0 := by
  have hg : t.groups.getD c.uid c.g = h := by rw [Table.getD_eq, hi.2, Option.getD_some]
  have hcon := State.consult_of_no_replay (s := t) (c := { c with g := h }) .snap 0 0 hr hlog
  simp only [State.snapNow, hg, State.snap, hcon]

/-- The finished instruction's group is the record it came to with its fragment gone on. -/
theorem IssuerIs.advance (hc : s.ctx = some c) (hf : h.frags = c.g.frags) : GroupNow s (t.advance c.uid c.fid) c h c.f.next := by
  refine ⟨fun u hu => ?_, { h with frags := h.frags.upd c.fid Frag.next }, ?_, rfl, fun k => ?_⟩
  · rw [State.advance_get, if_neg hu, hi.1 u hu]
  · rw [State.advance_get, if_pos rfl, hi.2, Option.map_some]
  · rw [hf, Table.get_upd, (State.ctx_some hc).2.1, Option.map_some]

/-- An instruction that logs nothing, or that fits into its log, goes on with the record it came to. -/
theorem IssuerIs.completes (hc : s.ctx = some c) (hf : h.frags = c.g.frags) (hroom : h.log = c.g.log ∨ c.holdsUp s = false) :
    c.finish s (.done t) = .next (t.advance c.uid c.fid) ∧ GroupNow s (t.advance c.uid c.fid) c h c.f.next := by
  refine ⟨?_, hi.advance hc hf⟩
  rcases hroom with hlog | hroom
  · simp only [Ctx.finish, Ctx.logFull, hi.2, Option.map_some, Option.getD_some, hlog, Nat.lt_irrefl, decide_false, Bool.and_false,
      Bool.false_eq_true, if_false]
  · exact Ctx.finish_done hroom t

end

/-- An unchecked block, or one whose check area has room, is not held up by its log (16 R344). -/
theorem Ctx.holdsUp_eq_false {s : State} {c : Ctx} (h : c.b.check = none ∨ s.areaFull c.l.part = false) : c.holdsUp s = false := by
  rcases h with h | h <;> simp only [Ctx.holdsUp, h, Option.isSome_none, Bool.false_and, Bool.and_false]

/-- An instruction whose whole effect is an operation that completes as it is performed. -/
theorem finish_pass {s : State} {c : Ctx} (hc : s.ctx = some c) (cls : Nat) :
    ∃ t, c.finish s (.done (s.pass c cls)) = .next t ∧ ({ t with groups := s.groups, uid := s.uid } : State) = s
      ∧ GroupNow s t c (c.g.pass s.uid cls c.f.pc) c.f.next := by
  obtain ⟨hn, hg⟩ := ((issuerIs_refl hc).pass cls).completes hc rfl (.inl rfl)
  exact ⟨_, hn, by simp only [State.advance, State.updFrag, State.pass, State.updGroup], hg⟩

/-! ### Jobs (09 R240) -/

/-- The issuer's record once it has named a job it enters: a checked primary logs the job's number under its name. -/
def Ctx.named (c : Ctx) (cls id : Nat) : Group :=
  if c.b.check.isNone then c.g
  else c.g.logs { kind := .pub, op := 3, data := [cls, c.g.ordOf cls + 1 - c.g.base.getD cls 0, id], digest := 0 }

theorem Ctx.named_frags (c : Ctx) (cls id : Nat) : (c.named cls id).frags = c.g.frags := by
  unfold Ctx.named
  split <;> rfl

/-- The job of a card as it enters the table. -/
def State.entered (s : State) (c : Ctx) (j : Job) : Job :=
  { j with part := c.l.part, group := c.uid, block := c.g.block, snap := c.g.snap, mark := c.g.mark, flight := s.uid, pc := c.f.pc, blk := c.f.blk,
           order := s.handOrder, seen := s.uid }

/-- The flight of a job. -/
def State.jobFlight (s : State) (c : Ctx) (cls : Nat) (j : Job) : Flight :=
  { Flight.plain s.uid cls c.f.pc 0 with blk := c.f.blk, peer := s.peerIn c j }

/-- The instruction's whole effect is a job in the table, which flies from the issuer's record `g`. -/
def JobEntered (s t : State) (c : Ctx) (g : Group) (cls : Nat) (j : Job) : Prop :=
  ({ t with groups := s.groups, jobs := s.jobs, uid := s.uid } : State) = s ∧ GroupNow s t c (g.raise (s.jobFlight c cls j)) c.f.next
    ∧ t.jobs.get s.uid = some (s.entered c j) ∧ ∀ n, n ≠ s.uid → t.jobs.get n = s.jobs.get n

section
variable {s : State} {c : Ctx} (hr : c.repeats = false)
include hr

/-- Of a run that follows no log, a card enters the table as the job of the next number, from the group that has named it. -/
theorem State.enterJob_eq (cls : Nat) (j : Job) :
    s.enterJob c cls j =
      { ((if c.b.check.isNone then s else s.record c.uid .pub 3 [cls, c.g.ordOf cls + 1 - c.g.base.getD cls 0, s.uid] 0).fly c (s.jobFlight c cls j)) with
        jobs := s.jobs.put s.uid (s.entered c j) } := by
  have hseen : s.seenJobs c cls =
      (if c.b.check.isNone then s else s.record c.uid .pub 3 [cls, c.g.ordOf cls + 1 - c.g.base.getD cls 0, s.uid] 0, some s.uid) := by
    simp only [State.seenJobs, hr, Bool.false_eq_true, if_false, List.cons_append, List.nil_append]
    split <;> rfl
  simp only [State.enterJob, hseen]
  rfl

theorem issuerIs_enterJob (hc : s.ctx = some c) (cls : Nat) (j : Job) :
    IssuerIs s (s.enterJob c cls j) c ((c.named cls s.uid).raise (s.jobFlight c cls j)) := by
  rw [State.enterJob_eq hr]
  refine IssuerIs.of_groups_eq (IssuerIs.fly (h := c.named cls s.uid) ?_ (s.jobFlight c cls j)) rfl
  unfold Ctx.named
  split
  · exact issuerIs_refl hc
  · exact (issuerIs_refl hc).record _ _ _ _

theorem State.enterJob_frame (cls : Nat) (j : Job) :
    ({ s.enterJob c cls j with groups := s.groups, jobs := s.jobs, uid := s.uid } : State) = s := by
  rw [State.enterJob_eq hr]
  split <;> simp only [State.record, State.fly, State.updGroup]

theorem State.enterJob_jobs (cls : Nat) (j : Job) : (s.enterJob c cls j).jobs = s.jobs.put s.uid (s.entered c j) := by rw [State.enterJob_eq hr]

end

/-- An instruction that ends in a state with the job in its table has entered the job. -/
theorem finish_jobEntered {s t : State} {c : Ctx} {g : Group} {cls : Nat} {j : Job} (hc : s.ctx = some c) (hh : c.holdsUp s = false)
    (hi : IssuerIs s t c (g.raise (s.jobFlight c cls j))) (hg : g.frags = c.g.frags)
    (hframe : ({ t with groups := s.groups, jobs := s.jobs, uid := s.uid } : State) = s) (hjobs : t.jobs = s.jobs.put s.uid (s.entered c j)) :
    ∃ u, c.finish s (.done t) = .next u ∧ JobEntered s u c g cls j := by
  refine ⟨_, Ctx.finish_done hh t, hframe, hi.advance hc hg, ?_, fun n hn => ?_⟩
  · exact (congrArg (·.get s.uid) hjobs).trans (Table.get_put_same _ _ _)
  · exact (congrArg (·.get n) hjobs).trans (Table.get_put_ne _ _ hn)

/-- A card entered by an instruction that does nothing else. -/
theorem finish_enterJob {s : State} {c : Ctx} (hc : s.ctx = some c) (hh : c.holdsUp s = false) (hr : c.repeats = false) (cls : Nat) (j : Job) :
    ∃ t, c.finish s (.done (s.enterJob c cls j)) = .next t ∧ JobEntered s t c (c.named cls s.uid) cls j :=
  finish_jobEntered hc hh (issuerIs_enterJob hr hc cls j) (Ctx.named_frags c cls s.uid) (State.enterJob_frame hr cls j) (State.enterJob_jobs hr cls j)

end Sys2Proof.Machine
end

section
/-! PROOFS. Tile instructions at issue (06 R146 to R159, R169): one that queues stands last in its set's queue, and tcfg and unf change what the set captures. Settles O40. -/

namespace Sys2Proof.Machine

/-! ### One set changed -/

/-- The state with one tile set's record replaced. -/
def State.putSet (s : State) (i : Nat) (u : TileSet) : State := { s with sets := s.sets.put i u }

theorem IssuerIs.putSet {s t : State} {c : Ctx} {h : Group} (hi : IssuerIs s t c h) (i : Nat) (u : TileSet) : IssuerIs s (t.putSet i u) c h :=
  hi.of_groups_eq rfl

theorem fly_putSet_frame (s : State) (c : Ctx) (f : Flight) (i : Nat) (u : TileSet) :
    ({ ((s.fly c f).putSet i u).advance c.uid c.fid with groups := s.groups, sets := s.sets, uid := s.uid } : State) = s := by
  cases s
  rfl

theorem putSet_pass_frame (s : State) (c : Ctx) (i : Nat) (u : TileSet) (cls : Nat) :
    ({ ((s.putSet i u).pass c cls).advance c.uid c.fid with groups := s.groups, sets := s.sets, uid := s.uid } : State) = s := by
  cases s
  rfl

/-! ### The shapes of tile instructions -/

section
variable {f : FormG} {s : State} {c : Ctx} {i : Nat} {ts : TileSet} {ds ss : List (Nat × Opnd)} {k : Ctx → Nat → TileSet → Act}
  (hset : s.setOf c = some (i, ts)) (hfull : c.g.full 3 = false) (hroom : s.entries i ts < 32) (hc : Clear s c f.g ds ss false)
include hset hfull hroom hc

/-- With a place in its class and in the command queue, a tile instruction comes to what its own part comes to. -/
theorem tileInstr_clear : tileInstr s f ds ss k = c.finish s (k c i ts) := by
  simp only [tileInstr, sysInstr_clear hc, hset, hfull, Bool.false_eq_true, if_false, if_neg (Nat.not_le.mpr hroom)]

/-- A tile instruction whose own part queues a command (06 R169). -/
theorem tileInstr_queued {cmd : TileCmd} {h : TileSet → TileSet} (hk : k c i ts = s.queueTile c i ts cmd h) (hq : (h ts).queue = ts.queue) :
    ∃ t, tileInstr s f ds ss k = .next t ∧ QueuedTile s t c i ts (h ts) cmd := by
  have hact : k c i ts = .done ((s.fly c (Flight.plain s.uid 3 c.f.pc 0)).putSet i
      { h ts with queue := ts.queue ++ [{ cmd with pairing := ts.pairing, ord := ts.drains, pc := c.f.pc, flight := s.uid }] }) := by
    rw [hk, State.queueTile, hq]
    rfl
  obtain ⟨hn, hg⟩ := (((issuerIs_refl hc.1).fly (Flight.plain s.uid 3 c.f.pc 0)).putSet i _).completes hc.1 rfl (.inl rfl)
  rw [tileInstr_clear hset hfull hroom hc, hact]
  exact ⟨_, hn, fly_putSet_frame s c _ i _, hg, fun j hj => Table.get_put_ne _ _ hj, Table.get_put_same _ _ _⟩

/-- A tile instruction that acts at its issue, on the set alone. -/
theorem tileInstr_configured {u : TileSet} (hk : k c i ts = .done ((s.putSet i u).pass c 3)) :
    ∃ t, tileInstr s f ds ss k = .next t ∧ ({ t with groups := s.groups, sets := s.sets, uid := s.uid } : State) = s
      ∧ GroupNow s t c (c.g.pass s.uid 3 c.f.pc) c.f.next ∧ t.sets.get i = some u := by
  obtain ⟨hn, hg⟩ := (((issuerIs_refl hc.1).putSet i u).pass 3).completes hc.1 rfl (.inl rfl)
  rw [tileInstr_clear hset hfull hroom hc, hk]
  exact ⟨_, hn, putSet_pass_frame s c i u 3, hg, Table.get_put_same _ _ _⟩

end

/-- A window long enough for every end is refused for none. -/
theorem any_short_eq_false {wins : List Window} {ends : List Nat} (h : ∀ w ∈ wins, ∀ e ∈ ends, e ≤ w.len) :
    (wins.any fun w => ends.any fun e => decide (w.len < e)) = false := by
  simpa only [List.any_eq_false, decide_eq_true_eq, List.any_eq_true, not_exists, not_and, Nat.not_lt] using h

/-- accld and accst where their checks pass (06 R157). -/
theorem accInstr_queued {f : FormG} {s : State} {c : Ctx} {i : Nat} {ts : TileSet} {wins : List Window} (op : Nat) {h : TileSet → TileSet}
    (hset : s.setOf c = some (i, ts)) (hfull : c.g.full 3 = false) (hroom : s.entries i ts < 32) (hc : Clear s c f.g [] [(1, f.x)] false)
    (halign : (c.g.sreg (opndIdx f.x)).toNat % 128 = 0) (hw : s.engineWindows ts f.handle.toNat = some wins)
    (hlen : ∀ w ∈ wins, (c.g.sreg (opndIdx f.x)).toNat + 8192 ≤ w.len) (hq : (h ts).queue = ts.queue) :
    ∃ t, accInstr s f op h = .next t ∧
      QueuedTile s t c i ts (h ts) (TileCmd.mk' op f.func.toNat [(c.g.sreg (opndIdx f.x)).toNat, f.handle.toNat] wins none) := by
  have hlong : (wins.any fun w => decide (w.len < (c.g.sreg (opndIdx f.x)).toNat + 8192)) = false := by
    simpa only [List.any_eq_false, decide_eq_true_eq, Nat.not_lt] using hlen
  refine tileInstr_queued hset hfull hroom hc ?_ hq
  simp only [halign, ne_eq, not_true_eq_false, if_false, hw, hlong, Bool.false_eq_true]

/-- What the set tracks once a drain is issued (06 R159): one more drain, and with bit 7 the tile's kind as that of a zeroed one. -/
def drained (w : Nat) (t : TileSet) : TileSet :=
  if bitAt w 7 then { t with drains := t.drains + 1 }.setKinds (· == w % 4) t.zeroKind else { t with drains := t.drains + 1 }

theorem drained_queue (w : Nat) (t : TileSet) : (drained w t).queue = t.queue := by
  unfold drained
  split <;> rfl

/-- A drain of raw codes (06 R159) is refused for none of its combinations where the tile is an integer one and its bias, activation and stochastic rounding are off. -/
theorem drainRaw_allowed {w : Nat} {int : Bool} (h : w / 16 % 4 = 3 → int = true ∧ bitAt w 2 = false ∧ bitAt w 3 = false ∧ bitAt w 6 = false) :
    ¬(w / 16 % 4 = 3 ∧ ((!int) = true ∨ bitAt w 2 = true ∨ bitAt w 3 = true ∨ bitAt w 6 = true)) := by
  rintro ⟨hw, hbad⟩
  obtain ⟨hint, h2, h3, h6⟩ := h hw
  simp only [hint, h2, h3, h6, Bool.not_true, Bool.false_eq_true, or_self] at hbad

end Sys2Proof.Machine

open Sys2Proof Sys2Proof.Machine

/-- Settles O40: tcfg and unf act on the set at issue; every other instruction is queued with what it captured once its checks pass. -/
theorem tileIssueComplete : Obligations.TileIssueComplete := by
  intro f s c i ts hset hfull hroom
  refine ⟨fun hc hp h0 => ?_, fun pr wins hc hx hpair hok hquant hw hends => ?_, fun pr u hc hpair hu hkind => ?_, fun hc => ?_,
    fun wins hc halign hw hlen => ⟨?_, ?_⟩, fun hc hout hsr => ?_, fun hc => ?_⟩
  · refine next_of_arm (execTcfg f s) rfl (tileInstr_configured hset hfull hroom hc ?_)
    simp only [Option.isNone_eq_false_iff.mpr hp, Bool.false_eq_true, if_false, h0, ne_eq, not_true_eq_false]
    rfl
  · refine next_of_arm (execUnf f s) rfl (tileInstr_configured hset hfull hroom hc ?_)
    simp only [hpair, if_neg (Nat.not_lt.mpr hx), hok, Bool.not_true, hquant, hw, any_short_eq_false hends, Bool.false_eq_true, if_false]
    rfl
  · refine next_of_arm (execMma f s) rfl (tileInstr_queued (h := id) hset hfull hroom hc ?_ rfl)
    simp only [hpair, hu, hkind, bne_self_eq_false, Bool.false_eq_true, if_false]
  · exact next_of_arm (execAccz f s) rfl (tileInstr_queued (h := fun t => t.setKinds (bitAt f.func.toNat) t.zeroKind) hset hfull hroom hc rfl rfl)
  · exact next_of_arm (execAccld f s) rfl (accInstr_queued 0xC6 hset hfull hroom hc halign hw hlen rfl)
  · exact next_of_arm (execAccst f s) rfl (accInstr_queued (h := id) 0xC7 hset hfull hroom hc halign hw hlen rfl)
  · refine next_of_arm (execDrain f s) rfl (tileInstr_queued (h := drained f.func.toNat) hset hfull hroom hc ?_ (drained_queue _ ts))
    rw [if_neg (drainRaw_allowed hout), if_neg fun h => Bool.false_ne_true ((hsr h.1).symm.trans h.2)]
    rfl
  · exact next_of_arm (execChain f s) rfl (tileInstr_queued (h := id) hset hfull hroom hc rfl rfl)
end

section
/-! PROOFS. Loads of the broadcast buffer at issue (06 R154, R166, R168, 09 R240): a bload or xfetch of some length enters its job, one of length 0 completes at once. -/

namespace Sys2Proof.Machine

/-! ### The decision of an xfetch in the log (06 R168) -/

/-- The issuer's record once the decision for the fallback is logged, which a checked primary does. -/
def Ctx.fetchLogged (c : Ctx) (g : Group) (ord decision : Nat) : Group :=
  if c.b.check.isNone then g else g.logs { kind := .xfetch, op := 0xC3, data := [c.g.partOrd 3 ord, decision], digest := 0 }

theorem State.logFetch_eq {t : State} {c : Ctx} (hr : c.repeats = false) (ord decision : Nat) :
    t.logFetch c ord decision = if c.b.check.isNone then t else t.record c.uid .xfetch 0xC3 [c.g.partOrd 3 ord, decision] 0 := by
  unfold State.logFetch
  rw [hr]
  cases c.b.check <;> rfl

theorem State.logFetch_groups_apart {t : State} {c : Ctx} (hr : c.repeats = false) (ord decision : Nat) :
    t.logFetch c ord decision = { t with groups := (t.logFetch c ord decision).groups } := by
  rw [State.logFetch_eq hr]
  split <;> rfl

/-- The log is apart from the flights: the decision may be taken to have entered it before the job left. -/
theorem IssuerIs.logFetch {s t : State} {c : Ctx} {g : Group} {fl : Flight} (hr : c.repeats = false) (hi : IssuerIs s t c (g.raise fl)) (ord decision : Nat) :
    IssuerIs s (t.logFetch c ord decision) c ((c.fetchLogged g ord decision).raise fl) := by
  rw [State.logFetch_eq hr, Ctx.fetchLogged]
  split
  · exact hi
  · exact hi.record _ _ _ _

theorem Ctx.fetchLogged_frags (c : Ctx) (g : Group) (ord decision : Nat) : (c.fetchLogged g ord decision).frags = g.frags := by
  unfold Ctx.fetchLogged
  split <;> rfl

theorem finish_logFetch {s : State} {c : Ctx} (hc : s.ctx = some c) (hh : c.holdsUp s = false) (hr : c.repeats = false) (cls : Nat) (j : Job)
    (ord decision : Nat) :
    ∃ t, c.finish s (.done ((s.enterJob c cls j).logFetch c ord decision)) = .next t
      ∧ JobEntered s t c (c.fetchLogged (c.named cls s.uid) ord decision) cls j := by
  refine finish_jobEntered hc hh ((issuerIs_enterJob hr hc cls j).logFetch hr ord decision) ?_ ?_ ?_
  · rw [Ctx.fetchLogged_frags, Ctx.named_frags]
  · rw [State.logFetch_groups_apart hr]
    exact State.enterJob_frame hr cls j
  · rw [State.logFetch_groups_apart hr]
    exact State.enterJob_jobs hr cls j

/-! ### bload and xfetch past their checks -/

/-- The card of bload for a range at o in the buffer of set i. -/
def Ctx.loadCard (c : Ctx) (f : FormG) (i o : Nat) : Job :=
  let va := c.g.pointer (opndIdx f.x)
  let n := (c.g.sreg (opndIdx f.y)).toNat
  Job.card .bload [va, n, o, i] none none none [globalRange va n] (bufferRanges i o n)

/-- The expert that xfetch names. -/
def State.fetchExpert (s : State) (c : Ctx) (f : FormG) : Expert := (s.part c.l.part).expert (c.g.sreg (opndIdx f.x)).toNat

/-- The card of xfetch with its decision so far. -/
def State.fetchCard (s : State) (c : Ctx) (f : FormG) (i o aux : Nat) : Job :=
  let off := (c.g.sreg (opndIdx f.x + 1)).toNat
  let n := (c.g.sreg (opndIdx f.y)).toNat
  let first := (s.fetchExpert c f).primary.toNat + off
  let second := (s.fetchExpert c f).fallback.toNat + off
  { Job.card .xfetch [first, n, o, i, second, (c.g.sreg (opndIdx f.x)).toNat, (c.g.sreg (opndIdx f.y + 1)).toNat] none none none
      [globalRange first n, globalRange second n] (bufferRanges i o n) with aux := [aux] }

section
variable {f : FormG} {s : State} {c : Ctx} {i : Nat} {ts : TileSet} (hset : s.setOf c = some (i, ts)) (hfull : c.g.full 3 = false)
  (hroom : s.entries i ts < 32) (hmult : (c.g.sreg (opndIdx f.y)).toNat % 64 = 0) (hlen : (c.g.sreg (opndIdx f.y)).toNat ≤ 65536)
include hset hfull hroom hmult hlen

theorem execBload_checked (hc : Clear s c f.g [] [(3, f.x), (1, f.y)] false) (halign : c.g.pointer (opndIdx f.x) % 64 = 0) :
    exec (.bload f) s = c.finish s
      (if (c.g.sreg (opndIdx f.y)).toNat = 0 then .done (s.pass c 3)
       else .done (s.enterJob c 3 (c.loadCard f i (64 * (f.func.toNat % 1024))))) := by
  rw [show exec (.bload f) s = execBload f s from rfl, execBload, tileInstr_clear hset hfull hroom hc]
  dsimp only
  rw [if_neg (not_or.mpr ⟨fun h => h halign, fun h => h hmult⟩), if_neg (Nat.not_lt.mpr hlen)]
  rfl

theorem execXfetch_checked (hc : Clear s c f.g [] [(2, f.x), (2, f.y)] false) (hr : c.repeats = false) (hx : (c.g.sreg (opndIdx f.x)).toNat < 4096)
    (hv : (s.fetchExpert c f).valid = true) (hoff : (c.g.sreg (opndIdx f.x + 1)).toNat % 64 = 0)
    (hend : (c.g.sreg (opndIdx f.x + 1)).toNat + (c.g.sreg (opndIdx f.y)).toNat ≤ (s.fetchExpert c f).len) :
    exec (.xfetch f) s = c.finish s
      (if (c.g.sreg (opndIdx f.y)).toNat = 0 then .done (s.pass c 3)
       else if ts.marks.contains (c.g.sreg (opndIdx f.x)).toNat then
         .done ((s.enterJob c 3 (s.fetchCard c f i (64 * (f.func.toNat % 1024)) 1)).logFetch c (c.g.ordOf 3 + 1) 1)
       else .done (s.enterJob c 3 (s.fetchCard c f i (64 * (f.func.toNat % 1024)) 0))) := by
  have hvalid : ¬(!(s.fetchExpert c f).valid) = true := by rw [hv]; exact Bool.false_ne_true
  rw [State.fetchExpert] at hvalid hend
  rw [show exec (.xfetch f) s = execXfetch f s from rfl, execXfetch, tileInstr_clear hset hfull hroom hc]
  dsimp only
  rw [if_neg (not_or.mpr ⟨Nat.not_le.mpr hx, hvalid⟩), if_neg (not_or.mpr ⟨fun h => h hoff, fun h => h hmult⟩),
    if_neg (not_or.mpr ⟨Nat.not_lt.mpr hend, Nat.not_lt.mpr hlen⟩), if_neg (Bool.eq_false_iff.mp hr)]
  rfl

end

end Sys2Proof.Machine
end

section
/-! PROOFS. tsync and tsig (06 R171, 09 R231): the snap of the sequencer, and the arrivals at the barriers of the set's blocks. -/

namespace Sys2Proof.Machine

/-! ### The snap step -/

/-- The issuer's record after a snap at a round. -/
def Group.snapped (g : Group) (round : Nat) : Group :=
  { g with snap := max g.snap round, log := g.log ++ [{ kind := .snap, op := 0, data := [round], digest := 0 }] }

theorem IssuerIs.snapNow {s t : State} {c : Ctx} {h : Group} (hi : IssuerIs s t c h) (hr : c.repeats = false) (hlog : h.replay = []) :
    IssuerIs s (t.snapNow c) c (h.snapped (t.part c.l.part).round) := by
  rw [hi.snapNow_eq hr hlog]
  exact (hi.snapTo _).record _ _ _ _

/-- A snap changes the groups and forgets published writes, and nothing else. -/
theorem IssuerIs.snapNow_apart {s t : State} {c : Ctx} {h : Group} (hi : IssuerIs s t c h) (hr : c.repeats = false) (hlog : h.replay = []) :
    t.snapNow c = { t with groups := (t.snapNow c).groups, ownPuts := (t.snapTo c.uid (t.part c.l.part).round).ownPuts } := by
  rw [hi.snapNow_eq hr hlog]
  rfl

/-- Putting an entry that a filter drops leaves what it keeps. -/
theorem filter_assocPut_of_dropped {α : Type} (l : List (Nat × α)) {a : Nat} {p : Nat → α → Bool} (x : α) (hp : ∀ v, p a v = false) :
    (assocPut l a x).filter (fun r => p r.1 r.2) = l.filter fun r => p r.1 r.2 := by
  induction l with
  | nil => simp only [assocPut, List.filter_cons, hp, Bool.false_eq_true, if_false]
  | cons r l ih =>
    by_cases hlt : r.1 < a
    · simp only [assocPut, if_pos hlt, List.filter_cons, ih]
    · by_cases hgt : a < r.1
      · simp only [assocPut, if_neg hlt, if_pos hgt, List.filter_cons, hp, Bool.false_eq_true, if_false]
      · have hr : p r.1 r.2 = false := by rw [show r.1 = a by omega]; exact hp _
        simp only [assocPut, if_neg hlt, if_neg hgt, List.filter_cons, hp, hr, Bool.false_eq_true, if_false]

theorem Table.filter_upd_of_dropped {α : Type} (t : Table α) {a : Nat} {p : Nat → α → Bool} (f : α → α) (hp : ∀ v, p a v = false) :
    (t.upd a f).filter p = t.filter p := by
  unfold Table.upd Table.filter
  split
  · rfl
  · rw [filter_assocPut_of_dropped _ _ hp]

/-- What a snap forgets of the published writes depends on nothing of the snapping group but its block. -/
theorem State.snapTo_ownPuts_updGroup (s : State) (uid n : Nat) {f : Group → Group} (hf : ∀ g, (f g).block = g.block) :
    ((s.updGroup uid f).snapTo uid n).ownPuts = (s.snapTo uid n).ownPuts := by
  have hb : (((s.updGroup uid f).groups.get uid).map fun (g : Group) => g.block) = (s.groups.get uid).map fun (g : Group) => g.block := by
    rw [State.updGroup_get, if_pos rfl, Option.map_map]
    exact congrArg (Option.map · _) (funext hf)
  have hm : ∀ bid, ((s.updGroup uid f).groups.filter fun k g => decide (g.block = bid ∧ k ≠ uid ∧ g.life ≠ .ended))
      = s.groups.filter fun k g => decide (g.block = bid ∧ k ≠ uid ∧ g.life ≠ .ended) :=
    fun bid => Table.filter_upd_of_dropped _ _ fun v => decide_eq_false fun h => h.2.1 rfl
  simp only [State.snapTo, hb, hm, State.updGroup_ownPuts, State.updGroup_jobs]

/-! ### The wait of tsync and tsig -/

theorem tileWait_clear {s : State} {c : Ctx} {k : Act} (h0 : c.g.counter 3 = 0) (hd : c.g.delivered = []) : tileWait s c k = k := by
  have hnone : takeDelivered (c.g.delivered.filter fun d => d.cls == 3) c.g = none := by rw [hd]; rfl
  simp only [tileWait, h0, ne_eq, not_true_eq_false, if_false, hnone]

/-! ### One arrival (10 R265) -/

/-- A block with one barrier changed. -/
def Block.withBar (x : Block) (n : Nat) (h : Barrier → Barrier) : Block := { x with bars := x.bars.put n (h (x.bar n)) }

theorem Block.withBar_bar (x : Block) (n m : Nat) (h : Barrier → Barrier) : (x.withBar n h).bar m = if m = n then h (x.bar n) else x.bar m := by
  simp only [Block.bar, Block.withBar, Table.getD_eq, Table.get_put]
  split <;> rfl

/-- Whether a change of a block's barrier overruns it. -/
def State.overruns (s : State) (n : Nat) (h : Barrier → Barrier) (b : Nat) : Bool := (s.blocks.get b).any fun x => overran (x.bar n) (h (x.bar n))

/-- The party's record with faults on their way to it. -/
def Group.receive (g : Group) (ds : List Delivered) : Group := { g with delivered := g.delivered ++ ds }

theorem Group.receive_nil (g : Group) : g.receive [] = g := by rw [Group.receive, List.append_nil]

theorem Group.receive_receive (g : Group) (ds es : List Delivered) : (g.receive ds).receive es = g.receive (ds ++ es) := by
  simp only [Group.receive, List.append_assoc]

section
variable (s : State) (b n uid : Nat) (d : Delivered) (h : Barrier → Barrier)

theorem State.changeBar_apart :
    s.changeBar b n uid d h = { s with groups := (s.changeBar b n uid d h).groups, blocks := (s.changeBar b n uid d h).blocks } := by
  unfold State.changeBar
  split
  · rfl
  · dsimp only
    split <;> rfl

theorem State.changeBar_blocks_get (k : Nat) :
    (s.changeBar b n uid d h).blocks.get k = if k = b then (s.blocks.get b).map (·.withBar n h) else s.blocks.get k := by
  unfold State.changeBar
  split
  next hb =>
    rw [hb]
    split
    next hk => rw [hk, hb]; rfl
    next => rfl
  next x hb =>
    have hu : ((s.updBlock b fun y => { y with bars := y.bars.put n (h (x.bar n)) }).blocks.get k)
        = if k = b then (s.blocks.get b).map (·.withBar n h) else s.blocks.get k := by
      rw [State.updBlock_get, hb]
      rfl
    dsimp only
    split <;> exact hu

/-- A change of a barrier touches no other group, and of the party's record adds the overrun it brings. -/
theorem IssuerIs.changeBar {s₀ : State} {c : Ctx} {g : Group} (hi : IssuerIs s₀ s c g) :
    IssuerIs s₀ (s.changeBar b n c.uid d h) c (g.receive (if s.overruns n h b then [d] else [])) := by
  unfold State.changeBar
  split
  next hb => simpa only [State.overruns, hb, Option.any_none, Bool.false_eq_true, if_false, Group.receive_nil] using hi
  next x hb =>
    have ho : s.overruns n h b = overran (x.bar n) (h (x.bar n)) := by rw [State.overruns, hb, Option.any_some]
    have hu : IssuerIs s₀ (s.updBlock b fun y => { y with bars := y.bars.put n (h (x.bar n)) }) c g := hi.of_groups_eq rfl
    rw [ho]
    dsimp only
    split
    · exact hu.updGroup (·.receive [d])
    · rwa [Group.receive_nil]

theorem State.changeBar_snapTo_ownPuts (m : Nat) : ((s.changeBar b n uid d h).snapTo uid m).ownPuts = (s.snapTo uid m).ownPuts := by
  unfold State.changeBar
  split
  · rfl
  · dsimp only
    split
    · exact State.snapTo_ownPuts_updGroup _ uid m fun _ => rfl
    · rfl

end

/-! ### The arrivals of tsig -/

/-- The overrun that an arrival of tsig brings on barrier n. -/
def Ctx.tsigOverrun (c : Ctx) (uid n : Nat) : Delivered := overrun uid 3 (c.g.ordOf 3) n c.f.pc c.f.blk

/-- One arrival of tsig at barrier n of a block. -/
def Ctx.arrive (c : Ctx) (n : Nat) (s : State) (b : Nat) : State := s.changeBar b n c.uid (c.tsigOverrun s.uid n) (·.credit 0 1)

section
variable (c : Ctx) (n : Nat)

theorem Ctx.arrive_apart (s : State) (b : Nat) : c.arrive n s b = { s with groups := (c.arrive n s b).groups, blocks := (c.arrive n s b).blocks } :=
  s.changeBar_apart _ _ _ _ _

theorem Ctx.arrive_uid (s : State) (b : Nat) : (c.arrive n s b).uid = s.uid := by rw [c.arrive_apart]

theorem Ctx.foldl_arrive_apart (bs : List Nat) (s : State) :
    bs.foldl (c.arrive n) s = { s with groups := (bs.foldl (c.arrive n) s).groups, blocks := (bs.foldl (c.arrive n) s).blocks } := by
  induction bs generalizing s with
  | nil => rfl
  | cons b bs ih =>
    rw [List.foldl_cons, ih, c.arrive_apart]

theorem Ctx.foldl_arrive_snapTo_ownPuts (bs : List Nat) (s : State) (m : Nat) :
    ((bs.foldl (c.arrive n) s).snapTo c.uid m).ownPuts = (s.snapTo c.uid m).ownPuts := by
  induction bs generalizing s with
  | nil => rfl
  | cons b bs ih => exact (ih _).trans (s.changeBar_snapTo_ownPuts _ _ _ _ _ _)

/-- Each block of the set takes one arrival. -/
theorem Ctx.foldl_arrive_blocks_get {bs : List Nat} (hbs : bs.Nodup) (s : State) (k : Nat) :
    (bs.foldl (c.arrive n) s).blocks.get k = if k ∈ bs then (s.blocks.get k).map (·.withBar n (·.credit 0 1)) else s.blocks.get k := by
  induction bs generalizing s with
  | nil => rfl
  | cons b bs ih =>
    obtain ⟨hb, hbs⟩ := List.nodup_cons.mp hbs
    rw [List.foldl_cons, ih hbs, Ctx.arrive, State.changeBar_blocks_get]
    by_cases hk : k = b
    · subst hk
      simp only [hb, if_false, if_true, List.mem_cons, true_or]
    · simp only [hk, if_false, List.mem_cons, false_or]

/-- The overruns are on their way in the order of the blocks. -/
theorem IssuerIs.foldl_arrive {c : Ctx} {n : Nat} {bs : List Nat} (hbs : bs.Nodup) {s₀ s : State} {g : Group} (hi : IssuerIs s₀ s c g) :
    IssuerIs s₀ (bs.foldl (c.arrive n) s) c (g.receive ((bs.filter (s.overruns n (·.credit 0 1))).map fun _ => c.tsigOverrun s.uid n)) := by
  induction bs generalizing s g with
  | nil => rwa [List.foldl_nil, List.filter_nil, List.map_nil, Group.receive_nil]
  | cons b bs ih =>
    obtain ⟨hb, hbs⟩ := List.nodup_cons.mp hbs
    have hlate : bs.filter ((c.arrive n s b).overruns n (·.credit 0 1)) = bs.filter (s.overruns n (·.credit 0 1)) :=
      List.filter_congr fun k hk => by
        have hkb : k ≠ b := fun h => hb (h ▸ hk)
        rw [State.overruns, State.overruns, Ctx.arrive, State.changeBar_blocks_get, if_neg hkb]
    have hlist : ((b :: bs).filter (s.overruns n (·.credit 0 1))).map (fun _ => c.tsigOverrun s.uid n)
        = (if s.overruns n (·.credit 0 1) b then [c.tsigOverrun s.uid n] else [])
          ++ (bs.filter (s.overruns n (·.credit 0 1))).map fun _ => c.tsigOverrun s.uid n := by
      rw [List.filter_cons]
      split <;> rfl
    have hstep := ih hbs (s := c.arrive n s b) (hi.changeBar s b n (c.tsigOverrun s.uid n) (·.credit 0 1))
    rwa [hlate, c.arrive_uid, Group.receive_receive, ← hlist] at hstep

end

/-! ### tsync and tsig as wholes -/

theorem snapped_putSet_frame (s : State) (c : Ctx) (i : Nat) (u : TileSet) (gs : Table Group) (os : List OwnPut) :
    ({ ({ s.putSet i u with groups := gs, ownPuts := os } : State).advance c.uid c.fid with
      groups := s.groups, sets := s.sets, ownPuts := s.ownPuts } : State) = s := by
  cases s
  rfl

theorem snapped_arrived_frame (s : State) (c : Ctx) (gs : Table Group) (bs : Table Block) (os : List OwnPut) (uid : Nat) :
    ({ ({ s with groups := gs, blocks := bs, ownPuts := os, uid := uid } : State).advance c.uid c.fid with
      groups := s.groups, blocks := s.blocks, ownPuts := s.ownPuts, uid := s.uid } : State) = s := by
  cases s
  rfl

section
variable {f : FormG} {s : State} {c : Ctx} {i : Nat} {ts : TileSet} (hset : s.setOf c = some (i, ts)) (hc : Clear s c f.g [] [] false)
  (h0 : c.g.counter 3 = 0) (hd : c.g.delivered = []) (hr : c.repeats = false) (hlog : c.g.replay = []) (hh : c.holdsUp s = false)
include hset hc h0 hd hr hlog hh

theorem tsync_completes :
    ∃ t, execTsync f s = .next t ∧ ({ t with groups := s.groups, sets := s.sets, ownPuts := s.ownPuts } : State) = s
      ∧ t.ownPuts = (s.snapTo c.uid (s.part c.l.part).round).ownPuts ∧ GroupNow s t c (c.g.snapped (s.part c.l.part).round) c.f.next
      ∧ t.sets.get i = some { ts with marks := [] } ∧ ∀ j, j ≠ i → t.sets.get j = s.sets.get j := by
  have hi : IssuerIs s (s.putSet i { ts with marks := [] }) c c.g := (issuerIs_refl hc.1).putSet i _
  obtain ⟨hn, hg⟩ := (hi.snapNow hr hlog).completes hc.1 rfl (.inr hh)
  have hrun : execTsync f s = c.finish s (.done ((s.putSet i { ts with marks := [] }).snapNow c)) := by
    rw [execTsync, sysInstr_clear hc, tileWait_clear h0 hd, hset]
    rfl
  refine ⟨_, hrun.trans hn, ?_, ?_, hg, ?_, fun j hj => ?_⟩
  all_goals rw [hi.snapNow_apart hr hlog]
  · exact snapped_putSet_frame s c i _ _ _
  · rfl
  · exact Table.get_put_same _ _ _
  · exact Table.get_put_ne _ _ hj

theorem tsig_completes (hb : badBar f.handle c = false) (hnodup : ts.blocks.Nodup) :
    ∃ t, execTsig f s = .next t ∧ ({ t with groups := s.groups, blocks := s.blocks, ownPuts := s.ownPuts, uid := s.uid } : State) = s
      ∧ t.ownPuts = (s.snapTo c.uid (s.part c.l.part).round).ownPuts
      ∧ GroupNow s t c ((c.g.receive ((ts.blocks.filter (s.overruns f.handle.toNat (·.credit 0 1))).map fun _ => c.tsigOverrun s.uid f.handle.toNat)).snapped
          (s.part c.l.part).round) c.f.next
      ∧ ∀ k, t.blocks.get k =
          if k ∈ ts.blocks then (s.blocks.get k).map (·.withBar f.handle.toNat (·.credit 0 1)) else s.blocks.get k := by
  have hi := ((issuerIs_refl hc.1).foldl_arrive (n := f.handle.toNat) hnodup).of_groups_eq
    (u := { ts.blocks.foldl (c.arrive f.handle.toNat) s with uid := s.uid + 1 }) rfl
  obtain ⟨hn, hg⟩ := (hi.snapNow hr hlog).completes hc.1 rfl (.inr hh)
  have hrun : execTsig f s = c.finish s (.done (({ ts.blocks.foldl (c.arrive f.handle.toNat) s with uid := s.uid + 1 } : State).snapNow c)) := by
    rw [execTsig, sysFull_clear hc rfl hb, tileWait_clear h0 hd, hset]
    rfl
  have hpart : ({ ts.blocks.foldl (c.arrive f.handle.toNat) s with uid := s.uid + 1 } : State).part c.l.part = s.part c.l.part := by
    rw [Ctx.foldl_arrive_apart]
    rfl
  rw [hpart] at hg
  refine ⟨_, hrun.trans hn, ?_, ?_, hg, fun k => ?_⟩
  all_goals rw [hi.snapNow_apart hr hlog]
  · rw [Ctx.foldl_arrive_apart]
    exact snapped_arrived_frame s c _ _ _ _
  · rw [hpart]
    exact c.foldl_arrive_snapTo_ownPuts _ _ _ _
  · exact c.foldl_arrive_blocks_get _ hnodup s k

end

end Sys2Proof.Machine
end

section
/-! PROOFS. Expert counters (06 R164, R165, R167): what the additions of ecnt leave in the expert table of the partition, and the counter that xstat reads and zeroes. -/

namespace Sys2Proof.Machine

/-! ### One expert changed -/

/-- Of the whole machine, nothing but the expert table of one partition differs. -/
def OnlyExperts (s t : State) (p : Nat) : Prop :=
  ({ t with parts := s.parts } : State) = s ∧ (∀ q, q ≠ p → t.parts.get q = s.parts.get q)
    ∧ ((s.parts.get p).isSome = true →
        (t.parts.get p).isSome = true ∧ ({ t.part p with experts := (s.part p).experts } : Part) = s.part p)

theorem onlyExperts_refl (s : State) (p : Nat) : OnlyExperts s s p := ⟨rfl, fun _ _ => rfl, fun h => ⟨h, rfl⟩⟩

theorem OnlyExperts.trans {s t u : State} {p : Nat} (h₁ : OnlyExperts s t p) (h₂ : OnlyExperts t u p) : OnlyExperts s u p := by
  obtain ⟨hf₁, hq₁, hp₁⟩ := h₁
  obtain ⟨hf₂, hq₂, hp₂⟩ := h₂
  refine ⟨?_, fun q hq => (hq₂ q hq).trans (hq₁ q hq), fun hs => ?_⟩
  · exact (congrArg (fun v : State => { v with parts := s.parts }) hf₂).trans hf₁
  · obtain ⟨ht, he₁⟩ := hp₁ hs
    obtain ⟨hu, he₂⟩ := hp₂ ht
    exact ⟨hu, (congrArg (fun v : Part => { v with experts := (s.part p).experts }) he₂).trans he₁⟩

theorem State.part_congr {s t : State} (h : t.parts = s.parts) (p : Nat) : t.part p = s.part p := by rw [State.part, State.part, h]

theorem State.part_of_get {s : State} {p : Nat} {x : Part} (h : s.parts.get p = some x) : s.part p = x := by
  rw [State.part, Table.getD_eq, h, Option.getD_some]

section
variable {s : State} {p x : Nat} {h : Expert → Expert}

theorem State.bumpExpert_part (hp : (s.parts.get p).isSome = true) :
    (s.bumpExpert p x h).parts.get p = some { s.part p with experts := (s.part p).experts.put x (h ((s.part p).expert x)) } := by
  obtain ⟨r, hr⟩ := Option.isSome_iff_exists.mp hp
  rw [State.bumpExpert, State.updPart_get, if_pos rfl, hr, State.part_of_get hr, Option.map_some]

theorem onlyExperts_bumpExpert : OnlyExperts s (s.bumpExpert p x h) p := by
  refine ⟨rfl, fun q hq => ?_, fun hp => ?_⟩
  · rw [State.bumpExpert, State.updPart_get, if_neg hq]
  · have hb := State.bumpExpert_part (x := x) (h := h) hp
    rw [State.part_of_get hb, hb]
    exact ⟨rfl, rfl⟩

theorem State.bumpExpert_expert (hp : (s.parts.get p).isSome = true) (y : Nat) :
    ((s.bumpExpert p x h).part p).expert y = if y = x then h ((s.part p).expert x) else (s.part p).expert y := by
  rw [State.part_of_get (State.bumpExpert_part hp)]
  simp only [Part.expert, Table.getD_eq, Table.get_put]
  split <;> rfl

end

/-! ### The additions of ecnt (06 R165) -/

/-- The largest count of routed tokens. -/
def routedMax : Nat := 2 ^ 48 - 1

/-- An expert with tokens routed to it, saturating. -/
def Expert.route (e : Expert) (n : Nat) : Expert := { e with routed := min (e.routed + n) routedMax }

theorem Expert.route_zero {e : Expert} (h : e.routed ≤ routedMax) : e.route 0 = e := by
  rw [Expert.route, Nat.add_zero, Nat.min_eq_left h]

/-- Saturating at each token is saturating once. -/
theorem Expert.route_route (e : Expert) (m n : Nat) : (e.route m).route n = e.route (m + n) := by
  simp only [Expert.route, Expert.mk.injEq, true_and, and_true]
  omega

/-- What a lane of ecnt does: a lane that names no valid expert is skipped. -/
def State.countToken (p : Nat) (s : State) (y : Nat × Nat) : State :=
  if y.2 < 4096 ∧ ((s.part p).expert y.2).valid = true then s.bumpExpert p y.2 (·.route 1) else s

theorem onlyExperts_countToken (p : Nat) (s : State) (y : Nat × Nat) : OnlyExperts s (s.countToken p y) p := by
  unfold State.countToken
  split
  · exact onlyExperts_bumpExpert
  · exact onlyExperts_refl s p

theorem onlyExperts_foldl_countToken (p : Nat) (ys : List (Nat × Nat)) (s : State) : OnlyExperts s (ys.foldl (State.countToken p) s) p := by
  induction ys generalizing s with
  | nil => exact onlyExperts_refl s p
  | cons y ys ih => exact (onlyExperts_countToken p s y).trans (ih _)

/-- What n tokens of its identifier make of an expert. -/
def Expert.counted (e : Expert) (x n : Nat) : Expert := if x < 4096 ∧ e.valid = true then e.route n else e

theorem Expert.counted_zero {e : Expert} (x : Nat) (h : e.routed ≤ routedMax) : e.counted x 0 = e := by
  rw [Expert.counted, Expert.route_zero h, ite_self]

theorem Expert.counted_counted (e : Expert) (x m n : Nat) : (e.counted x m).counted x n = e.counted x (m + n) := by
  by_cases hv : x < 4096 ∧ e.valid = true
  · have hv' : x < 4096 ∧ (e.route m).valid = true := hv
    rw [Expert.counted, Expert.counted, Expert.counted, if_pos hv, if_pos hv', if_pos hv, Expert.route_route]
  · simp only [Expert.counted, if_neg hv]

theorem Expert.counted_routed_le {e : Expert} (x n : Nat) (h : e.routed ≤ routedMax) : (e.counted x n).routed ≤ routedMax := by
  unfold Expert.counted
  split
  · exact Nat.min_le_right _ _
  · exact h

theorem State.countToken_expert {s : State} {p : Nat} (hp : (s.parts.get p).isSome = true) (y : Nat × Nat) {x : Nat} (h : ((s.part p).expert x).routed ≤ routedMax) :
    ((s.countToken p y).part p).expert x = ((s.part p).expert x).counted x (if y.2 = x then 1 else 0) := by
  by_cases hx : y.2 = x
  · subst hx
    rw [if_pos rfl, State.countToken, Expert.counted]
    split
    next => rw [State.bumpExpert_expert hp, if_pos rfl]
    next => rfl
  · rw [if_neg hx, Expert.counted_zero x h, State.countToken]
    split
    next => rw [State.bumpExpert_expert hp, if_neg fun h => hx h.symm]
    next => rfl

theorem State.foldl_countToken_expert {s : State} {p : Nat} (hp : (s.parts.get p).isSome = true) (ys : List (Nat × Nat)) {x : Nat}
    (h : ((s.part p).expert x).routed ≤ routedMax) :
    ((ys.foldl (State.countToken p) s).part p).expert x = ((s.part p).expert x).counted x (ys.filter fun y => y.2 == x).length := by
  induction ys generalizing s with
  | nil => rw [List.filter_nil, List.length_nil, Expert.counted_zero x h, List.foldl_nil]
  | cons y ys ih =>
    obtain ⟨-, -, hsome⟩ := onlyExperts_countToken p s y
    have hy := State.countToken_expert hp y h
    rw [List.foldl_cons, ih (hsome hp).1 (hy ▸ Expert.counted_routed_le x _ h), hy, Expert.counted_counted]
    congr 1
    rw [List.filter_cons]
    by_cases hx : y.2 = x
    · rw [if_pos hx, if_pos (beq_iff_eq.mpr hx), List.length_cons, Nat.add_comm]
    · rw [if_neg hx, if_neg fun h => hx (beq_iff_eq.mp h), Nat.zero_add]

/-! ### What else an instruction on experts leaves -/

/-- The group's record is as it was where only experts have changed. -/
theorem OnlyExperts.issuerIs {s t : State} {c : Ctx} {p : Nat} (h : OnlyExperts s t p) (hc : s.ctx = some c) : IssuerIs s t c c.g :=
  (issuerIs_refl hc).of_groups_eq (congrArg State.groups h.1 :)

theorem OnlyExperts.uid_eq {s t : State} {p : Nat} (h : OnlyExperts s t p) : t.uid = s.uid := (congrArg State.uid h.1 :)

/-- The same, with the issuer's record and the numbering of operations free to change beside it. -/
theorem OnlyExperts.frame {s t : State} {p : Nat} (h : OnlyExperts s t p) :
    ({ t with groups := s.groups, parts := s.parts, uid := s.uid } : State) = s :=
  congrArg (fun v : State => { v with groups := s.groups, uid := s.uid }) h.1

theorem pass_frame (s t : State) (c : Ctx) (cls : Nat) :
    ({ (t.pass c cls).advance c.uid c.fid with groups := s.groups, parts := s.parts, uid := s.uid } : State)
      = { t with groups := s.groups, parts := s.parts, uid := s.uid } := by
  cases t
  rfl

theorem pass_advance_parts (t : State) (c : Ctx) (cls : Nat) : ((t.pass c cls).advance c.uid c.fid).parts = t.parts := by
  cases t
  rfl

theorem fly_advance_parts (t : State) (c : Ctx) (fl : Flight) : ((t.fly c fl).advance c.uid c.fid).parts = t.parts := by
  cases t
  rfl

theorem fly_frame (s t : State) (c : Ctx) (fl : Flight) :
    ({ (t.fly c fl).advance c.uid c.fid with groups := s.groups, parts := s.parts, uid := s.uid } : State)
      = { t with groups := s.groups, parts := s.parts, uid := s.uid } := by
  cases t
  rfl

theorem record_frame (s t : State) (uid : Nat) (kind : LogKind) (op : Nat) (data : List Nat) (digest : Nat) :
    ({ t.record uid kind op data digest with groups := s.groups, parts := s.parts, uid := s.uid } : State)
      = { t with groups := s.groups, parts := s.parts, uid := s.uid } := by
  cases t
  rfl

/-! ### ecnt -/

/-- The lanes of ecnt with the identifiers they name. -/
def Ctx.tokens (c : Ctx) (f : FormG) : List (Nat × Nat) := (lanesOf (c.eff f.g)).map fun j => (j, c.g.lane f.x j)

/-- The entry that a checked block's ecnt makes (06 R168). -/
def tokensEntry (ys : List (Nat × Nat)) : LogEntry :=
  { kind := .digest, op := 0xD8, data := [], digest := opDigest 0xD8 (ys.map fun x => (x.1, 0, [x.2])) }

/-- The state with the tokens counted, and logged by a checked block. -/
def State.tokensCounted (s : State) (c : Ctx) (f : FormG) : State :=
  let t := (c.tokens f).foldl (State.countToken c.l.part) s
  if c.b.check.isNone then t else t.record c.uid .digest 0xD8 [] (tokensEntry (c.tokens f)).digest

section
variable {s : State} {c : Ctx} (f : FormG)

theorem onlyExperts_tokens (s : State) (c : Ctx) : OnlyExperts s ((c.tokens f).foldl (State.countToken c.l.part) s) c.l.part :=
  onlyExperts_foldl_countToken _ _ _

theorem issuerIs_tokensCounted (hc : s.ctx = some c) :
    IssuerIs s (s.tokensCounted c f) c (if c.b.check.isNone then c.g else c.g.logs (tokensEntry (c.tokens f))) := by
  have hi := (onlyExperts_tokens f s c).issuerIs hc
  unfold State.tokensCounted
  dsimp only
  split
  · exact hi
  · exact hi.record _ _ _ _

theorem State.tokensCounted_parts : (s.tokensCounted c f).parts = ((c.tokens f).foldl (State.countToken c.l.part) s).parts := by
  unfold State.tokensCounted
  dsimp only
  split <;> rfl

theorem State.tokensCounted_uid : (s.tokensCounted c f).uid = s.uid := by
  refine Eq.trans ?_ (onlyExperts_tokens f s c).uid_eq
  unfold State.tokensCounted
  dsimp only
  split <;> rfl

theorem State.tokensCounted_frame : ({ s.tokensCounted c f with groups := s.groups, parts := s.parts, uid := s.uid } : State) = s := by
  have hframe := (onlyExperts_tokens f s c).frame
  unfold State.tokensCounted
  dsimp only
  split
  · exact hframe
  · exact (record_frame _ _ _ _ _ _ _).trans hframe

end

/-! ### xstat -/

/-- The counter that xstat reads of an expert (06 R167), by func. -/
def Expert.stat (e : Expert) (fld : Nat) : Nat := if !e.valid then 0 else match fld with | 0 => e.routed | 1 => e.fetched | 2 => e.fell | _ => 1

/-- The expert with that counter zeroed. -/
def Expert.clear (e : Expert) (fld : Nat) : Expert := match fld with | 0 => { e with routed := 0 } | 1 => { e with fetched := 0 } | _ => { e with fell := 0 }

section
variable (s : State) (c : Ctx) (f : FormG)

/-- The expert that xstat names. -/
def Ctx.statIndex : Nat := (c.g.sreg (opndIdx f.y)).toNat

/-- What xstat reads. -/
def State.statValue : Nat := ((s.part c.l.part).expert (c.statIndex f)).stat (f.func.toNat % 4)

/-- The state with the counter that xstat names zeroed, where func says so and the expert is valid. -/
def State.statCleared : State :=
  if bitAt f.func.toNat 2 && ((s.part c.l.part).expert (c.statIndex f)).valid then
    s.bumpExpert c.l.part (c.statIndex f) (·.clear (f.func.toNat % 4))
  else s

theorem onlyExperts_statCleared : OnlyExperts s (s.statCleared c f) c.l.part := by
  unfold State.statCleared
  split
  · exact onlyExperts_bumpExpert
  · exact onlyExperts_refl _ _

theorem State.statCleared_kept (h : bitAt f.func.toNat 2 = false ∨ ((s.part c.l.part).expert (c.statIndex f)).valid = false) :
    s.statCleared c f = s := by
  rcases h with h | h <;> simp only [State.statCleared, h, Bool.false_and, Bool.and_false, Bool.false_eq_true, if_false]

theorem State.statCleared_expert_ne (hp : (s.parts.get c.l.part).isSome = true) {y : Nat} (hy : y ≠ c.statIndex f) :
    ((s.statCleared c f).part c.l.part).expert y = (s.part c.l.part).expert y := by
  unfold State.statCleared
  split
  · rw [State.bumpExpert_expert hp, if_neg hy]
  · rfl

theorem State.statCleared_expert_same (hp : (s.parts.get c.l.part).isSome = true) (hclr : bitAt f.func.toNat 2 = true)
    (hv : ((s.part c.l.part).expert (c.statIndex f)).valid = true) :
    ((s.statCleared c f).part c.l.part).expert (c.statIndex f) = ((s.part c.l.part).expert (c.statIndex f)).clear (f.func.toNat % 4) := by
  rw [State.statCleared, hclr, hv, Bool.and_self, if_pos rfl, State.bumpExpert_expert hp, if_pos rfl]

/-- The entry of what xstat has read. -/
def Ctx.statEntry (v : Nat) : LogEntry := { kind := .xstat, op := 0xD9, data := [v], digest := opDigest 0xD9 [(0, 0, [c.statIndex f])] }

/-- The flight of xstat: its pair is written as it completes. -/
def State.statFlight : Flight :=
  { Flight.plain s.uid 4 c.f.pc (c.eff f.g) with blk := c.f.blk, writes := sclWrites (opndIdx f.x) (toWords 2 (s.statValue c f)) }

end

section
variable {f : FormG} {s : State} {c : Ctx} (hfull : c.g.full 4 = false) (hr : c.repeats = false) (hlog : c.g.replay = []) (hh : c.holdsUp s = false)
include hfull hr hlog hh

theorem ecnt_completes (hc : Clear s c f.g [] [(1, f.x)] false) :
    ∃ t, execEcnt f s = .next t ∧ ({ t with groups := s.groups, parts := s.parts, uid := s.uid } : State) = s
      ∧ GroupNow s t c ((if c.b.check.isNone then c.g else c.g.logs (tokensEntry (c.tokens f))).pass s.uid 4 c.f.pc) c.f.next
      ∧ t.parts = ((c.tokens f).foldl (State.countToken c.l.part) s).parts := by
  have hrun : execEcnt f s = c.finish s (.done ((s.tokensCounted c f).pass c 4)) := by
    rw [execEcnt, sysInstr_clear hc]
    dsimp only
    rw [if_neg (Bool.eq_false_iff.mp hfull), State.consult_of_no_replay _ _ _ hr hlog, ite_self, State.tokensCounted]
    cases c.b.check <;> rfl
  obtain ⟨hn, hg⟩ := ((issuerIs_tokensCounted f hc.1).pass 4).completes hc.1 (by split <;> rfl) (.inr hh)
  rw [State.tokensCounted_uid] at hg
  exact ⟨_, hrun.trans hn, (pass_frame s _ c 4).trans (State.tokensCounted_frame f), hg,
    (pass_advance_parts _ c 4).trans (State.tokensCounted_parts f)⟩

theorem xstat_completes (hc : Clear s c f.g [(2, f.x)] [(1, f.y)] false) (hx : c.statIndex f < 4096)
    (hclr : f.func.toNat % 4 = 3 → bitAt f.func.toNat 2 = false) :
    ∃ t, execXstat f s = .next t ∧ ({ t with groups := s.groups, parts := s.parts, uid := s.uid } : State) = s
      ∧ GroupNow s t c ((c.g.logs (c.statEntry f (s.statValue c f))).raise (s.statFlight c f)) c.f.next
      ∧ t.parts = (s.statCleared c f).parts := by
  have ho := onlyExperts_statCleared s c f
  have hi := ((ho.issuerIs hc.1).record .xstat 0xD9 [s.statValue c f] (c.statEntry f (s.statValue c f)).digest).fly (s.statFlight c f)
  obtain ⟨hn, hg⟩ := hi.completes hc.1 rfl (.inr hh)
  have hindex : ¬4096 ≤ (c.g.sreg (opndIdx f.y)).toNat := Nat.not_le.mpr hx
  refine ⟨_, Eq.trans ?_ hn, (fly_frame _ _ _ _).trans ((record_frame _ _ _ _ _ _ _).trans ho.frame), hg, fly_advance_parts _ _ _⟩
  rw [execXstat, sysInstr_clear hc, State.statFlight, ← ho.uid_eq]
  dsimp only
  rw [if_neg fun h => Bool.false_ne_true ((hclr h.1).symm.trans h.2), if_neg hindex, if_neg (Bool.eq_false_iff.mp hfull),
    State.consult_of_no_replay _ _ _ hr hlog]
  rfl

end

end Sys2Proof.Machine
end

section
/-! PROOFS. Loads of the buffer, the synchronisation of a tile set, and expert counters (06 R154, R164 to R168, R171). Settles O41. -/

open Sys2Proof Sys2Proof.Machine

/-- Settles O41: a load of some length enters its job, tsync and tsig end in the sequencer's snap, ecnt counts its tokens one by one, and xstat reads before it zeroes. -/
theorem tileLoadsAndExpertsComplete : Obligations.TileLoadsAndExpertsComplete := by
  refine ⟨fun f s c i ts hset hfull hroom hr hlog => ⟨fun hc halign hmult hlen => ?_, fun hc hx hv hoff hmult hlen hend => ?_⟩,
    fun f s c => ⟨fun i ts hset hc h0 hd hr hlog hroom => ⟨?_, fun hb _ hnodup => ?_⟩, fun hc hfull hr hlog hroom => ?_,
      fun hc hfull hr hlog hroom hx hclr => ?_⟩⟩
  · rw [execBload_checked hset hfull hroom hmult hlen hc halign]
    refine ⟨fun hn => ?_, fun hn => ?_⟩
    · rw [if_pos hn]
      exact finish_pass hc.1 3
    · rw [if_neg hn]
      exact finish_enterJob hc.1 (Ctx.holdsUp_eq_false hlog) hr 3 _
  · rw [execXfetch_checked hset hfull hroom hmult hlen hc hr hx hv hoff hend]
    refine ⟨fun hn => ?_, fun hn hmark => ?_, fun hn hmark => ?_⟩
    · rw [if_pos hn]
      exact finish_pass hc.1 3
    · rw [if_neg hn, if_neg fun h => hmark (List.contains_iff_mem.mp h)]
      exact finish_enterJob hc.1 (Ctx.holdsUp_eq_false hlog) hr 3 _
    · rw [if_neg hn, if_pos (List.contains_iff_mem.mpr hmark)]
      exact finish_logFetch hc.1 (Ctx.holdsUp_eq_false hlog) hr 3 _ _ _
  · exact next_of_arm (execTsync f s) rfl (tsync_completes hset hc h0 hd hr hlog (Ctx.holdsUp_eq_false hroom))
  · obtain ⟨t, ht, hframe, hown, hg, hget⟩ := tsig_completes hset hc h0 hd hr hlog (Ctx.holdsUp_eq_false hroom) hb hnodup
    refine ⟨t, ht, hframe, hown, ?_, fun b hin x hx => ⟨x.withBar f.handle.toNat (·.credit 0 1), ?_, ?_, rfl, fun m hm => ?_⟩, fun b hin => ?_⟩
    · rwa [Group.receive, hd, List.nil_append] at hg
    · rw [hget, if_pos hin, hx, Option.map_some]
    · rw [Block.withBar_bar, if_pos rfl]
    · rw [Block.withBar_bar, if_neg hm]
    · rw [hget, if_neg hin]
  · obtain ⟨t, ht, hframe, hg, hparts⟩ := ecnt_completes hfull hr hlog (Ctx.holdsUp_eq_false hroom) hc
    obtain ⟨-, hother, hsome⟩ := onlyExperts_tokens f s c
    refine ⟨t, ht, hframe, hg, fun q hq => hparts ▸ hother q hq, fun hp => ?_⟩
    rw [State.part_congr hparts]
    exact ⟨(hsome hp).2, fun x hx => State.foldl_countToken_expert hp _ hx⟩
  · obtain ⟨t, ht, hframe, hg, hparts⟩ := xstat_completes hfull hr hlog (Ctx.holdsUp_eq_false hroom) hc hx hclr
    obtain ⟨-, hother, hsome⟩ := onlyExperts_statCleared s c f
    refine ⟨t, ht, hframe, hg, fun q hq => hparts ▸ hother q hq, fun hkept => ?_, fun hp => ?_⟩
    · rw [hparts, State.statCleared_kept s c f hkept]
    · rw [State.part_congr hparts]
      exact ⟨(hsome hp).2, fun y hy => State.statCleared_expert_ne s c f hp hy, State.statCleared_expert_same s c f hp⟩
end

section
/-! PROOFS. What a write of the drivers leaves of the partition records: one record changed, tables read after a change of all their rows, and the range tables along the reduction of a partition (09 R230, 13 R293, R306). -/

namespace Sys2Proof.Machine

/-! ### Tables with every row changed or put -/

theorem assocGet_map {α : Type} (l : List (Nat × α)) (f : Nat → α → α) (k : Nat) :
    assocGet (l.map fun r => (r.1, f r.1 r.2)) k = (assocGet l k).map (f k) := by
  induction l with
  | nil => rfl
  | cons r l ih =>
    simp only [List.map_cons, assocGet, ih]
    by_cases hk : k = r.1
    · rw [if_pos hk, if_pos hk, hk, Option.map_some]
    · rw [if_neg hk, if_neg hk]

theorem Table.get_map {α : Type} (t : Table α) (f : Nat → α → α) (k : Nat) : (t.map f).get k = (t.get k).map (f k) :=
  assocGet_map _ _ _

/-- What stands in a table whose lists have all been filtered has passed the filter. -/
theorem Table.of_mem_get_map_filter {α : Type} {t : Table (List α)} {keep : α → Bool} {k : Nat} {es : List α} {e : α}
    (h : (t.map fun _ es => es.filter keep).get k = some es) (he : e ∈ es) : keep e = true := by
  rw [Table.get_map, Option.map_eq_some_iff] at h
  obtain ⟨old, -, rfl⟩ := h
  exact (List.mem_filter.mp he).2

/-- The rows of a canonical list, put one after another, stand over the table they are put in. -/
theorem Table.get_foldl_put {α : Type} {l : List (Nat × α)} {n : Nat} (hl : assocFrom n l = true) (t : Table α) (k : Nat) :
    (l.foldl (fun t x => t.put x.1 x.2) t).get k = (assocGet l k).or (t.get k) := by
  induction l generalizing n t with
  | nil => rfl
  | cons r l ih =>
    simp only [assocFrom, Bool.and_eq_true] at hl
    rw [List.foldl_cons, ih hl.2, assocGet]
    by_cases hk : k = r.1
    · rw [if_pos hk, hk, assocGet_eq_none_of_lt hl.2 (Nat.lt_succ_self _), Table.get_put_same, Option.none_or, Option.some_or]
    · rw [if_neg hk, Table.get_put_ne _ _ hk]

/-! ### One partition record changed -/

section
variable {s : State} {p : Nat} {h : Part → Part}

theorem State.get_of_isSome (hp : (s.parts.get p).isSome = true) : s.parts.get p = some (s.part p) := by
  obtain ⟨r, hr⟩ := Option.isSome_iff_exists.mp hp
  rw [hr, State.part_of_get hr]

/-- A partition that is enabled has a record: a cleared one is disabled. -/
theorem State.isSome_of_enable (he : (s.part p).enable = true) : (s.parts.get p).isSome = true := by
  cases hg : s.parts.get p with
  | none => rw [State.part, Table.getD_eq, hg] at he; cases he
  | some r => rfl

theorem State.updPart_get_same (hp : (s.parts.get p).isSome = true) : (s.updPart p h).parts.get p = some (h (s.part p)) := by
  rw [State.updPart_get, if_pos rfl, State.get_of_isSome hp, Option.map_some]

theorem State.updPart_part (hp : (s.parts.get p).isSome = true) : (s.updPart p h).part p = h (s.part p) :=
  State.part_of_get (State.updPart_get_same hp)

theorem State.updPart_isSome (hp : (s.parts.get p).isSome = true) : ((s.updPart p h).parts.get p).isSome = true := by
  rw [State.updPart_get_same hp, Option.isSome_some]

/-- A field of the records that the change keeps. -/
theorem State.updPart_get_map {β : Type} (f : Part → β) (hf : ∀ x, f (h x) = f x) (q : Nat) :
    ((s.updPart p h).parts.get q).map f = (s.parts.get q).map f := by
  rw [State.updPart_get]
  split
  · next hq => rw [hq, Option.map_map]; exact congrArg (Option.map · _) (funext hf)
  · rfl

theorem State.part_field {β : Type} (f : Part → β) (s : State) (q : Nat) : f (s.part q) = ((s.parts.get q).map f).getD (f Part.reset) := by
  rw [State.part, Table.getD_eq]
  cases s.parts.get q <;> rfl

theorem State.updPart_field {β : Type} (f : Part → β) (hf : ∀ x, f (h x) = f x) (q : Nat) : f ((s.updPart p h).part q) = f (s.part q) := by
  rw [State.part_field f, State.updPart_get_map f hf, ← State.part_field f]

theorem State.poke_part (s : State) (pa : Nat) (bs : List Byte) (q : Nat) : (s.poke pa bs).part q = s.part q := rfl

theorem State.accepted_get (hp : (s.parts.get p).isSome = true) (ok : Bool) :
    (s.accepted p ok).parts.get p = some { s.part p with status := ok } := State.updPart_get_same hp

theorem State.accepted_part (hp : (s.parts.get p).isSome = true) (ok : Bool) : (s.accepted p ok).part p = { s.part p with status := ok } :=
  State.part_of_get (State.accepted_get hp ok)

/-- The record after an accepted command that changes it. -/
theorem State.updPart_accepted_part (hp : (s.parts.get p).isSome = true) (ok : Bool) :
    ((s.updPart p h).accepted p ok).part p = { h (s.part p) with status := ok } := by
  rw [State.accepted_part (State.updPart_isSome hp), State.updPart_part hp]

theorem State.throughVf_enabled (he : (s.part p).enable = true) (t : State) : s.throughVf p t = .next t := by
  rw [State.throughVf, if_pos he]

theorem State.throughVf_disabled (he : (s.part p).enable = false) (t : State) :
    s.throughVf p t = .next { s with sent := s.sent ++ [.unsupported] } := by
  rw [State.throughVf, if_neg (Bool.eq_false_iff.mp he)]

end

/-! ### Range tables along a closing round -/

/-- The same partitions have records, with the same range tables. -/
def SameRanges (s t : State) : Prop := ∀ p, (t.parts.get p).map (·.ranges) = (s.parts.get p).map (·.ranges)

theorem SameRanges.isSome {s t : State} (h : SameRanges s t) (p : Nat) : (t.parts.get p).isSome = (s.parts.get p).isSome := by
  rw [← Option.isSome_map (f := fun x : Part => x.ranges), h p, Option.isSome_map]

theorem SameRanges.part_ranges {s t : State} (h : SameRanges s t) (p : Nat) : (t.part p).ranges = (s.part p).ranges := by
  rw [State.part_field (·.ranges), h p, ← State.part_field]

theorem SameRanges.of_parts_eq {s t u : State} (h : SameRanges s t) (hu : u.parts = t.parts) : SameRanges s u := fun p => hu ▸ h p

theorem SameRanges.updPart {s t : State} (h : SameRanges s t) {p : Nat} {f : Part → Part} (hf : ∀ x, (f x).ranges = x.ranges) :
    SameRanges s (t.updPart p f) := fun q => (State.updPart_get_map _ hf q).trans (h q)

theorem State.pokes_parts (ws : List (Nat × List Byte)) (s : State) : (s.pokes ws).parts = s.parts := by
  induction ws generalizing s with
  | nil => rfl
  | cons w ws ih => exact (ih _).trans rfl

theorem State.logError_parts (s : State) (e : ErrEntry) : (s.logError e).parts = s.parts := by
  unfold State.logError
  extract_lets die es s1
  have h1 : s1.parts = s.parts := (apply_ite State.parts _ _ _).trans (ite_self _)
  split
  · exact h1
  · exact (State.pokes_parts _ _).trans h1

theorem SameRanges.count {s t : State} (h : SameRanges s t) (i n : Nat) (owner : Option Nat) : SameRanges s (t.count i n owner) := by
  cases owner with
  | none => exact h
  | some p => exact SameRanges.updPart (h.of_parts_eq rfl) fun _ => rfl

theorem SameRanges.notePoison {s t : State} (h : SameRanges s t) (line : Nat) (owner : Option (Nat × Nat)) :
    SameRanges s (t.notePoison line owner) := by
  unfold State.notePoison
  extract_lets s1 s2 e
  have h1 : s1.parts = t.parts := (apply_ite State.parts _ _ _).trans (ite_self _)
  have h2 : s2.parts = s1.parts := (apply_ite State.parts _ _ _).trans (ite_self _)
  exact SameRanges.of_parts_eq (SameRanges.count (h.of_parts_eq (h2.trans h1)) _ _ _) (State.logError_parts _ _)

theorem State.keepBase_parts (s : State) (line : Nat) : (s.keepBase line).parts = s.parts := by
  rw [State.keepBase]
  split <;> rfl

theorem SameRanges.notePoison_ite {s t : State} (h : SameRanges s t) (c : Prop) [Decidable c] (line : Nat) (owner : Option (Nat × Nat)) :
    SameRanges s (if c then t.notePoison line owner else t) := by
  split
  · exact h.notePoison line owner
  · exact h

theorem SameRanges.closeLine {s t : State} (h : SameRanges s t) (part n : Nat) (puts : List Handed) (upds : List HandedUpd) (line : Nat) :
    SameRanges s (t.closeLine part n puts upds line) := by
  refine SameRanges.notePoison_ite ?_ _ _ _
  exact h.of_parts_eq (State.keepBase_parts t line)

theorem SameRanges.closeLines {s t : State} (h : SameRanges s t) (part : Nat) : SameRanges s (t.closeLines part).1 := by
  refine SameRanges.updPart ?_ fun _ => rfl
  refine List.foldlRecOn _ _ ?_ fun u hu x _ => hu.of_parts_eq rfl
  exact List.foldlRecOn _ _ (h.of_parts_eq rfl) fun u hu l _ => hu.closeLine _ _ _ _ _

/-! ### The reduction of a partition (13 R293) -/

theorem SameRanges.writeBack {s t : State} (h : SameRanges s t) (part : Nat) : SameRanges s (t.writeBack part) := by
  have h1 : SameRanges s (if (t.part part).roundOpen then (t.closeLines part).1 else t) := by
    split
    · exact h.closeLines part
    · exact h
  exact h1.of_parts_eq rfl

theorem SameRanges.reduce {s t : State} (h : SameRanges s t) (part : Nat) (gone : BitVec 16) (off : Bool) : SameRanges s (t.reduce part gone off) := by
  have hdrop : SameRanges s (t.dropPrivate fun h => h.part == part) := h.of_parts_eq rfl
  exact (hdrop.writeBack part).of_parts_eq rfl

/-- The state of a command on a partition's record or ranges once what the partition loses is reduced, if it loses anything. -/
def Reduced (s u : State) (p : Nat) : Prop := u = s ∨ ∃ gone off, u = s.reduce p gone off

theorem Reduced.ite {s : State} {p : Nat} (c : Prop) [Decidable c] (gone : BitVec 16) (off : Bool) :
    Reduced s (if c then s.reduce p gone off else s) p := by
  split
  · exact .inr ⟨gone, off, rfl⟩
  · exact .inl rfl

theorem Reduced.sameRanges {s u : State} {p : Nat} (h : Reduced s u p) : SameRanges s u := by
  have hs : SameRanges s s := fun _ => rfl
  obtain rfl | ⟨gone, off, rfl⟩ := h
  · exact hs
  · exact hs.reduce p gone off

theorem State.writeBack_of_closed {s : State} {p : Nat} (ho : (s.part p).roundOpen = false) :
    (s.writeBack p).parts = s.parts ∧ (s.writeBack p).mem = s.mem ∧ (s.writeBack p).groups = s.groups := by
  have h1 : (if (s.part p).roundOpen then (s.closeLines p).1 else s) = s := if_neg (Bool.eq_false_iff.mp ho)
  exact ⟨(congrArg State.parts h1 :), (congrArg State.mem h1 :), (congrArg State.groups h1 :)⟩

/-- Without an open round, a reduction writes no memory: it discards what caches and layers hold. -/
theorem Reduced.frame {s u : State} {p : Nat} (h : Reduced s u p) (ho : (s.part p).roundOpen = false) :
    u.parts = s.parts ∧ u.mem = s.mem ∧ u.groups = s.groups := by
  obtain rfl | ⟨gone, off, rfl⟩ := h
  · exact ⟨rfl, rfl, rfl⟩
  · exact State.writeBack_of_closed (s := s.dropPrivate fun h => h.part == p) ho

/-! ### Lines of a range gained, and page requests posted -/

theorem State.gainRange_frame (s : State) (p : Nat) (e : RangeEntry) : (s.gainRange p e).parts = s.parts ∧ (s.gainRange p e).mem = s.mem :=
  List.foldlRecOn (motive := fun u : State => u.parts = s.parts ∧ u.mem = s.mem) _ _ ⟨rfl, rfl⟩ fun _ hu _ _ => hu

theorem State.gainRange_ite_frame (s : State) (p : Nat) (e : RangeEntry) (c : Prop) [Decidable c] :
    (if c then s.gainRange p e else s).parts = s.parts ∧ (if c then s.gainRange p e else s).mem = s.mem := by
  split
  · exact s.gainRange_frame p e
  · exact ⟨rfl, rfl⟩

theorem State.postPages_pageRing (p fuel : Nat) (s : State) : ((s.postPages p fuel).part p).pageRing = (s.part p).pageRing := by
  induction fuel generalizing s with
  | zero => rfl
  | succ fuel ih =>
    rw [State.postPages]
    dsimp only
    split
    · split
      · rw [ih, State.poke_part]
        refine State.updPart_field Part.pageRing (fun _ => ?_) p
        rfl
      · rfl
    · rfl

end Sys2Proof.Machine
end

section
/-! PROOFS. The commands by which drivers write partition records, ranges, attributes, queues, rings, experts, counters and keys (13 R291 to R312), each where its rules hold. Settles O53. -/

namespace Sys2Proof.Machine

/-! ### Records and ranges -/

section
variable {s : State} {p : Nat}

theorem exec_partitionConfigWrite_accepted {conf : PartConfig} (hp : p ≤ 15) (hok : confOk conf = true) (hfit : s.confFits p conf = true)
    (hbusy : s.partBusy p = false) :
    ∃ u keys, Reduced s u p ∧ exec (.partitionConfigWrite p conf) s
      = .next (({ u with parts := u.parts.put p ((u.part p).configured conf), keys := keys } : State).accepted p true) := by
  refine ⟨_, _, Reduced.ite _ _ _, congrArg Host.Outcome.next (if_neg ?_)⟩
  simp only [hok, hfit, hbusy, Bool.not_true, Bool.and_false, Bool.or_false, decide_eq_true_eq]
  omega

theorem partitionConfigWrite_next {conf : PartConfig} (hp : p ≤ 15) (hok : confOk conf = true) (hfit : s.confFits p conf = true)
    (hbusy : s.partBusy p = false) :
    ∃ t u, exec (.partitionConfigWrite p conf) s = .next t ∧ Reduced s u p ∧ t.mem = u.mem ∧ t.groups = u.groups
      ∧ t.parts.get p = some { (u.part p).configured conf with status := true } ∧ ∀ r, r ≠ p → t.parts.get r = u.parts.get r := by
  obtain ⟨u, keys, hu, hx⟩ := exec_partitionConfigWrite_accepted hp hok hfit hbusy
  have hput : ({ u with parts := u.parts.put p ((u.part p).configured conf), keys := keys } : State).parts.get p = some ((u.part p).configured conf) :=
    Table.get_put_same _ _ _
  refine ⟨_, u, hx, hu, rfl, rfl, ?_, fun r hr => ?_⟩
  · rw [State.accepted_get (Option.isSome_of_eq_some hput), State.part_of_get hput]
  · rw [State.accepted, State.updPart_get, if_neg hr]
    exact Table.get_put_ne _ _ hr

theorem exec_rangeTableWrite_accepted {i : Nat} {e : BitVec 128} {r : RangeEntry} (he : rangeOf e = some r) (hp : p ≤ 15) (hi : i ≤ 15)
    (hbusy : s.partBusy p = false) (hv : r.valid = true → r.inPlace = true ∧ (s.part p).rangeClear i r = true ∧ s.rangeFits p r = true) :
    ∃ u, Reduced s u p ∧ exec (.rangeTableWrite p i e) s
      = .next ((if r.valid then (u.updPart p fun x => { x with ranges := x.ranges.put i r }).gainRange p r
          else u.updPart p fun x => { x with ranges := x.ranges.put i r }).accepted p true) := by
  rw [show exec (.rangeTableWrite p i e) s = execRangeTableWrite p i e s from rfl, execRangeTableWrite, he]
  refine ⟨_, Reduced.ite _ _ _, congrArg Host.Outcome.next (if_neg ?_)⟩
  cases hr : r.valid with
  | false =>
    simp only [hbusy, Bool.false_and, Bool.or_false, Bool.or_eq_true, decide_eq_true_eq]
    omega
  | true =>
    obtain ⟨hin, hclear, hfits⟩ := hv hr
    simp only [hbusy, hin, hclear, hfits, Bool.not_true, Bool.and_false, Bool.or_false, Bool.or_eq_true, decide_eq_true_eq]
    omega

theorem rangeTableWrite_next {i : Nat} {e : BitVec 128} {r : RangeEntry} (he : rangeOf e = some r) (hp : p ≤ 15) (hi : i ≤ 15)
    (hs : (s.parts.get p).isSome = true) (hbusy : s.partBusy p = false)
    (hv : r.valid = true → r.inPlace = true ∧ (s.part p).rangeClear i r = true ∧ s.rangeFits p r = true) :
    ∃ t, exec (.rangeTableWrite p i e) s = .next t ∧ (t.part p).ranges = (s.part p).ranges.put i r ∧ (t.part p).status = true
      ∧ ((s.part p).roundOpen = false → t.mem = s.mem) := by
  obtain ⟨u, hu, hx⟩ := exec_rangeTableWrite_accepted he hp hi hbusy hv
  obtain ⟨hw, hm⟩ := State.gainRange_ite_frame (u.updPart p fun x => { x with ranges := x.ranges.put i r }) p r (r.valid = true)
  have hus : (u.parts.get p).isSome = true := (hu.sameRanges.isSome p).trans hs
  have hrec := State.accepted_part (hw ▸ State.updPart_isSome hus) true
  refine ⟨_, hx, ?_, ?_, fun ho => hm.trans (hu.frame ho).2.1⟩
  · rw [hrec, State.part_congr hw, State.updPart_part hus]
    exact congrArg (Table.put · i r) (hu.sameRanges.part_ranges p)
  · rw [hrec]

/-! ### Attributes and invalidations (13 R305, R308) -/

theorem exec_regionAttributeWrite_accepted {v i : Nat} {e : BitVec 128} {r : Region} (he : regionOf e = some r) (hv : v ≤ 7) (hi : i ≤ 15)
    (hen : (s.part p).enable = true) :
    exec (.regionAttributeWrite p v i e) s = .next ((s.updPart p fun x =>
      { x with vdev := x.vdev.put v { (x.vd v) with written := (x.vd v).written.put i r } }).accepted p true) := by
  show execRegionAttributeWrite p v i e s = _
  rw [execRegionAttributeWrite, State.throughVf_enabled hen, he]
  exact congrArg Host.Outcome.next (if_neg (by omega))

theorem Part.vd_of_put {x : Part} {devs : Table Vdev} {v : Nat} {d : Vdev} (h : x.vdev = devs.put v d) : x.vd v = d := by
  rw [Part.vd, h, Table.getD_eq, Table.get_put_same, Option.getD_some]

theorem regionAttributeWrite_next {v i : Nat} {e : BitVec 128} {r : Region} (he : regionOf e = some r) (hv : v ≤ 7) (hi : i ≤ 15)
    (hen : (s.part p).enable = true) :
    ∃ t, exec (.regionAttributeWrite p v i e) s = .next t ∧ ({ t with parts := s.parts } : State) = s
      ∧ (t.part p).vd v = { (s.part p).vd v with written := ((s.part p).vd v).written.put i r } := by
  refine ⟨_, exec_regionAttributeWrite_accepted he hv hi hen, rfl, ?_⟩
  rw [State.updPart_accepted_part (State.isSome_of_enable hen)]
  exact Part.vd_of_put rfl

/-- The translations and pages that an invalidation names, dropped. -/
def State.untranslated (s : State) (p v : Nat) (range : Option (Nat × Nat × Nat)) : State :=
  let keep := fun (e : TlbEntry) => !(decide (e.part = p ∧ e.vdev = v) && pageNamed range e.page e.shift)
  { s with tlbCore := s.tlbCore.map fun _ es => es.filter keep, tlbDie := s.tlbDie.map fun _ es => es.filter keep,
           usedPages := s.usedPages.filter keep }

/-- The written attributes of the regions that an invalidation names, in effect. -/
def Vdev.inEffect (d : Vdev) (range : Option (Nat × Nat × Nat)) : Vdev :=
  let named := fun (k : Nat) => match range with | none => true | some (r, _, _) => r == k
  { d with regions := (d.written.filter fun k _ => named k).rows.foldl (fun t x => t.put x.1 x.2) d.regions,
           written := d.written.filter fun k _ => !named k }

theorem exec_tlbInvalidation_drained {v : Nat} {range : Option (Nat × Nat × Nat)} (hd : s.drained p v range = true) :
    exec (.tlbInvalidation p v range) s = .next (((s.untranslated p v range).updPart p fun x =>
      { x with vdev := x.vdev.put v ((x.vd v).inEffect range) }).accepted p true) := by
  show execTlbInvalidation p v range s = _
  rw [execTlbInvalidation, hd]
  rfl

theorem State.untranslated_named {v : Nat} {range : Option (Nat × Nat × Nat)} {k : Nat} {es : List TlbEntry}
    (h : (s.untranslated p v range).tlbCore.get k = some es ∨ (s.untranslated p v range).tlbDie.get k = some es)
    {e : TlbEntry} (he : e ∈ es) (hp : e.part = p) (hv : e.vdev = v) : pageNamed range e.page e.shift = false := by
  have hkeep : (!(decide (e.part = p ∧ e.vdev = v) && pageNamed range e.page e.shift)) = true := by
    obtain h | h := h
    all_goals exact Table.of_mem_get_map_filter (α := TlbEntry) (keep := fun e => !(decide (e.part = p ∧ e.vdev = v) && pageNamed range e.page e.shift)) h he
  simpa [hp, hv] using hkeep

theorem Vdev.inEffect_none {d : Vdev} (hwf : d.written.wf = true) {k : Nat} {r : Region} (hr : d.written.get k = some r) :
    (d.inEffect none).regions.get k = some r := by
  have hall : (d.written.filter fun _ _ => true).rows = d.written.rows := List.filter_eq_self.mpr fun _ _ => rfl
  rw [Vdev.inEffect, hall, Table.get_foldl_put hwf]
  exact congrArg (Option.or · _) hr

theorem tlbInvalidation_next {v : Nat} {range : Option (Nat × Nat × Nat)} (hs : (s.parts.get p).isSome = true) (hd : s.drained p v range = true) :
    ∃ t, exec (.tlbInvalidation p v range) s = .next t ∧ t.mem = s.mem
      ∧ (∀ k es, t.tlbCore.get k = some es ∨ t.tlbDie.get k = some es → ∀ e ∈ es, e.part = p → e.vdev = v → pageNamed range e.page e.shift = false)
      ∧ (range = none → ((s.part p).vd v).written.wf = true →
          ∀ k r, ((s.part p).vd v).written.get k = some r → ((t.part p).vd v).regions.get k = some r) := by
  refine ⟨_, exec_tlbInvalidation_drained hd, rfl, fun k es hget e he => State.untranslated_named hget he, ?_⟩
  rintro rfl hwf k r hr
  have hvd : ((((s.untranslated p v none).updPart p fun x => { x with vdev := x.vdev.put v ((x.vd v).inEffect none) }).accepted p true).part p).vd v
      = ((s.part p).vd v).inEffect none := by
    rw [State.updPart_accepted_part (s := s.untranslated p v none) hs]
    exact Part.vd_of_put rfl
  rw [hvd]
  exact Vdev.inEffect_none hwf hr

/-! ### Queues, rings and the check area -/

theorem exec_pageRequestRingRegister_accepted {base n : Nat} (hlo : 16 ≤ n) (hhi : n ≤ 4096) :
    ∃ fuel, exec (.pageRequestRingRegister p base n) s = .next ((s.updPart p fun x =>
      { x with pageRing := some { desc := 0, base := base, entries := n, windex := 0, dropped := 0 } }).postPages p fuel) :=
  ⟨_, congrArg Host.Outcome.next (if_neg (by omega))⟩

theorem pos_of_ringSize {n : Nat} (h : ringSize n = true) : 1 ≤ n := by
  rw [ringSize, List.contains_iff_mem] at h
  have hall : ∀ m ∈ [16, 32, 64, 128, 256, 512, 1024, 2048, 4096, 8192, 16384, 32768, 65536], 1 ≤ m := by decide
  exact hall n h

theorem exec_packetQueueRegister_accepted {q a : Nat} (hq : q < 64) (ha : a % 128 = 0) (hdev : isDevice a = true) (hen : (s.part p).enable = true) :
    let d : PacketQueue := { desc := a, open_ := [], ready := Table.empty, taken := 0, wants := Table.empty }
    ringSize (s.queueField d 0x10 4) = true → ringSize (s.queueField d 0x14 4) = true → s.queueField d 0 16 < 2 ^ 80 →
    s.queueField d 0 16 % (64 * s.queueField d 0x10 4) = 0 → s.queueField d 0x28 16 < 2 ^ 80 →
    s.queueField d 0x28 16 % (16 * s.queueField d 0x14 4) = 0 → s.queueField d 0x40 64 = 0 →
    exec (.packetQueueRegister p q a) s = .next (s.updPart p fun x => { x with packets := x.packets.put q d }) := by
  intro d hring hrec hb hbm hr hrm hz
  have hok : (decide (q < 64) && decide (a % 128 = 0) && isDevice a && ringSize (s.queueField d 0x10 4) && ringSize (s.queueField d 0x14 4)
      && decide (s.queueField d 0 16 < 2 ^ 80) && decide (s.queueField d 0 16 % (64 * max (s.queueField d 0x10 4) 1) = 0)
      && decide (s.queueField d 0x28 16 < 2 ^ 80) && decide (s.queueField d 0x28 16 % (16 * max (s.queueField d 0x14 4) 1) = 0)
      && decide (s.queueField d 0x40 64 = 0)) = true := by
    rw [Nat.max_eq_left (pos_of_ringSize hring), Nat.max_eq_left (pos_of_ringSize hrec)]
    simp only [hq, ha, hdev, hring, hrec, hb, hbm, hr, hrm, hz, decide_true, Bool.and_true]
  exact (congrArg (s.throughVf p) (if_pos hok)).trans (State.throughVf_enabled hen _)

theorem exec_serviceRingRegister_accepted {a : Nat} {r : Ring} (hr : s.ringAt a = some r) (hen : (s.part p).enable = true) :
    exec (.serviceRingRegister p a) s = .next (s.updPart p fun x => { x with svcRing := some r }) := by
  show execServiceRingRegister p a s = _
  rw [execServiceRingRegister, State.throughVf_enabled hen, hr]

theorem exec_adminQueueRegister_accepted {a : Nat} {r : Ring} (hr : s.ringAt a = some r) :
    exec (.adminQueueRegister a) s = .next { s with adminRing := some r } := by
  show execAdminQueueRegister a s = _
  rw [execAdminQueueRegister, hr]

theorem exec_workQueueCapacity_accepted {q n : Nat} (hq : q < 256) (hlo : 64 ≤ n) (hhi : n ≤ 65536) (hen : (s.part p).enable = true) :
    exec (.workQueueCapacity p q n) s
      = .next (s.putQueue p q { (s.part p).queues.getD q { cap := n, items := [], waiters := [] } with cap := n }) := by
  show execWorkQueueCapacity p q n s = _
  rw [execWorkQueueCapacity, State.throughVf_enabled hen]
  exact congrArg Host.Outcome.next (if_neg (by omega))

/-- An area of one unit has its first and its last byte in ranges of the partition's DRAM. -/
theorem exec_checkAreaRegister_unit {base bytes : Nat} (hb : bytes = 2 ^ 26) (hlo : ∃ e ∈ (s.part p).rangesOver base, e.kind = 0)
    (hhi : ∃ e ∈ (s.part p).rangesOver (base + bytes - 1), e.kind = 0) :
    exec (.checkAreaRegister p base bytes) s
      = .next ((s.updPart p fun x => { x with checkBase := base, checkBytes := bytes }).accepted p true) := by
  have inside : ∀ {a}, (∃ e ∈ (s.part p).rangesOver a, e.kind = 0) → ((s.part p).rangesOver a).any (fun e => decide (e.kind = 0)) = true :=
    fun ⟨e, he, hk⟩ => List.any_eq_true.mpr ⟨e, he, decide_eq_true hk⟩
  refine congrArg Host.Outcome.next (if_pos ?_)
  simp only [inside hlo, inside hhi, Nat.le_of_eq hb.symm, decide_true, Bool.true_and, List.all_eq_true]
  intro i hi
  rw [List.mem_range] at hi
  cases i with
  | zero => rw [Nat.zero_mul, Nat.add_zero, inside hlo, Bool.or_true]
  | succ i => rw [decide_eq_true (by omega), Bool.true_or]

/-! ### Experts (06 R164) -/

theorem expertOf_counters {e : BitVec 512} {old x : Expert} (h : expertOf e old = some x) :
    x.routed = old.routed ∧ x.fetched = old.fetched ∧ x.fell = old.fell := by
  unfold expertOf at h
  dsimp only at h
  split at h
  · cases h
  · cases h
    exact ⟨rfl, rfl, rfl⟩

theorem exec_expertTableWrite_accepted {i : Nat} {e : BitVec 512} {x : Expert} (hi : i ≤ 4095) (he : expertOf e ((s.part p).expert i) = some x)
    (hv : x.valid = true → (s.part p).deviceResident x.fallback.toNat = true) :
    exec (.expertTableWrite p i e) s = .next ((s.updPart p fun y => { y with experts := y.experts.put i x }).accepted p true) := by
  show execExpertTableWrite p i e s = _
  rw [execExpertTableWrite, he]
  refine congrArg Host.Outcome.next (if_neg ?_)
  rintro (hlt | ⟨hx, hno⟩)
  · omega
  · rw [hv hx] at hno
    cases hno

theorem Part.expert_put (y : Part) (i : Nat) (x : Expert) : ({ y with experts := y.experts.put i x } : Part).expert i = x := by
  rw [Part.expert, Table.getD_eq, Table.get_put_same, Option.getD_some]

/-- A counter of an expert without an entry is 0 already. -/
theorem Part.expert_routed_cleared (y : Part) (i : Nat) :
    (({ y with experts := y.experts.upd i fun e => { e with routed := 0 } } : Part).expert i).routed = 0
      ∧ (({ y with experts := y.experts.upd i fun e => { e with routed := 0 } } : Part).expert i).fetched = (y.expert i).fetched := by
  simp only [Part.expert, Table.getD_eq, Table.get_upd, if_pos]
  cases y.experts.get i <;> exact ⟨rfl, rfl⟩

/-! ### Counters (13 R296, 17 R377) -/

theorem exec_counterWrite_enabled (hen : (s.part p).enable = true) {r i n : Nat} {t : State} (h : execCounterWrite p r i n s = s.throughVf p t) :
    exec (.counterWrite p r i n) s = .next t := h.trans (State.throughVf_enabled hen t)

theorem execCounterWrite_pageRequests {i : Nat} :
    execCounterWrite p 0x050 i 0 s = s.throughVf p (s.updPart p fun x => { x with pageCount := 0 }) := rfl

theorem execCounterWrite_routed {i : Nat} :
    execCounterWrite p 0x060 i 0 s
      = s.throughVf p (s.updPart p fun x => { x with experts := x.experts.upd i fun e => { e with routed := 0 } }) := rfl

/-- A threshold of the group watchdog in its range (07 R202). -/
theorem execCounterWrite_watchdog {i n : Nat} (hlo : 1 ≤ n) (hhi : n < 2 ^ 32) :
    execCounterWrite p 0x030 i n s = s.throughVf p (s.updPart p fun x => { x with wdGroup := n }) :=
  congrArg (s.throughVf p) (if_pos (decide_eq_true ⟨hlo, Nat.le_pred_of_lt hhi⟩))

/-- The partition's error counts are the registers 0x010 to 0x01F, which no case before the last one names. -/
theorem execCounterWrite_errs {i n : Nat} (hn : n < 16) :
    execCounterWrite p (0x010 + n) i 0 s = s.throughVf p (s.updPart p fun x => { x with errs := x.errs.put n 0 }) := by
  refine congrArg (s.throughVf p) ?_
  split
  case h_7 =>
    rw [State.sysWrite, if_pos ⟨by omega, by omega, rfl⟩, Nat.add_sub_cancel_left]
    all_goals omega
  all_goals omega

/-! ### Tenant keys (13 R312) -/

theorem exec_tenantKeyLoad_accepted {v : Nat} {key : BitVec 256} (hp : p ≤ 15) (hv : v ≤ 7) (hen : (s.part p).enable = true)
    (hvd : (s.part p).vdevs.getLsbD v = true) :
    exec (.tenantKeyLoad p v key) s = .next { s with keys := s.keys.put (8 * p + v) key } := by
  refine congrArg Host.Outcome.next (if_neg ?_)
  rw [hen, hvd]
  simp only [Bool.not_true, Bool.false_eq_true, or_false]
  omega

end

end Sys2Proof.Machine

open Sys2Proof Sys2Proof.Machine

/-- Settles O53: each write's arm is one change of the partition's record (or of the keys, or of the device's ring) where its rules hold; the reduction before a record or range write keeps the range tables, and without an open round keeps memory too. -/
theorem configurationEvents : Obligations.ConfigurationEvents := by
  refine ⟨fun s p conf hp hok hfit hbusy => ?_, fun s p i e r he hp hi hs hbusy hv => rangeTableWrite_next he hp hi hs hbusy hv,
    fun s p v i e r he hv hi hen => ?_, fun s p v range hs hd => tlbInvalidation_next hs hd, fun s p base n hlo hhi hs => ?_,
    fun s p q a hq ha hdev hen => ?_, fun s p q n hq hlo hhi hen => ?_, fun s p i e x hi he hs hv => ?_, fun s p base hs hlo hhi => ?_,
    fun s p a r hr hs => ⟨fun hen => ?_, ?_⟩, fun s p i n hen => ⟨?_, ?_, fun hlo hhi => ?_, fun hn => ?_⟩, fun s p hoff => ?_,
    fun s p v key hp hv => ⟨fun hen hvd => ?_, ?_⟩⟩
  · obtain ⟨t, u, hx, hu, hm, hg, hget, hother⟩ := partitionConfigWrite_next hp hok hfit hbusy
    refine ⟨t, _, hx, hget, rfl, rfl, rfl, rfl, rfl, rfl, rfl, rfl, rfl, hu.sameRanges.part_ranges p, fun ho => ?_⟩
    obtain ⟨hparts, humem, hugroups⟩ := hu.frame ho
    exact ⟨hm.trans humem, hg.trans hugroups, fun r hr => hparts ▸ hother r hr⟩
  · obtain ⟨t, hx, hframe, hvd⟩ := regionAttributeWrite_next he hv hi hen
    exact ⟨t, hx, hframe, by rw [hvd, Table.get_put_same], by rw [hvd]⟩
  · obtain ⟨fuel, hx⟩ := exec_pageRequestRingRegister_accepted (s := s) (p := p) (base := base) hlo hhi
    exact ⟨_, _, hx, (State.postPages_pageRing _ _ _).trans (congrArg Part.pageRing (State.updPart_part hs)), rfl, rfl⟩
  · intro d hring hrec hb hbm hr hrm hz
    refine ⟨_, exec_packetQueueRegister_accepted hq ha hdev hen hring hrec hb hbm hr hrm hz, rfl, ?_⟩
    rw [State.updPart_part (State.isSome_of_enable hen)]
  · refine ⟨_, { (s.part p).queues.getD q { cap := n, items := [], waiters := [] } with cap := n },
      exec_workQueueCapacity_accepted hq hlo hhi hen, ?_, rfl, ?_, rfl⟩
    · rw [State.putQueue, State.updPart_part (State.isSome_of_enable hen), Table.get_put_same]
    · rw [Table.getD_eq]
      cases (s.part p).queues.get q <;> rfl
  · refine ⟨_, exec_expertTableWrite_accepted hi he hv, rfl, ?_, expertOf_counters he⟩
    rw [State.updPart_accepted_part hs]
    exact Part.expert_put (s.part p) i x
  · refine ⟨_, exec_checkAreaRegister_unit rfl hlo hhi, rfl, ?_⟩
    rw [State.updPart_accepted_part hs]
    exact ⟨rfl, rfl⟩
  · refine ⟨_, exec_serviceRingRegister_accepted hr hen, rfl, ?_⟩
    rw [State.updPart_part hs]
  · exact ⟨_, exec_adminQueueRegister_accepted hr, rfl, rfl⟩
  · refine ⟨_, exec_counterWrite_enabled hen execCounterWrite_pageRequests, rfl, ?_⟩
    rw [State.updPart_part (State.isSome_of_enable hen)]
  · refine ⟨_, exec_counterWrite_enabled hen execCounterWrite_routed, rfl, ?_⟩
    rw [State.updPart_part (State.isSome_of_enable hen)]
    exact Part.expert_routed_cleared _ i
  · refine ⟨_, exec_counterWrite_enabled hen (execCounterWrite_watchdog hlo hhi), rfl, ?_⟩
    rw [State.updPart_part (State.isSome_of_enable hen)]
  · refine ⟨_, exec_counterWrite_enabled hen (execCounterWrite_errs hn), rfl, ?_⟩
    rw [State.updPart_part (State.isSome_of_enable hen), Table.getD_eq, Table.get_put_same, Option.getD_some]
  · exact ⟨fun q a => State.throughVf_disabled hoff _, fun q n => State.throughVf_disabled hoff _, fun v i e => State.throughVf_disabled hoff _,
      fun a => State.throughVf_disabled hoff _, fun r i n => State.throughVf_disabled hoff _⟩
  · exact ⟨_, exec_tenantKeyLoad_accepted hp hv hen hvd, rfl, Table.get_put_same _ _ _⟩
  · exact ⟨_, rfl, rfl, fun hwf => (Table.get_del hwf _ _).trans (if_pos rfl)⟩
end

section
/-! PROOFS. Gate instructions at issue (14 R318 to R325, R331): what the result block, the import mark and the snap make of the group, and how an operation leaves for its server. Settles O43. -/

namespace Sys2Proof.Machine

/-! ### Consecutive scalar registers -/

theorem sclWrites_cons (i : Nat) (w : Word) (ws : List Word) : sclWrites i (w :: ws) = .sca i w :: sclWrites (i + 1) ws := by
  simp only [sclWrites, List.zipIdx_cons', List.map_cons, List.map_map, Nat.add_zero]
  exact congrArg _ (List.map_congr_left fun p _ => congrArg (RegWrite.sca · p.1) (by simp only [Prod.map]; omega))

/-- The registers after the words written from register i on. -/
theorem Group.sreg_writes_sclWrites (g : Group) (i k : Nat) (ws : List Word) :
    (g.writes (sclWrites i ws)).sreg k = if i ≤ k ∧ k < i + ws.length then ws.getD (k - i) 0 else g.sreg k := by
  induction ws generalizing g i with
  | nil => exact (if_neg (by simp only [List.length_nil]; omega)).symm
  | cons w ws ih =>
    have hfirst : (g.writes (sclWrites i (w :: ws))).sreg k = ((g.write (.sca i w)).writes (sclWrites (i + 1) ws)).sreg k := by
      rw [sclWrites_cons]
      rfl
    rw [hfirst, ih, Group.sreg_write_sca, List.length_cons]
    by_cases hk : k = i
    · rw [if_neg (by omega), if_pos hk, if_pos (by omega), hk, Nat.sub_self, List.getD_cons_zero]
    · rw [if_neg hk]
      by_cases hin : i + 1 ≤ k ∧ k < i + 1 + ws.length
      · rw [if_pos hin, if_pos (by omega), show k - i = k - (i + 1) + 1 by omega, List.getD_cons_succ]
      · rw [if_neg hin, if_neg (by omega)]

/-- Scalar writes leave the vector and the mask registers. -/
theorem Group.writes_sclWrites_apart (g : Group) (i : Nat) (ws : List Word) :
    (g.writes (sclWrites i ws)).vregs = g.vregs ∧ (g.writes (sclWrites i ws)).masks = g.masks := by
  induction ws generalizing g i with
  | nil => exact ⟨rfl, rfl⟩
  | cons w ws ih =>
    rw [sclWrites_cons]
    exact ih (g.write (.sca i w)) (i + 1)

/-! ### The result of an operation (14 R319, R323, R331) -/

/-- The group that has taken the outcome `d` of a gate operation: the result block in its registers, and after an import the mark and the snapshot number risen. -/
def Group.tookGate (g : Group) (x nx : Nat) (d : List Nat) : Group :=
  let h := g.writes (sclWrites x ((d.take nx).map toWord))
  if d.getD 20 0 = 1 then { h with mark := max h.mark (d.getD 21 0), snap := max h.snap (d.getD 22 0) } else h

section
variable (g : Group) (x nx : Nat) (d : List Nat)

theorem Group.tookGate_frags : (g.tookGate x nx d).frags = g.frags := by
  unfold Group.tookGate
  split <;> exact Group.writes_frags _ _

theorem Group.tookGate_log : (g.tookGate x nx d).log = g.log := by
  have hw : (g.writes (sclWrites x ((d.take nx).map toWord))).log = g.log := (congrArg Group.log (Group.writes_frame _ _) :)
  unfold Group.tookGate
  split <;> exact hw

theorem Group.tookGate_apart : (g.tookGate x nx d).vregs = g.vregs ∧ (g.tookGate x nx d).masks = g.masks := by
  unfold Group.tookGate
  split <;> exact Group.writes_sclWrites_apart _ _ _

theorem Group.tookGate_sreg (k : Nat) : (g.tookGate x nx d).sreg k = (g.writes (sclWrites x ((d.take nx).map toWord))).sreg k := by
  unfold Group.tookGate
  split <;> rfl

theorem Group.tookGate_sreg_block {r : Nat} (hr : r < nx) (hd : r < d.length) : (g.tookGate x nx d).sreg (x + r) = toWord (d.getD r 0) := by
  have hlen : ((d.take nx).map toWord).length = min nx d.length := by rw [List.length_map, List.length_take]
  have hget : ((d.take nx).map toWord).getD r 0 = toWord (d.getD r 0) := by
    simp only [List.getD_eq_getElem?_getD, List.getElem?_map, List.getElem?_take_of_lt hr, List.getElem?_eq_getElem hd, Option.map_some, Option.getD_some]
  rw [Group.tookGate_sreg, Group.sreg_writes_sclWrites, if_pos (by omega), Nat.add_sub_cancel_left, hget]

theorem Group.tookGate_sreg_out {k : Nat} (hk : k < x ∨ x + nx ≤ k) : (g.tookGate x nx d).sreg k = g.sreg k := by
  have hlen : ((d.take nx).map toWord).length ≤ nx := by rw [List.length_map, List.length_take]; exact Nat.min_le_left _ _
  rw [Group.tookGate_sreg, Group.sreg_writes_sclWrites, if_neg (by omega)]

/-- A success of gwait or gtry raises the import mark and snaps; any other result does neither. -/
theorem Group.tookGate_import :
    if d.getD 20 0 = 1 then (g.tookGate x nx d).mark = max g.mark (d.getD 21 0) ∧ (g.tookGate x nx d).snap = max g.snap (d.getD 22 0)
    else (g.tookGate x nx d).mark = g.mark ∧ (g.tookGate x nx d).snap = g.snap := by
  have hframe := Group.writes_frame g (sclWrites x ((d.take nx).map toWord))
  have hmark : (g.writes (sclWrites x ((d.take nx).map toWord))).mark = g.mark := (congrArg Group.mark hframe :)
  have hsnap : (g.writes (sclWrites x ((d.take nx).map toWord))).snap = g.snap := (congrArg Group.snap hframe :)
  unfold Group.tookGate
  split
  · exact ⟨congrArg (max · _) hmark, congrArg (max · _) hsnap⟩
  · exact ⟨hmark, hsnap⟩

end

theorem IssuerIs.gateWrites {s t : State} {c : Ctx} {h : Group} (hi : IssuerIs s t c h) (x nx : Nat) (d : List Nat) :
    IssuerIs s (c.gateWrites t x nx d) c (h.tookGate x nx d) := by
  have hw : IssuerIs s (t.writeRegs c.uid (sclWrites x ((d.take nx).map toWord))) c (h.writes (sclWrites x ((d.take nx).map toWord))) :=
    hi.updGroup _
  unfold Ctx.gateWrites Group.tookGate
  dsimp only
  split
  · exact (hw.updGroup _).snapTo _
  · exact hw

/-- Taking an outcome changes the group and what is kept of published writes alone. -/
theorem Ctx.gateWrites_frame (c : Ctx) (s t : State) (x nx : Nat) (d : List Nat) :
    ({ c.gateWrites t x nx d with groups := s.groups, ownPuts := s.ownPuts } : State) = { t with groups := s.groups, ownPuts := s.ownPuts } := by
  unfold Ctx.gateWrites
  dsimp only
  split <;> simp only [State.snapTo, State.updGroup, State.writeRegs]

/-- The entry of an outcome agrees with what its server answered, and holds the round as the snapshot number. -/
theorem State.gateEntry_data {d : List Nat} (hd : d.length = 23) (s : State) (part op : Nat) :
    (∀ r, r < 22 → (s.gateEntry part op d).data.getD r 0 = d.getD r 0) ∧ (s.gateEntry part op d).data.getD 22 0 = (s.part part).round
      ∧ (s.gateEntry part op d).data.length = 23 := by
  have hlen : (d.take 22).length = 22 := by rw [List.length_take, hd]; rfl
  refine ⟨fun r hr => ?_, ?_, ?_⟩
  · have hin : r < (d.take 22).length := Nat.lt_of_lt_of_eq hr hlen.symm
    simp only [State.gateEntry, List.getD_eq_getElem?_getD, List.getElem?_append_left hin, List.getElem?_take_of_lt hr]
  · have hlast : (d.take 22 ++ [(s.part part).round])[22]? = some (s.part part).round := by
      rw [List.getElem?_append_right (Nat.le_of_eq hlen), hlen]
      rfl
    simp only [State.gateEntry, List.getD_eq_getElem?_getD, hlast, Option.getD_some]
  · simp only [State.gateEntry, List.length_append, hlen, List.length_singleton]

/-! ### The shape of gate instructions past their checks -/

section
variable {s : State} {c : Ctx} {f : FormG} {op nx ny : Nat} {pair payload pubs : Bool}
  (hc : Clear s c f.g [(nx, f.x), (ny, f.y)] (gateReads (opndIdx f.y) pair payload) false)
include hc

theorem gateInstr_waiting {g : Nat} (hp : c.f.pend = .gate g) : gateInstr s f op nx ny pair payload pubs = c.finish s (.wait 11 s) := by
  rw [gateInstr, sysFull_clear hc rfl rfl]
  simp only [hp]

theorem gateInstr_denied {g : Nat} (hp : c.f.pend = .denied g) :
    gateInstr s f op nx ny pair payload pubs = .next (s.takeTrap c (faultAt .gateDenied c.f.pc g)) := by
  rw [gateInstr, sysFull_clear hc rfl rfl]
  simp only [hp]
  rfl

theorem gateInstr_done {p : Nat} {d : List Nat} (hp : c.f.pend = .done p d) :
    gateInstr s f op nx ny pair payload pubs = c.finish s (.done (c.gateWrites (s.updGroup c.uid fun g => g.logs (s.gateEntry c.l.part op d))
      (opndIdx f.x) nx (s.gateEntry c.l.part op d).data)) := by
  rw [gateInstr, sysFull_clear hc rfl rfl]
  simp only [hp]

/-- An instruction that waits on nothing yet, its gate in range. -/
theorem gateInstr_starts (hp : c.f.pend = .none) (hg : (c.g.sreg (opndIdx f.y)).toNat < 4096) :
    gateInstr s f op nx ny pair payload pubs = c.finish s
      (if pubs then c.gateSignal s (c.gateOp f op (c.g.sreg (opndIdx f.y)).toNat (c.g.pair (opndIdx f.y + 2))) (opndIdx f.x) nx
       else c.gateSend s (c.gateOp f op (c.g.sreg (opndIdx f.y)).toNat (c.g.pair (opndIdx f.y + 2))) (opndIdx f.x) nx) := by
  rw [gateInstr, sysFull_clear hc rfl rfl]
  simp only [hp]
  exact congrArg (c.finish s) (if_neg (Nat.not_le.mpr hg))

/-- Once its outcome is there, the instruction takes it and its entry enters the log. -/
theorem gateInstr_takes {p : Nat} {d : List Nat} (hh : c.holdsUp s = false) (hp : c.f.pend = .done p d) :
    ∃ t, gateInstr s f op nx ny pair payload pubs = .next t ∧ ({ t with groups := s.groups, ownPuts := s.ownPuts } : State) = s
      ∧ GroupNow s t c ((c.g.logs (s.gateEntry c.l.part op d)).tookGate (opndIdx f.x) nx (s.gateEntry c.l.part op d).data) c.f.next := by
  have hi := ((issuerIs_refl hc.1).updGroup fun g => g.logs (s.gateEntry c.l.part op d)).gateWrites (opndIdx f.x) nx (s.gateEntry c.l.part op d).data
  obtain ⟨hn, hg⟩ := hi.completes hc.1 (Group.tookGate_frags _ _ _ _) (.inr hh)
  exact ⟨_, (gateInstr_done hc hp).trans hn, Ctx.gateWrites_frame c s _ _ _ _, hg⟩

end

/-! ### An operation that leaves for its server -/

theorem Ctx.loggedTrap_of_no_replay {c : Ctx} (h : c.g.replay = []) : c.loggedTrap = none := by simp only [Ctx.loggedTrap, h]

/-- The state with an operation on its way to its server under the next number, its fragment waiting on it. -/
def State.gateSent (s : State) (c : Ctx) (o : GateOp) : State :=
  { s.updFrag c.uid c.fid (fun z => { z with pend := .gate s.uid }) with gateOps := s.gateOps.put s.uid o, uid := s.uid + 1 }

section
variable {s : State} {c : Ctx} {o : GateOp} (x nx : Nat) (hr : c.repeats = false) (hlog : c.g.replay = []) (hn : s.pendingGate c o = none)
include hr hlog hn

/-- A run with no log to follow and no operation left from before an abort sends its own. -/
theorem Ctx.gateSend_sends : c.gateSend s o x nx = .wait 11 (s.gateSent c o) := by
  simp only [Ctx.gateSend, Ctx.loggedTrap_of_no_replay hlog, State.consult_of_no_replay _ _ _ hr hlog, hn]
  rfl

/-- A gsig with nothing to publish, or whose publish is through, sends its signal. -/
theorem Ctx.gateSignal_sends (hc : s.ctx = some c) (hp : c.f.pend = .none) (hh : c.holds = false)
    (hpub : s.publish c.openly (fun n => .handed n [o.gate, o.operand]) (s.firing c) = .done s) :
    c.gateSignal s o x nx = .wait 11 (s.gateSent c o) := by
  have hnolog : c.gateLogged o.op = false := by
    simp only [Ctx.gateLogged, Ctx.loggedTrap_of_no_replay hlog, hlog, Option.isSome_none, List.head?_nil, Option.any_none, Bool.or_false, Bool.and_false]
  have hg : s.groups.getD c.uid c.g = c.g := by rw [Table.getD_eq, (State.ctx_some hc).1, Option.getD_some]
  have hsend := Ctx.gateSend_sends x nx hr hlog hn
  simp only [Ctx.gateSignal, hp, hh, hnolog, Ctx.afterPublish, hpub, hg, Bool.false_and, Bool.false_eq_true, if_false]
  exact hsend

end

/-- The wait for the server: only the issuing fragment differs, and the operation stands under its number. -/
theorem finish_gateSent {s : State} {c : Ctx} (hc : s.ctx = some c) (o : GateOp) :
    ∃ t, c.finish s (.wait 11 (s.gateSent c o)) = .next t ∧ ({ t with groups := s.groups, gateOps := s.gateOps, uid := s.uid } : State) = s
      ∧ GroupNow s t c c.g { c.f with pend := .gate s.uid, stall := 11 } ∧ t.gateOps.get s.uid = some o
      ∧ ∀ k, k ≠ s.uid → t.gateOps.get k = s.gateOps.get k := by
  obtain ⟨hg, hf, -, -⟩ := State.ctx_some hc
  refine ⟨_, rfl, by simp only [State.gateSent, State.updFrag], ⟨fun u hu => ?_,
    { c.g with frags := (c.g.frags.upd c.fid fun z => { z with pend := .gate s.uid }).upd c.fid fun z => { z with stall := 11 } },
    ?_, rfl, fun k => ?_⟩, Table.get_put_same _ _ _, fun k hk => Table.get_put_ne _ _ hk⟩
  · rw [State.updFrag_get, if_neg hu]
    exact (State.updFrag_get _ _ _ _ _).trans (if_neg hu)
  · have hs : (s.gateSent c o).groups.get c.uid = some { c.g with frags := c.g.frags.upd c.fid fun z => { z with pend := .gate s.uid } } := by
      refine (State.updFrag_get _ _ _ _ _).trans ?_
      rw [if_pos rfl, hg, Option.map_some]
    rw [State.updFrag_get, if_pos rfl, hs, Option.map_some]
  · simp only [Table.get_upd, hf]
    split <;> rfl

/-- A fragment that goes on waiting only notes why. -/
theorem finish_wait_moved {s : State} {c : Ctx} (hc : s.ctx = some c) (r : Nat) :
    ∃ t, c.finish s (.wait r s) = .next t ∧ Moved s t c { c.f with stall := r } := by
  obtain ⟨hg, hf, -, -⟩ := State.ctx_some hc
  refine ⟨_, rfl, ⟨rfl, fun u hu => ?_⟩, { c.g with frags := c.g.frags.upd c.fid fun z => { z with stall := r } }, ?_, rfl,
    ⟨rfl, rfl, rfl, rfl, rfl⟩, fun k => ?_⟩
  · rw [State.updFrag_get, if_neg hu]
  · rw [State.updFrag_get, if_pos rfl, hg, Option.map_some]
  · rw [Table.get_upd, hf, Option.map_some]

end Sys2Proof.Machine

open Sys2Proof Sys2Proof.Machine

/-- Settles O43: all five are the shape of gate instructions, whose next step the issuing fragment's pending state decides; gsig alone sends through its publish. -/
theorem gateOperationsComplete : Obligations.GateOperationsComplete := by
  intro i op nx ny pair payload f s c hi hc hr hlog
  have hexec : exec i s = gateInstr s f op nx ny pair payload (decide (op = 0xE8)) := by
    obtain ⟨rfl, rfl, rfl, rfl, rfl, rfl⟩ | ⟨rfl, rfl, rfl, rfl, rfl, rfl⟩ | ⟨rfl, rfl, rfl, rfl, rfl, rfl⟩ | ⟨rfl, rfl, rfl, rfl, rfl, rfl⟩
      | ⟨rfl, rfl, rfl, rfl, rfl, rfl⟩ := hi
    all_goals rfl
  have hnx : nx ≤ 20 := by
    obtain ⟨-, -, rfl, -⟩ | ⟨-, -, rfl, -⟩ | ⟨-, -, rfl, -⟩ | ⟨-, -, rfl, -⟩ | ⟨-, -, rfl, -⟩ := hi
    case inr.inr.inr.inl => split <;> omega
    all_goals omega
  refine ⟨fun p d hp hd hroom => ?_, fun g hp => ?_, fun g hp => ?_, fun hp => ?_⟩
  · obtain ⟨t, ht, hframe, hother, h, hget, hh, hone⟩ := gateInstr_takes (op := op) (pubs := decide (op = 0xE8)) hc (Ctx.holdsUp_eq_false hroom) hp
    obtain ⟨hsame, hround, hlen⟩ := State.gateEntry_data hd s c.l.part op
    have himport := Group.tookGate_import (c.g.logs (s.gateEntry c.l.part op d)) (opndIdx f.x) nx (s.gateEntry c.l.part op d).data
    rw [hsame 20 (by omega), hsame 21 (by omega), hround] at himport
    obtain ⟨hvregs, hmasks⟩ := Group.tookGate_apart (c.g.logs (s.gateEntry c.l.part op d)) (opndIdx f.x) nx (s.gateEntry c.l.part op d).data
    rw [← hh] at himport hvregs hmasks
    refine ⟨t, h, hexec.trans ht, hframe, hother, hget, fun r hrx _ => ?_, fun k hk => ?_, hvregs, hmasks, hone, ?_, himport⟩
    · rw [← hsame r (by omega)]
      exact (congrArg (·.sreg (opndIdx f.x + r)) hh).trans (Group.tookGate_sreg_block _ _ _ _ hrx (by omega))
    · exact (congrArg (·.sreg k) hh).trans (Group.tookGate_sreg_out _ _ _ _ hk)
    · exact (congrArg Group.log hh).trans (Group.tookGate_log _ _ _ _)
  · exact hexec.trans (gateInstr_denied hc hp)
  · exact next_of_arm _ (hexec.trans (gateInstr_waiting hc hp)) (finish_wait_moved hc.1 11)
  · intro gate operand o hgate hpend hsig
    have hsends : (if decide (op = 0xE8) = true then c.gateSignal s o (opndIdx f.x) nx else c.gateSend s o (opndIdx f.x) nx) = .wait 11 (s.gateSent c o) := by
      split
      next h =>
        obtain ⟨hheld, hpub⟩ := hsig (of_decide_eq_true h)
        exact Ctx.gateSignal_sends _ nx hr hlog hpend hc.1 hp hheld hpub
      next => exact Ctx.gateSend_sends _ nx hr hlog hpend
    refine next_of_arm _ (hexec.trans ((gateInstr_starts hc hp hgate).trans ?_)) (finish_gateSent hc.1 o)
    exact congrArg (c.finish s) hsends
end

section
/-! PROOFS. What a gate server may touch (14 R326): on a canonical table of operations under way, an operation, a retry and a thaw change no gate but their own, so a bucket tick refills every gate without queued signals (14 R317), which is what O55 says of it but for that hypothesis. -/

namespace Sys2Proof.Machine

/-! ### Canonical tables -/

theorem assocFrom_filter {α : Type} {l : List (Nat × α)} {n : Nat} (p : Nat × α → Bool) (hl : assocFrom n l = true) : assocFrom n (l.filter p) = true := by
  induction l generalizing n with
  | nil => rfl
  | cons r l ih =>
    simp only [assocFrom, Bool.and_eq_true, decide_eq_true_eq] at hl
    rw [List.filter_cons]
    split
    · simp only [assocFrom, Bool.and_eq_true, decide_eq_true_eq]
      exact ⟨hl.1, ih hl.2⟩
    · exact assocFrom_mono (by omega) (ih hl.2)

/-- What stands in a canonical list is what a read of its key finds. -/
theorem assocGet_of_mem {α : Type} {l : List (Nat × α)} {n : Nat} (hl : assocFrom n l = true) {r : Nat × α} (hr : r ∈ l) : assocGet l r.1 = some r.2 := by
  induction l generalizing n with
  | nil => cases hr
  | cons x l ih =>
    simp only [assocFrom, Bool.and_eq_true] at hl
    obtain rfl | hr := List.mem_cons.mp hr
    · exact if_pos rfl
    · have hget := ih hl.2 hr
      rw [assocGet, if_neg fun h => ?_, hget]
      rw [h, assocGet_eq_none_of_lt hl.2 (Nat.lt_succ_self _)] at hget
      cases hget

theorem mem_of_assocGet {α : Type} {l : List (Nat × α)} {k : Nat} {v : α} (h : assocGet l k = some v) : (k, v) ∈ l := by
  induction l with
  | nil => cases h
  | cons x l ih =>
    rw [assocGet] at h
    split at h
    next hk => cases h; exact hk ▸ List.mem_cons_self
    next => exact List.mem_cons_of_mem _ (ih h)

/-- A row that a filter of a canonical table keeps was there before. -/
theorem Table.get_of_get_filter {α : Type} {t : Table α} {p : Nat → α → Bool} {k : Nat} {v : α} (hwf : t.wf = true) (h : (t.filter p).get k = some v) :
    t.get k = some v :=
  assocGet_of_mem hwf (r := (k, v)) (List.mem_filter.mp (mem_of_assocGet h)).1

/-! ### Operations that leave -/

/-- No operation is new, and none has moved to another gate: of canonical tables. -/
def OpsWithin (a b : Table GateOp) : Prop :=
  a.wf = true → b.wf = true ∧ ∀ k o, b.get k = some o → ∃ p, a.get k = some p ∧ p.gate = o.gate

theorem OpsWithin.refl (a : Table GateOp) : OpsWithin a a := fun h => ⟨h, fun _ o ho => ⟨o, ho, rfl⟩⟩

theorem OpsWithin.trans {a b c : Table GateOp} (hab : OpsWithin a b) (hbc : OpsWithin b c) : OpsWithin a c := fun h => by
  obtain ⟨hb, hfrom⟩ := hab h
  obtain ⟨hc, hfrom'⟩ := hbc hb
  refine ⟨hc, fun k o ho => ?_⟩
  obtain ⟨p, hp, hpo⟩ := hfrom' k o ho
  obtain ⟨q, hq, hqp⟩ := hfrom k p hp
  exact ⟨q, hq, hqp.trans hpo⟩

theorem OpsWithin.del (a : Table GateOp) (k : Nat) : OpsWithin a (a.del k) := fun h => by
  refine ⟨Table.wf_del k h, fun j o ho => ?_⟩
  rw [Table.get_del h] at ho
  split at ho
  · cases ho
  · exact ⟨o, ho, rfl⟩

theorem OpsWithin.filter (a : Table GateOp) (p : Nat → GateOp → Bool) : OpsWithin a (a.filter p) :=
  fun h => ⟨assocFrom_filter _ h, fun _ o ho => ⟨o, Table.get_of_get_filter h ho, rfl⟩⟩

/-- An operation is kept as one that its server has seen. -/
theorem OpsWithin.put_seen {a : Table GateOp} {k : Nat} {o : GateOp} (hk : a.get k = some o) : OpsWithin a (a.put k { o with seen := true }) := fun h => by
  refine ⟨Table.wf_put k _ h, fun j p hp => ?_⟩
  rw [Table.get_put] at hp
  split at hp
  next hj => cases hp; exact ⟨o, hj ▸ hk, rfl⟩
  next => exact ⟨p, hp, rfl⟩

/-! ### One gate's entry changed -/

/-- Of the gates only one has changed, and operations under way have only left. -/
def AtGate (gate : Nat) (s t : State) : Prop := (∀ k, k ≠ gate → t.gates.get k = s.gates.get k) ∧ OpsWithin s.gateOps t.gateOps

theorem AtGate.refl (gate : Nat) (s : State) : AtGate gate s s := ⟨fun _ _ => rfl, .refl _⟩

theorem AtGate.trans {gate : Nat} {s t u : State} (hst : AtGate gate s t) (htu : AtGate gate t u) : AtGate gate s u :=
  ⟨fun k hk => (htu.1 k hk).trans (hst.1 k hk), hst.2.trans htu.2⟩

theorem AtGate.of_gates_eq {s t : State} (gate : Nat) (hg : t.gates = s.gates) (ho : OpsWithin s.gateOps t.gateOps) : AtGate gate s t :=
  ⟨fun _ _ => hg ▸ rfl, ho⟩

theorem AtGate.putGate (s : State) (gate : Nat) (g : Gate) : AtGate gate s (s.putGate gate g) := ⟨fun _ hk => Table.get_put_ne _ _ hk, .refl _⟩

theorem AtGate.foldl {α : Type} {gate : Nat} {s : State} (l : List α) {f : State → α → State} (hf : ∀ u, ∀ x ∈ l, AtGate gate s u → AtGate gate s (f u x)) :
    AtGate gate s (l.foldl f s) :=
  List.foldlRecOn _ _ (.refl gate s) fun u hu x hx => hf u x hx hu

/-! ### The server -/

theorem State.answerGate_apart (s : State) (id : Nat) (o : GateOp) (p : Pend) :
    (s.answerGate id o p).gates = s.gates ∧ (s.answerGate id o p).gateOps = s.gateOps.del id := by
  unfold State.answerGate
  dsimp only
  split
  · exact ⟨rfl, rfl⟩
  · split
    · exact ⟨rfl, rfl⟩
    · split <;> exact ⟨rfl, rfl⟩

theorem AtGate.answerGate (gate : Nat) (s : State) (id : Nat) (o : GateOp) (p : Pend) : AtGate gate s (s.answerGate id o p) := by
  obtain ⟨hg, ho⟩ := s.answerGate_apart id o p
  exact .of_gates_eq gate hg (ho ▸ .del _ _)

theorem AtGate.finishGate (gate : Nat) (s : State) (id : Nat) (o : GateOp) (status : Nat) (before : BitVec 384) (imports : Bool) :
    AtGate gate s (s.finishGate id o status before imports) := by
  unfold State.finishGate
  split
  · exact .refl _ _
  · exact .answerGate _ _ _ _ _

theorem AtGate.holdGate {s : State} {id : Nat} {o : GateOp} (gate : Nat) (h : s.gateOps.get id = some o) : AtGate gate s (s.holdGate id o) := by
  unfold State.holdGate
  split
  · exact .of_gates_eq gate rfl (.put_seen h)
  · exact .of_gates_eq gate rfl (.del _ _)

theorem AtGate.serveWaiters (gate : Nat) (s : State) (g : Nat) : AtGate gate s (s.serveWaiters g) := by
  unfold State.serveWaiters
  split
  · exact .refl _ _
  · exact .foldl _ fun u r _ hu => hu.trans (.finishGate _ _ _ _ _ _ _)

theorem AtGate.signal (s : State) (gate part addend : Nat) : AtGate gate s (s.signal gate part addend) := by
  unfold State.signal
  split
  · exact .refl _ _
  · exact ⟨fun _ hk => Table.get_put_ne _ _ hk, .refl _⟩

/-! ### Launches that wait on a gate -/

theorem State.pokes_gates (ws : List (Nat × List Byte)) (s : State) : (s.pokes ws).gates = s.gates ∧ (s.pokes ws).gateOps = s.gateOps :=
  List.foldlRecOn (motive := fun u : State => u.gates = s.gates ∧ u.gateOps = s.gateOps) _ _ ⟨rfl, rfl⟩ fun _ hu _ _ => hu

theorem State.logError_gates (s : State) (e : ErrEntry) : (s.logError e).gates = s.gates ∧ (s.logError e).gateOps = s.gateOps := by
  unfold State.logError
  extract_lets die es s1
  have h1 : s1.gates = s.gates ∧ s1.gateOps = s.gateOps :=
    ⟨(apply_ite State.gates _ _ _).trans (ite_self _), (apply_ite State.gateOps _ _ _).trans (ite_self _)⟩
  split
  · exact h1
  · obtain ⟨hg, ho⟩ := State.pokes_gates (ringPut s1.mem _ 32 (e.bytes s.now)).1 { s1 with adminRing := some (ringPut s1.mem _ 32 (e.bytes s.now)).2 }
    exact ⟨hg.trans h1.1, ho.trans h1.2⟩

theorem AtGate.endLaunch (gate : Nat) (s : State) (launch status code : Nat) : AtGate gate s (s.endLaunch launch status code) := by
  unfold State.endLaunch
  split
  · exact .refl _ _
  · split
    · exact .refl _ _
    · extract_lets mine grps chks kilns cancelled s0 s1
      have hops : OpsWithin s.gateOps s1.gateOps := (OpsWithin.filter s.gateOps _).trans (.filter s0.gateOps _)
      have h1 : AtGate gate s s1 := .of_gates_eq gate rfl hops
      obtain ⟨hg, ho⟩ := s1.logError_gates _
      exact h1.trans (.of_gates_eq gate hg (ho ▸ .refl _))

theorem AtGate.testLaunch (gate : Nat) (s : State) (id : Nat) : AtGate gate s (s.testLaunch id) := by
  unfold State.testLaunch
  split
  · exact .refl _ _
  · dsimp only
    split
    · exact .refl _ _
    · split
      · exact .endLaunch _ _ _ _ _
      · exact .of_gates_eq gate rfl (.refl _)

theorem AtGate.testGates (gate : Nat) (s : State) : AtGate gate s s.testGates := .foldl _ fun _ _ _ hu => hu.trans (.testLaunch _ _ _)

/-! ### Operations performed, retried and thawed -/

/-- An operation that a server performs changes the entry of its own gate alone. -/
theorem AtGate.performGate {s : State} {id : Nat} {o : GateOp} (h : s.gateOps.get id = some o) : AtGate o.gate s (s.performGate id) := by
  unfold State.performGate
  simp only [h]
  split
  · split
    · exact .refl _ _
    · exact .answerGate _ _ _ _ _
  next g hg =>
    split
    · exact .answerGate _ _ _ _ _
    · split
      · exact .refl _ _
      · split
        · -- gsig: queued or held at a frozen gate, deferred, or performed
          split
          · split
            · exact .holdGate _ h
            · exact (AtGate.putGate _ _ _).trans (.finishGate _ _ _ _ _ _ _)
          · split
            · exact (AtGate.putGate _ _ _).trans (.finishGate _ _ _ _ _ _ _)
            · exact (((AtGate.signal _ _ _ _).trans (.finishGate _ _ _ _ _ _ _)).trans (.serveWaiters _ _ _)).trans (.testGates _ _)
        · -- gwait
          split
          · exact .holdGate _ h
          · exact .finishGate _ _ _ _ _ _ _
        · -- gtry
          split
          · exact .finishGate _ _ _ _ _ _ _
          · split <;> exact .finishGate _ _ _ _ _ _ _
        · -- gxch
          split
          · exact .holdGate _ h
          · refine AtGate.trans ?_ (.finishGate _ _ _ _ _ _ _)
            split
            · exact .putGate _ _ _
            · exact .refl _ _
        · -- gstat
          exact .finishGate _ _ _ _ _ _ _

/-- The operations that wait at a gate still stand at it, if at all, when their turn comes. -/
theorem AtGate.retryGate {s : State} (hwf : s.gateOps.wf = true) (gate : Nat) : AtGate gate s (s.retryGate gate) := by
  refine .foldl _ fun u id hid hu => hu.trans ?_
  obtain ⟨⟨k, o⟩, hr, rfl⟩ := List.mem_map.mp hid
  obtain ⟨hmem, hgate⟩ := List.mem_filter.mp hr
  have hgate : o.gate = gate := of_decide_eq_true (Bool.and_eq_true_iff.mp hgate).1
  have ho : s.gateOps.get k = some o := assocGet_of_mem hwf hmem
  cases hk : u.gateOps.get k with
  | none => simp only [State.performGate, hk, AtGate.refl]
  | some p =>
    obtain ⟨q, hq, hqp⟩ := (hu.2 hwf).2 k p hk
    obtain rfl : o = q := Option.some.inj (ho.symm.trans hq)
    rw [← hgate, hqp]
    exact .performGate hk

theorem AtGate.drainGate (gate fuel : Nat) (s : State) : AtGate gate s (s.drainGate gate fuel) := by
  induction fuel generalizing s with
  | zero => exact .refl _ _
  | succ fuel ih =>
    unfold State.drainGate
    split
    · exact .refl _ _
    · split
      · exact .refl _ _
      · split
        · exact .refl _ _
        · exact ((((AtGate.putGate _ _ _).trans (.signal _ _ _ _)).trans (.serveWaiters _ _ _)).trans (.testGates _ _)).trans (ih _)

theorem AtGate.thawGate {s : State} (hwf : s.gateOps.wf = true) (gate : Nat) : AtGate gate s (s.thawGate gate) := by
  unfold State.thawGate
  split
  · exact .refl _ _
  · have hdrain := AtGate.drainGate gate
    dsimp only
    split
    · split
      · exact (hdrain _ s).trans (.retryGate ((hdrain _ s).2 hwf).1 gate)
      · exact hdrain _ s
    · exact hdrain _ s

/-! ### The tick (14 R317) -/

/-- The gate with a microsecond's tokens. -/
def Gate.refilled (g : Gate) : Gate := if g.rate = 0 then g else { g with level := min (g.level + g.rate) g.depth }

theorem Gate.refilled_queue (g : Gate) : g.refilled.queue = g.queue := by
  unfold Gate.refilled
  split <;> rfl

/-- One gate of a tick: its queued signals are performed while the bucket has tokens. -/
def State.thawQueued (s : State) (gate : Nat) : State :=
  match s.gates.get gate with
  | some g => if !g.frozen && !g.queue.isEmpty then s.thawGate gate else s
  | none => s

theorem State.chargeCores_gates (s : State) : s.chargeCores.gates = s.gates :=
  List.foldlRecOn (motive := fun u : State => u.gates = s.gates) _ _ rfl fun _ hu _ _ => hu

/-- A gate without queued signals keeps its entry while others' signals are performed. -/
theorem State.thawQueued_keeps {s : State} {id : Nat} {g : Gate} (hwf : s.gateOps.wf = true) (hg : s.gates.get id = some g) (hq : g.queue = []) (gate : Nat) :
    (s.thawQueued gate).gateOps.wf = true ∧ (s.thawQueued gate).gates.get id = some g := by
  by_cases hid : id = gate
  · subst hid
    simp only [State.thawQueued, hg, hq, List.isEmpty_nil, Bool.not_true, Bool.and_false, Bool.false_eq_true, if_false]
    exact ⟨hwf, trivial⟩
  · have hat : AtGate gate s (s.thawQueued gate) := by
      unfold State.thawQueued
      split
      · split
        · exact .thawGate hwf gate
        · exact .refl _ _
      · exact .refl _ _
    exact ⟨(hat.2 hwf).1, (hat.1 id hid).trans hg⟩

/-- On a canonical table of operations, a tick refills every gate without queued signals and leaves it otherwise as it was. -/
theorem bucketTick_refills {s : State} {id : Nat} {g : Gate} (hwf : s.gateOps.wf = true) (hg : s.gates.get id = some g) (hq : g.queue = []) :
    ∃ t, exec .bucketTick s = .next t ∧ t.gates.get id = some g.refilled := by
  have hstart : (s.gates.map fun _ g => g.refilled).get id = some g.refilled := by rw [Table.get_map, hg, Option.map_some]
  have hfold := List.foldlRecOn (motive := fun u : State => u.gateOps.wf = true ∧ u.gates.get id = some g.refilled)
    (s.gates.map fun _ g => g.refilled).keys State.thawQueued
    (b := { s with timebase := s.timebase + 1000, gates := s.gates.map fun _ g => g.refilled }) ⟨hwf, hstart⟩
    fun u hu gate _ => State.thawQueued_keeps hu.1 hu.2 (g.refilled_queue.trans hq) gate
  refine ⟨_, rfl, ?_⟩
  refine (congrArg (·.get id) (State.chargeCores_gates _)).trans ?_
  exact ((AtGate.testGates (id + 1) _).1 id (Nat.ne_of_lt (Nat.lt_succ_self id))).trans hfold.2

end Sys2Proof.Machine
end

section
/-! PROOFS. The statement of gate events does not bind the table of operations under way to its canonical form, and on a table with one number twice a bucket tick reaches a gate without queued signals. Refutes O55. -/

namespace Sys2Proof.Machine

/-- A gate of owner 0 without a rate, with queued signals. -/
def unratedGate (queue : List QueuedSig) : Gate :=
  { payload := 0, deferred := 0, level := 0, stamp := 0, seq := 0, value := 0, acl := 0, rate := 0, depth := 0, frozen := false, owner := 0, queue := queue }

/-- An operation of partition 0 at a gate. -/
def operationAt (gate op : Nat) (seen : Bool) : GateOp :=
  { gate := gate, group := 0, frag := 0, part := 0, ident := 0, op := op, func := 0, operand := 1, payload := 0, seen := seen }

/-- Number 5 stands twice among the operations: as a gsig that has left for gate 2, and as a gstat that waits at gate 1 behind its queued signal. -/
def numberTwice : State :=
  { State.reset with
    gates := ⟨[(1, unratedGate [{ addend := 1, group := 0, part := 0 }]), (2, unratedGate [])]⟩,
    gateOps := ⟨[(5, operationAt 2 0xE8 false), (5, operationAt 1 0xEC true)]⟩ }

/-- The tick empties gate 1's queue and retries the waiter's number, under which the gsig at gate 2 is found and performed. -/
theorem numberTwice_bucketTick {t : State} (ht : exec .bucketTick numberTwice = .next t) : (t.gates.get 2).map (·.value) = some 1 := by
  cases ht
  decide +kernel

end Sys2Proof.Machine

open Sys2Proof Sys2Proof.Machine

/-- Refutes O55: a bucket tick may perform a signal on a gate whose queue is empty where one number stands for two operations, which the clause on the tick, that asks only for a canonical table of gates, does not exclude. On a canonical table of operations the tick does what the clause says (`bucketTick_refills`). -/
theorem not_gateEvents : ¬ Obligations.GateEvents := by
  rintro ⟨-, htick⟩
  obtain ⟨t, ht, -, hgates⟩ := htick numberTwice
  have hkept : t.gates.get 2 = some (unratedGate []) := hgates 2 (unratedGate []) (by decide) rfl rfl
  have hvalue := numberTwice_bucketTick ht
  rw [hkept] at hvalue
  exact absurd hvalue (by decide)
end

section
/-! PROOFS. Redundant execution (16 R339 to R356): the start of repeat runs, the kiln's decisions, and the cone tests. Settles O56. -/

namespace Sys2Proof.Machine

/-! ### What ends and discards of runs leave -/

/-- Two states with the same checks, the same counters and the same suspect intervals. -/
def SameRecords (s t : State) : Prop := t.checks = s.checks ∧ t.counters = s.counters ∧ t.suspects = s.suspects

theorem SameRecords.refl (s : State) : SameRecords s s := ⟨rfl, rfl, rfl⟩

theorem SameRecords.trans {s t u : State} (hst : SameRecords s t) (htu : SameRecords t u) : SameRecords s u := by
  obtain ⟨hchecks, hcounters, hsuspects⟩ := htu
  exact ⟨hchecks.trans hst.1, hcounters.trans hst.2.1, hsuspects.trans hst.2.2⟩

theorem SameRecords.foldl {α : Type} {s t : State} (h : SameRecords s t) (l : List α) {f : State → α → State}
    (hf : ∀ u x, SameRecords u (f u x)) : SameRecords s (l.foldl f t) :=
  List.foldlRecOn _ _ h fun u hu x _ => hu.trans (hf u x)

theorem SameRecords.endRun {s t : State} (h : SameRecords s t) (r : SegRun) : SameRecords s (t.endRun r) := by
  unfold State.endRun
  split
  · exact h
  · extract_lets us mine set blocks
    have hblocks : SameRecords t blocks := by
      refine SameRecords.foldl ?_ us fun u _ => ?_
      · exact .refl t
      · exact .refl u
    exact h.trans hblocks

theorem SameRecords.dropLayer {s t : State} (h : SameRecords s t) (k kind seg : Nat) (above : Bool) :
    SameRecords s (t.dropLayer k kind seg above) := h

theorem SameRecords.adopt {s t : State} (h : SameRecords s t) (k kind seg : Nat) : SameRecords s (t.adopt k kind seg) := h

theorem SameRecords.endWaits {s t : State} (h : SameRecords s t) (bid : Nat) : SameRecords s (t.endWaits bid) := h

theorem SameRecords.fireRun {s t : State} (h : SameRecords s t) (k kind seg : Nat) : SameRecords s (t.fireRun k kind seg) := by
  unfold State.fireRun State.fire
  refine SameRecords.foldl ?_ _ fun u _ => ?_
  · exact h
  · exact .refl u

theorem State.passChecks_sameRecords (s : State) (cores : List Nat) : SameRecords s (s.passChecks cores) := by
  refine (SameRecords.refl s).foldl _ fun u c => ?_
  dsimp only
  split
  · exact .refl u
  · split <;> exact .refl u

theorem State.pokes_eq (s : State) (ws : List (Nat × List Byte)) : ∃ m v, s.pokes ws = { s with mem := m, versions := v } := by
  refine List.foldlRecOn (motive := fun u : State => ∃ m v, u = { s with mem := m, versions := v }) _ _ ⟨_, _, rfl⟩ ?_
  rintro _ ⟨m, v, rfl⟩ w -
  exact ⟨_, _, rfl⟩

/-- An error event writes the die's error record, and the admin queue in memory. -/
theorem State.logError_eq (s : State) (e : ErrEntry) :
    ∃ es o r m v, s.logError e = { s with errors := es, overwritten := o, adminRing := r, mem := m, versions := v } := by
  unfold State.logError
  extract_lets die es s1
  have h1 : ∃ es o, s1 = { s with errors := es, overwritten := o } := by
    by_cases hroom : es.length ≤ 1024
    · exact ⟨_, _, if_pos hroom⟩
    · exact ⟨_, _, if_neg hroom⟩
  obtain ⟨es', o, h1⟩ := h1
  rw [h1]
  split
  · exact ⟨_, _, _, _, _, rfl⟩
  · obtain ⟨m, v, h2⟩ := State.pokes_eq { s with errors := es', overwritten := o, adminRing := some (ringPut s.mem _ 32 (e.bytes s.now)).2 } _
    exact ⟨_, _, _, _, _, h2⟩

theorem State.logError_sameRecords (s : State) (e : ErrEntry) : SameRecords s (s.logError e) := by
  obtain ⟨es, o, r, m, v, h⟩ := s.logError_eq e
  rw [h]
  exact .refl s

theorem State.count_checks (s : State) (i n : Nat) (owner : Option Nat) : (s.count i n owner).checks = s.checks := by
  cases owner <;> rfl

theorem State.count_uid (s : State) (i n : Nat) (owner : Option Nat) : (s.count i n owner).uid = s.uid := by
  cases owner <;> rfl

theorem State.count_counters (s : State) (i n : Nat) (owner : Option Nat) :
    (s.count i n owner).counters.getD i 0 = min (s.counters.getD i 0 + n) (2 ^ 64 - 1) := by
  have h : (s.count i n owner).counters = s.counters.put i (min (s.counters.getD i 0 + n) (2 ^ 64 - 1)) := by cases owner <;> rfl
  rw [h, Table.getD_eq, Table.get_put_same, Option.getD_some]

/-! ### The start of a repeat run (R339 to R341) -/

/-- The block of a run stands under a number, and the checks are those of before. -/
def RunBlockAt (s t : State) (bid : Nat) (ch : Check) (kind : Nat) : Prop :=
  t.checks = s.checks ∧ ∃ b, t.blocks.get bid = some b ∧ b.run = kind ∧ b.seg = ch.seg ∧ b.launch = ch.launch

theorem RunBlockAt.addGroup {s t : State} {bid kind : Nat} {ch : Check} (h : RunBlockAt s t bid ch kind) (g : Group) :
    RunBlockAt s (t.addGroup bid g) bid ch kind := by
  obtain ⟨hchecks, b, hb, hrun, hseg, hlaunch⟩ := h
  refine ⟨hchecks, if g.seq then b else { b with groups := b.groups ++ [t.uid] }, ?_, ?_⟩
  · exact (Table.get_upd _ _ _ _).trans (by rw [if_pos rfl, hb, Option.map_some])
  · split <;> exact ⟨hrun, hseg, hlaunch⟩

theorem State.startRunBlock_block (s : State) (ch : Check) (k kind i : Nat) (l : Launch) (set : Option Nat) (p : Placed) :
    (s.startRunBlock ch k kind i l set p).2 = s.uid ∧ RunBlockAt s (s.startRunBlock ch k kind i l set p).1 s.uid ch kind := by
  refine ⟨rfl, ?_⟩
  unfold State.startRunBlock
  extract_lets bid index lo mine wins fresh b s1 s2
  have h1 : RunBlockAt s s1 s.uid ch kind := ⟨rfl, b, Table.get_put_same _ _ _, rfl, rfl, rfl⟩
  have h2 : RunBlockAt s s2 s.uid ch kind := by
    refine List.foldlRecOn (motive := fun u => RunBlockAt s u s.uid ch kind) mine _ h1 fun u hu x _ => ?_
    split
    · exact hu
    · exact hu.addGroup _
  exact h2

/-- A run of one block at its start, on the placement's cores that its groups take. -/
def SegRun.started (ch : Check) (l : Launch) (p : Placed) (bid : Nat) : SegRun :=
  { SegRun.idle with
    life := .running, block := bid, cores := (ch.present.map fun x => p.cores.getD (l.coreOf p.cores.length x) 0).eraseDups }

section
variable {s : State} {key kind cl : Nat} {ch : Check} {l : Launch} {p : Placed}

theorem State.startRun_unit (hch : s.checks.get key = some ch) (htile : l.hdr.tile = 0) :
    ∃ ch' b, (s.startRun key kind cl ch l p).checks.get key = some ch'
      ∧ ch'.runs.get kind = some (.started ch l p s.uid)
      ∧ (s.startRun key kind cl ch l p).blocks.get s.uid = some b ∧ b.run = kind ∧ b.seg = ch.seg ∧ b.launch = ch.launch := by
  unfold State.startRun
  extract_lets k n near s0 cores idle run r
  have hcores : cores = (ch.present.map fun x => p.cores.getD (l.coreOf p.cores.length x) 0).eraseDups := if_neg (not_not_intro htile)
  have h0 : s0.checks = s.checks ∧ s0.uid = s.uid := by
    by_cases hnear : near
    · rw [show s0 = s.count 12 1 (some l.part) from if_pos hnear]
      exact ⟨s.count_checks _ _ _, s.count_uid _ _ _⟩
    · rw [show s0 = s from if_neg hnear]
      exact ⟨rfl, rfl⟩
  obtain ⟨hchecks0, huid0⟩ := h0
  obtain ⟨hbid, hchecks, b, hb, hkind, hseg, hlaunch⟩ := s0.startRunBlock_block ch k kind 0 l none p
  rw [if_pos htile, SegRun.started, ← hcores, ← huid0]
  refine ⟨{ ch with runs := ch.runs.put kind (run r.2) }, b, ?_, ?_, hb, hkind, hseg, hlaunch⟩
  · refine (Table.get_upd _ _ _ _).trans ?_
    rw [if_pos rfl, hchecks, hchecks0, hch, Option.map_some]
  · exact (Table.get_put_same _ _ _).trans (by rw [hbid])

theorem State.tryRun_head {kinds : List Nat} (hch : s.checks.get key = some ch) (hl : s.launches.get ch.launch = some l)
    (hhead : s.admission l.part = some (.run key kind, cl, p)) (hkind : kinds.contains kind = true) :
    s.tryRun key kinds = s.startRun key kind cl ch l p := by
  simp only [State.tryRun, hch, hl, hhead, hkind, and_self, if_true]

/-- A run at the head of its partition's order starts, where the event is of its kind. -/
theorem State.tryRun_starts {kinds : List Nat} (hch : s.checks.get key = some ch) (hl : s.launches.get ch.launch = some l) (htile : l.hdr.tile = 0)
    (hhead : s.admission l.part = some (.run key kind, cl, p)) (hkind : kinds.contains kind = true) :
    ∃ t ch' b, Host.Outcome.next (s.tryRun key kinds) = (Host.Outcome.next t : Out) ∧ t.checks.get key = some ch'
      ∧ ch'.runs.get kind = some (.started ch l p s.uid)
      ∧ t.blocks.get s.uid = some b ∧ b.run = kind ∧ b.seg = ch.seg ∧ b.launch = ch.launch := by
  obtain ⟨ch', b, h⟩ := State.startRun_unit (kind := kind) (cl := cl) (p := p) hch htile
  exact ⟨_, ch', b, congrArg Host.Outcome.next (State.tryRun_head hch hl hhead hkind), h⟩

/-! ### The kiln's decision (R350, R351) -/

theorem State.firstWins_decided (hch : s.checks.get key = some ch) :
    (s.firstWins key ch l).checks.get key = some { ch with decided := true } ∧ (s.firstWins key ch l).counters = s.counters := by
  unfold State.firstWins
  extract_lets k win s1 s2 s3
  have h1 : SameRecords s s1 := (SameRecords.refl s).foldl _ fun u kind => (SameRecords.refl u).endRun _
  have h2 : SameRecords s s2 := (h1.dropLayer k 2 ch.seg false).dropLayer k 3 ch.seg false
  have h3 : SameRecords s s3 := by
    by_cases hearly : l.hdr.early
    · rw [show s3 = s2.dropLayer k 4 ch.seg false from if_pos hearly]
      exact h2.dropLayer k 4 ch.seg false
    · rw [show s3 = ((s2.dropLayer k (5 - win) ch.seg false).fireRun k win ch.seg).adopt k win ch.seg from if_neg hearly]
      exact ((h2.dropLayer k (5 - win) ch.seg false).fireRun k win ch.seg).adopt k win ch.seg
  obtain ⟨hchecks, hcounters, -⟩ := h3
  refine ⟨(Table.get_upd _ _ _ _).trans ?_, hcounters⟩
  rw [if_pos rfl, hchecks, hch, Option.map_some]

theorem Check.first_of_no_substitute (h : ch.runs.get 4 = none) : ch.first = 1 := by
  simp only [Check.first, h, Option.isSome_none, Bool.false_eq_true, if_false]

theorem exec_kilnDecision_undecided (hch : s.checks.get key = some ch) (hl : s.launches.get ch.launch = some l) (hdec : ch.decided = false)
    (hend : l.ended = none) : exec (.kilnDecision key) s = .next (s.kiln key ch l) := by
  show execKilnDecision key s = _
  simp only [execKilnDecision, hch, hl, hdec, hend, Option.isSome_none, Bool.or_self, Bool.false_eq_true, if_false]

theorem State.checkEntry_checks (s : State) (ty code : Nat) (ch : Check) (l : Launch) (op : Option (Nat × Nat × Nat)) :
    (s.checkEntry ty code ch l [] op).checks = s.checks := (s.logError_sameRecords _).1

/-- The check with its keeping run to start. -/
def Check.keeping (ch : Check) : Check := { ch with runs := ch.runs.put 3 { SegRun.idle with life := .pending } }

section
variable (hfirst : ch.runs.get 4 = none) (hp : (ch.run 1).over = true) (hq : (ch.run 2).over = true) (hcan : s.cannotCheck ch l = false)
include hfirst hp hq hcan

theorem State.kiln_of_agree (hagree : (ch.run 1).agrees (ch.run 2) = true) :
    s.kiln key ch l = ((s.firstWins key ch l).count 5 1 (some l.part)).passChecks ((ch.run 1).cores ++ (ch.run 2).cores) := by
  simp only [State.kiln, Check.first_of_no_substitute hfirst, hp, hq, hcan, hagree, Bool.false_and, Bool.not_true, Bool.or_self,
    Bool.false_eq_true, if_false, if_true]

theorem State.kiln_of_differ (hdiffer : (ch.run 1).agrees (ch.run 2) = false) (hk : (ch.run 3).life = .none) :
    s.kiln key ch l = (State.checkEntry { s with checks := s.checks.upd key Check.keeping } 0x0C 0 ch l [] none).count
      (if (ch.run 1).injected || (ch.run 2).injected then 13 else 6) 1 (some l.part) := by
  simp only [State.kiln, Check.first_of_no_substitute hfirst, hp, hq, hcan, hdiffer, hk, Bool.false_and, Bool.not_true, Bool.or_self,
    Bool.false_eq_true, if_false, if_true]
  rfl

theorem State.kiln_agree_decides (hch : s.checks.get key = some ch) (hagree : (ch.run 1).agrees (ch.run 2) = true) :
    (s.kiln key ch l).checks.get key = some { ch with decided := true }
      ∧ (s.kiln key ch l).counters.getD 5 0 = min (s.counters.getD 5 0 + 1) (2 ^ 64 - 1) := by
  obtain ⟨hdecided, hsame⟩ := State.firstWins_decided (l := l) hch
  rw [State.kiln_of_agree hfirst hp hq hcan hagree]
  obtain ⟨hchecks, hcounters, -⟩ := State.passChecks_sameRecords ((s.firstWins key ch l).count 5 1 (some l.part)) ((ch.run 1).cores ++ (ch.run 2).cores)
  rw [hchecks, hcounters, State.count_checks, State.count_counters, hsame]
  exact ⟨hdecided, rfl⟩

theorem State.kiln_differ_keeping (hch : s.checks.get key = some ch) (hdiffer : (ch.run 1).agrees (ch.run 2) = false)
    (hk : (ch.run 3).life = .none) : (s.kiln key ch l).checks.get key = some ch.keeping := by
  rw [State.kiln_of_differ hfirst hp hq hcan hdiffer hk, State.count_checks, State.checkEntry_checks, Table.get_upd, if_pos rfl, hch,
    Option.map_some]

end

end

/-! ### Cores under test (R353, R355, R356) -/

/-- A core's record as its test starts. -/
def CoreRec.startTest (r : CoreRec) : CoreRec := { r with testing := true, targeted := false }

/-- A core's record as its test passes. -/
def CoreRec.passTest (now : Nat) (r : CoreRec) : CoreRec :=
  { r with testing := false, targeted := false, passed := min (r.passed + 1) (2 ^ 32 - 1), aborted := 0, lastPass := now, testedSince := true }

/-- A core's record as its test is broken off. -/
def CoreRec.abortTest (r : CoreRec) : CoreRec := { r with testing := false, aborted := min (r.aborted + 1) 255 }

section
variable (s : State) (c : Nat)

theorem State.updCore_core (h : CoreRec → CoreRec) : (s.updCore c h).core c = h (s.core c) :=
  (Table.getD_eq _ _ _).trans (congrArg (·.getD CoreRec.reset) (Table.get_put_same _ _ _))

theorem State.setAside_eq (scan : Bool) : ∃ e, s.setAside c scan
    = (s.updCore c fun r => { r with aside := r.aside || !scan, scanFailed := r.scanFailed || scan, testing := false, targeted := false }).logError e :=
  ⟨_, rfl⟩

theorem State.logError_core_groups (e : ErrEntry) : (s.logError e).core = s.core ∧ (s.logError e).groups = s.groups := by
  obtain ⟨es, o, r, m, v, h⟩ := s.logError_eq e
  rw [h]
  exact ⟨rfl, rfl⟩

theorem State.setAside_core (scan : Bool) : (s.setAside c scan).core c
    = { s.core c with aside := (s.core c).aside || !scan, scanFailed := (s.core c).scanFailed || scan, testing := false, targeted := false } := by
  obtain ⟨e, he⟩ := s.setAside_eq c scan
  rw [he, (State.logError_core_groups _ e).1, State.updCore_core]

theorem State.demerit_keeps (ht : (s.core c).testing = false) :
    ((s.demerit c).core c).testing = false ∧ ((s.demerit c).core c).lastPass = (s.core c).lastPass ∧ (s.demerit c).groups = s.groups := by
  unfold State.demerit
  extract_lets s1
  have h1 : s1.core c = { s.core c with demerits := 0 :: (s.core c).demerits } := s.updCore_core c _
  split
  · rw [h1]
    exact ⟨ht, rfl, rfl⟩
  · rw [State.setAside_core, h1]
    obtain ⟨e, he⟩ := s1.setAside_eq c false
    exact ⟨rfl, rfl, by rw [he, (State.logError_core_groups _ e).2]; rfl⟩

/-! ### A failed test (R356) -/

theorem State.restartFrom_suspects (k seg : Nat) (ch : Check) (ends : Table RestartPt) : (s.restartFrom k seg ch ends).suspects = s.suspects := by
  unfold State.restartFrom
  extract_lets bid us part later s1 s2 uids waited back next
  split
  · rfl
  · split
    · rfl
    · extract_lets s3 s4 s5 queue
      have h1 : SameRecords s s1 := (SameRecords.refl s).foldl _ fun u r => (SameRecords.refl u).foldl _ fun v kind => (SameRecords.refl v).endRun _
      have h2 : SameRecords s s2 := h1.foldl _ fun u kind => (SameRecords.refl u).dropLayer k kind seg true
      have h3 : s3.suspects = s.suspects := (h2.endWaits bid).2.2
      have h5 : s5.suspects = s.suspects := (apply_ite State.suspects _ _ _).trans ((ite_self _).trans h3)
      exact List.foldlRecOn (motive := fun u : State => u.suspects = s.suspects) us _ h5 fun _ hu _ _ => hu

theorem State.disregardRun_suspects (key : Nat) (ch : Check) (kind : Nat) : (s.disregardRun key ch c kind).suspects = s.suspects := by
  have hagain := ((SameRecords.refl s).endRun (ch.run kind)).2.2
  unfold State.disregardRun
  dsimp only
  split
  · rfl
  · split
    · rfl
    · rfl
    · split
      · exact s.restartFrom_suspects _ _ _ _
      · exact hagain
    · split
      · split <;> rfl
      · exact hagain
    · split
      · split <;> rfl
      · exact hagain

theorem State.disregard_suspects : (s.disregard c).suspects = s.suspects := by
  refine List.foldlRecOn (motive := fun u : State => u.suspects = s.suspects) _ _ rfl fun u hu n _ => ?_
  split
  · exact hu
  · refine List.foldlRecOn (motive := fun u : State => u.suspects = s.suspects) [1, 2, 3, 4] _ hu fun v hv kind _ => ?_
    split
    · split
      · exact hv
      · exact (v.disregardRun_suspects c _ _ kind).trans hv
    · exact hv

theorem State.suspect_suspects (hroom : s.suspects.length < 64) :
    (s.suspect c).suspects = s.suspects ++ [{ core := c, from_ := (s.core c).lastPass, at_ := s.now, segs := (s.core c).held }] := by
  simp only [State.suspect, State.disregard_suspects, hroom, if_true]

end

section
variable {s : State} {c : Nat}

theorem exec_coneTestComplete_fail (ht : s.underTest c = true) : exec (.coneTestComplete c false) s = .next ((s.suspect c).setAside c true) := by
  refine congrArg Host.Outcome.next ?_
  simp only [ht, Bool.not_true, Bool.not_false, Bool.false_eq_true, if_false, if_true]

theorem coneTestComplete_fail (ht : s.underTest c = true) :
    ∃ t, exec (.coneTestComplete c false) s = .next t ∧ (t.core c).scanFailed = true ∧ (t.core c).good = false
      ∧ (s.suspects.length < 64 → ∃ x, t.suspects = s.suspects ++ [x] ∧ x.core = c ∧ x.from_ = (s.core c).lastPass ∧ x.segs = (s.core c).held) := by
  have hcore := (s.suspect c).setAside_core c true
  refine ⟨_, exec_coneTestComplete_fail ht, ?_, ?_, fun hroom => ⟨⟨c, (s.core c).lastPass, s.now, (s.core c).held⟩, ?_, rfl, rfl, rfl⟩⟩
  · rw [hcore]
    exact Bool.or_true _
  · rw [hcore]
    simp only [CoreRec.good, Bool.or_true, Bool.not_true, Bool.and_false, Bool.false_and]
  · obtain ⟨e, he⟩ := (s.suspect c).setAside_eq c true
    rw [he, (State.logError_sameRecords _ e).2.2]
    exact s.suspect_suspects c hroom

theorem exec_coneTestComplete_pass (ht : s.underTest c = true) : exec (.coneTestComplete c true) s
    = .next (if (s.core c).targeted then (s.updCore c (.passTest s.now)).demerit c else s.updCore c (.passTest s.now)) := by
  refine congrArg Host.Outcome.next ?_
  simp only [ht, Bool.not_true, Bool.false_eq_true, if_false]
  rfl

theorem coneTestComplete_pass (ht : s.underTest c = true) :
    ∃ t, exec (.coneTestComplete c true) s = .next t ∧ (t.core c).testing = false ∧ (t.core c).lastPass = s.now ∧ t.groups = s.groups := by
  refine ⟨_, exec_coneTestComplete_pass ht, ?_⟩
  have hcore := s.updCore_core c (.passTest s.now)
  split
  · obtain ⟨htesting, hlast, hgroups⟩ := (s.updCore c (.passTest s.now)).demerit_keeps c (congrArg CoreRec.testing hcore)
    exact ⟨htesting, hlast.trans (congrArg CoreRec.lastPass hcore), hgroups⟩
  · exact ⟨congrArg CoreRec.testing hcore, congrArg CoreRec.lastPass hcore, rfl⟩

/-! ### Tests begun and broken off (R355) -/

theorem exec_coneTest_next {die : Nat} (hdie : die ≤ 3) (hrun : s.running = true) (hidle : ∀ i, i < 80 → (s.core (80 * die + i)).testing = false)
    (hnext : (s.rotationOrder die).find? (fun c => (s.core c).good) = some c) :
    exec (.coneTest die) s = .next { s.updCore c CoreRec.startTest with nextTest := s.nextTest.put die ((c % 80 + 1) % 80) } := by
  have hnone : ((List.range 80).any fun i => (s.core (80 * die + i)).testing) = false := by
    simpa only [List.any_eq_false, List.mem_range, Bool.not_eq_true] using hidle
  refine congrArg Host.Outcome.next ((if_neg ?_).trans ?_)
  · simp only [hrun, hnone, Bool.not_true, Bool.not_false, Bool.false_eq_true, or_false, not_lt]
    exact hdie
  · simp only [hnext]
    rfl

/-- Whether a launch of the abort priority at a head finds room with the core back in the map, and not otherwise. -/
def State.wantsCore (s : State) (c : Nat) : Bool :=
  s.parts.rows.any fun x => (List.range 8).any fun v =>
    match s.head x.1 v with
    | some (.fresh lid) =>
      (match s.launches.get lid with | some l => decide (s.abortPrio ≤ l.hdr.priority) | none => false)
        && (s.placeHead (.fresh lid)).isNone && ((s.updCore c CoreRec.abortTest).placeHead (.fresh lid)).isSome
    | _ => false

theorem State.wantsCore_of_head {p v lid : Nat} {l : Launch} (hp : (s.parts.get p).isSome = true) (hv : v < 8)
    (hhead : s.head p v = some (.fresh lid)) (hl : s.launches.get lid = some l) (hprio : s.abortPrio ≤ l.hdr.priority)
    (hfull : s.placeHead (.fresh lid) = none) (hfits : ((s.updCore c CoreRec.abortTest).placeHead (.fresh lid)).isSome = true) :
    s.wantsCore c = true := by
  obtain ⟨x, hx⟩ := Option.isSome_iff_exists.mp hp
  refine List.any_eq_true.mpr ⟨(p, x), mem_of_assocGet hx, List.any_eq_true.mpr ⟨v, List.mem_range.mpr hv, ?_⟩⟩
  simp only [hhead, hl, hprio, hfull, hfits, decide_true, Option.isNone_none, Bool.and_self]

theorem exec_coneTestAbort (s : State) (c : Nat) : exec (.coneTestAbort c) s
    = .next (if !s.underTest c || (s.core c).targeted || !s.wantsCore c then s
      else { s.updCore c CoreRec.abortTest with nextTest := s.nextTest.put (dieOfCore c) (c % 80) }) := rfl

theorem exec_coneTestAbort_wanted (ht : s.underTest c = true) (htarget : (s.core c).targeted = false) (hwanted : s.wantsCore c = true) :
    exec (.coneTestAbort c) s = .next { s.updCore c CoreRec.abortTest with nextTest := s.nextTest.put (dieOfCore c) (c % 80) } := by
  rw [exec_coneTestAbort]
  simp only [ht, htarget, hwanted, Bool.not_true, Bool.or_self, Bool.false_eq_true, if_false]

end

end Sys2Proof.Machine

open Sys2Proof Sys2Proof.Machine

/-- Settles O56: a head run starts one block, whose number its check takes; a decision's firing and discarding leave the checks and counters but the decided one's; and each end of a cone test is one change of the core's record, the disregarded runs of a failure leaving the suspect list. -/
theorem kilnEvents : Obligations.KilnEvents := by
  refine ⟨fun s key cl ch l p hch hl htile => ?_, fun s key ch l hch hl hdec hend hfirst hp hq hcan => ?_,
    fun s die c hdie hrun hidle hnext => ?_, fun s c ht => ⟨coneTestComplete_pass ht, coneTestComplete_fail ht⟩,
    fun s c p v lid l ht htarget hp hv hhead hl hprio hfull hfits => ?_⟩
  · refine ⟨fun hhead => ?_, fun hhead => ?_, fun hhead => ?_⟩
    · exact State.tryRun_starts hch hl htile hhead rfl
    · exact State.tryRun_starts hch hl htile hhead rfl
    · exact State.tryRun_starts hch hl htile hhead rfl
  · rw [exec_kilnDecision_undecided hch hl hdec hend]
    refine ⟨fun hagree => ?_, fun hdiffer hk => ?_⟩
    · obtain ⟨hdecided, hcounter⟩ := State.kiln_agree_decides hfirst hp hq hcan hch hagree
      exact ⟨_, _, rfl, hdecided, rfl, hcounter⟩
    · exact ⟨_, _, rfl, State.kiln_differ_keeping hfirst hp hq hcan hch hdiffer hk, hdec, Table.get_put_same _ _ _⟩
  · have hcore := s.updCore_core c CoreRec.startTest
    exact ⟨_, exec_coneTest_next hdie hrun hidle hnext, rfl, rfl, congrArg CoreRec.testing hcore, congrArg CoreRec.targeted hcore, Table.get_put_same _ _ _⟩
  · have hcore := s.updCore_core c CoreRec.abortTest
    have hwanted : s.wantsCore c = true := State.wantsCore_of_head hp hv hhead hl hprio hfull hfits
    exact ⟨_, exec_coneTestAbort_wanted ht htarget hwanted, congrArg CoreRec.testing hcore, congrArg CoreRec.aborted hcore,
      Table.get_put_same _ _ _, rfl, rfl⟩
end

section
/-! PROOFS. Canonical memory (O20), part 1: what it means of a state and of an outcome, and the operations on errors, windows, jobs and collective groups. A lemma per operation of the model; most leave the memory alone, and the few that write it write by `Memory.write`, which keeps the form. -/

set_option Elab.async false

namespace Sys2Proof.Machine
open Sys2Proof

/-- The memory of a state is in canonical form. -/
def Canon (s : State) : Prop := Memory.wf s.mem = true

/-- Canonical memory of the state there is, if there is one. -/
def CanonOpt (o : Option State) : Prop := ∀ t ∈ o, Canon t

/-- Canonical memory of the next state an outcome gives. -/
def CanonOut : Out → Prop
  | .next t => Canon t
  | .fault _ | .refused _ => True

/-- Canonical memory of the state an instruction's action gives. -/
def CanonAct : Act → Prop
  | .done t | .placed t | .wait _ t => Canon t
  | .trap _ => True

variable {s t : State}

/-- What leaves the memory alone keeps its form. -/
theorem Canon.same (h : Canon s) (e : t.mem = s.mem := by rfl) : Canon t := by rw [Canon, e]; exact h

theorem canon_foldl {α : Type} {f : State → α → State} {l : List α} (hf : ∀ s a, Canon s → Canon (f s a)) (h : Canon s) : Canon (l.foldl f s) := by
  induction l generalizing s with
  | nil => exact h
  | cons a l ih => exact ih (hf _ _ h)

theorem canon_foldlM {α : Type} {f : State → α → Option State} {l : List α} (hf : ∀ s a, Canon s → CanonOpt (f s a)) (h : Canon s) :
    CanonOpt (l.foldlM f s) := by
  induction l generalizing s with
  | nil => rintro t ⟨⟩; exact h
  | cons a l ih =>
    intro t ht
    obtain ⟨u, hu, ht⟩ := Option.bind_eq_some_iff.mp ht
    exact ih (hf _ _ h u hu) t ht

theorem canonOpt_some (h : Canon t) : CanonOpt (some t) := by rintro t ⟨⟩; exact h

theorem CanonOpt.getD {o : Option State} (ho : CanonOpt o) (h : Canon s) : Canon (o.getD s) := by
  cases o with
  | none => exact h
  | some t => exact ho t rfl

theorem canon_ite {c : Prop} [Decidable c] (ht : Canon s) (hf : Canon t) : Canon (if c then s else t) := by
  split
  · exact ht
  · exact hf

theorem Canon.fillSlice {slice part vdev isLocal line kind full} (h : Canon s) : CanonOpt (s.fillSlice slice part vdev isLocal line kind full) := by
  unfold State.fillSlice
  extract_lets
  split
  · exact canonOpt_some h.same
  · split
    · exact canonOpt_some h
    · split
      · exact canonOpt_some h.same
      · intro t ht
        obtain ⟨v, -, rfl⟩ := Option.map_eq_some_iff.mp ht
        exact h.same

theorem Canon.fillHome {part vdev line kind full} (h : Canon s) : CanonOpt (s.fillHome part vdev line kind full) := h.fillSlice

theorem Canon.fillNear {core part vdev line kind full} (h : Canon s) : CanonOpt (s.fillNear core part vdev line kind full) := h.fillSlice

theorem Canon.placePrivate {n x} (h : Canon s) : Canon (s.placePrivate n x) := CanonOpt.getD h.same.fillHome h.same

theorem Canon.poke {pa bs} (h : Canon s) : Canon (s.poke pa bs) := Memory.wf_writeN _ _ h

theorem Canon.pokes {ws} (h : Canon s) : Canon (s.pokes ws) := canon_foldl (fun _ _ h => h.poke) h

theorem Canon.logError {e} (h : Canon s) : Canon (s.logError e) := by
  unfold State.logError
  extract_lets _ _ s1
  have h1 : Canon s1 := canon_ite h.same h.same
  split
  · exact h1
  · exact h1.same.pokes

theorem Canon.dropCodeWrite {pa} (h : Canon s) : Canon (s.dropCodeWrite pa) := h.logError

theorem Canon.count {i n owner} (h : Canon s) : Canon (s.count i n owner) := by
  cases owner <;> exact h.same

theorem Canon.notePoison {line owner} (h : Canon s) : Canon (s.notePoison line owner) := by
  unfold State.notePoison
  extract_lets s1 s2 e
  have h1 : Canon s1 := canon_ite h h.same
  have h2 : Canon s2 := canon_ite h1.same h1.same
  exact h2.count.logError

theorem canon_writeMask {m : Memory} {α : Type} {l : List α} {a : α → Nat} {b : α → Byte} (h : Memory.wf m = true) :
    Memory.wf (l.foldl (fun m i => Memory.write m (a i) (b i)) m) = true := by
  induction l generalizing m with
  | nil => exact h
  | cons x l ih => exact ih (Memory.wf_write _ _ h)

theorem Canon.placeBounced {pa b} (h : Canon s) : Canon (s.placeBounced pa b) := by
  unfold State.placeBounced
  split
  · exact h.placePrivate
  · split
    · exact h.dropCodeWrite
    · extract_lets s1
      have h1 : Canon s1 := canon_writeMask h
      exact canon_ite h1.notePoison h1

theorem Canon.mergeBounce {e} (h : Canon s) : Canon (s.mergeBounce e) := canon_ite h (canon_foldl (fun _ _ h => h.placeBounced) h.same)

theorem Canon.translate {part vdev core va acc} (h : Canon s) : Canon (s.translate part vdev core va acc).1 := by
  unfold State.translate
  dsimp only
  split
  · exact h.mergeBounce.same
  · exact h.logError
  · exact h.mergeBounce
  · exact h

theorem Canon.touchL2 {c stream as} (h : Canon s) : CanonOpt (s.touchL2 c stream as) :=
  canon_foldlM (fun _ _ h => by dsimp only; split; exacts [h.fillHome, h.fillNear]) h

theorem Canon.takeKeyed {bid fits} (h : Canon s) : ∀ x ∈ s.takeKeyed bid fits, Canon x.2 := by
  intro x hx
  obtain ⟨y, -, rfl⟩ := Option.map_eq_some_iff.mp hx
  exact h.same

theorem Canon.takeOwn {uid fits} (h : Canon s) : ∀ x ∈ s.takeOwn uid fits, Canon x.2 := by
  intro x hx
  obtain ⟨y, -, rfl⟩ := Option.map_eq_some_iff.mp hx
  exact h.same

theorem Canon.stopRun {c stop} (h : Canon s) : Canon (s.stopRun c stop) := by
  unfold State.stopRun
  extract_lets us s1 s2 s3
  have h2 : Canon s2 := canon_foldl (fun _ _ h => h.same) h.same
  split <;> exact h2.same

theorem canon_elim {α : Type} {o : Option (α × State)} (ho : ∀ x ∈ o, Canon x.2) (h : Canon s) : Canon (o.elim s (·.2)) := by
  cases o with
  | none => exact h
  | some x => exact ho x rfl

theorem Canon.fillLine {c n w line lane} (h : Canon s) : Canon (s.fillLine c n w line lane).1 := by
  unfold State.fillLine
  extract_lets va r s1
  have h1 : Canon s1 := h.translate
  split
  · exact h1
  · exact h1
  · split <;> exact h1
  · split
    · exact h1
    next s2 hs2 =>
      have h2 : Canon s2 := by
        split at hs2
        · contradiction
        · exact h1.touchL2 _ hs2
      extract_lets taken s3 at_ peer
      have ht : ∀ x ∈ taken, Canon x.2 := by
        unfold taken
        split
        · rintro _ ⟨⟩
        · exact h2.takeKeyed
      have h3 : Canon s3 := canon_elim ht h2
      split
      · exact h2.stopRun
      · split
        split
        · exact h3
        · exact canon_ite h3.same h3.same

theorem Canon.requestPage {part vdev page access launch block} (h : Canon s) : Canon (s.requestPage part vdev page access launch block).1 := by
  unfold State.requestPage
  extract_lets
  split
  · exact h
  · split
    · exact h.same.poke
    · exact h.same

theorem Canon.changeBar {bid n uid d f} (h : Canon s) : Canon (s.changeBar bid n uid d f) := by
  unfold State.changeBar
  split
  · exact h
  · exact canon_ite h.same h.same

theorem Canon.jobCredit {j cls f} (h : Canon s) : Canon (s.jobCredit j cls f) := by
  unfold State.jobCredit
  split
  · exact h.changeBar
  · exact h

theorem Canon.jobFault {j cls fault} (h : Canon s) : Canon (s.jobFault j cls fault) := by
  unfold State.jobFault
  split
  · exact h.same
  · exact h

theorem Canon.jobWindow {j n w off bs} (h : Canon s) : Canon (s.jobWindow j n w off bs) := h.same

theorem Got.canon_fillOne {g : Got} {c j n w l} (h : Canon g.s) : Canon (g.fillOne c j n w l).s := by
  unfold Got.fillOne
  split
  · exact h
  · extract_lets r
    have hr : Canon r.1 := h.fillLine
    split
    · exact hr
    · exact hr.same
    · exact hr.same
    · exact hr.requestPage
    · exact hr.same
    · exact hr

theorem Got.canon_foldl {α : Type} {f : Got → α → Got} {l : List α} (hf : ∀ g a, Canon g.s → Canon (f g a).s) {g : Got} (h : Canon g.s) : Canon (l.foldl f g).s := by
  induction l generalizing g with
  | nil => exact h
  | cons a l ih => exact ih (hf _ _ h)

theorem Got.canon_fill {g : Got} {c j n w off len} (h : Canon g.s) : Canon (g.fill c j n w off len).s := by
  unfold Got.fill
  split
  · exact h
  · exact Got.canon_foldl (fun _ _ h => Got.canon_fillOne h) h

theorem Canon.collDone {id j status ab} (h : Canon s) : Canon (s.collDone id j status ab) := by
  unfold State.collDone
  extract_lets s1 s2
  have h1 : Canon s1 := by
    unfold s1
    split <;> exact h.same
  exact h1.jobCredit.jobFault.same

theorem Canon.collEnd {id} (h : Canon s) : Canon (s.collEnd id) := by
  unfold State.collEnd
  split
  · exact h
  · split
    · exact h
    · extract_lets a bad
      split
      · extract_lets got
        have hg : Canon got.s := Got.canon_fill h
        exact canon_ite hg hg.jobFault.collDone
      · exact h.collDone

theorem Canon.logColl {j st ab va bs d} (h : Canon s) : Canon (s.logColl j st ab va bs d) := by
  unfold State.logColl
  split <;> exact h.same

theorem Canon.collAbandon {gid num reason} (h : Canon s) : Canon (s.collAbandon gid num reason) := by
  unfold State.collAbandon
  split
  · exact h
  · split
    · exact canon_ite h h.same
    · split
      · exact h.same
      · extract_lets s1 st info t
        have ht : Canon t := h.same.logColl
        exact ht.same.collEnd

theorem Canon.collLeave {gid reason} (h : Canon s) : Canon (s.collLeave gid reason) := by
  unfold State.collLeave
  split
  · exact h
  · exact (canon_foldl (fun _ _ h => h.collAbandon) h).same

theorem Canon.trace {b l seg gidx kind chan pc w value} (h : Canon s) : Canon (s.trace b l seg gidx kind chan pc w value) := by
  unfold State.trace
  extract_lets
  split
  · exact h
  · exact canon_ite h h.same.pokes

theorem Canon.traceOf {c kind chan pc w value} (h : Canon s) : Canon (s.traceOf c kind chan pc w value) := h.trace

theorem Canon.traceView {g} (h : Canon s) : Canon (s.traceView g) :=
  canon_foldl (fun _ _ h => by split; exacts [h.traceOf, h]) h

theorem Canon.collApply {gid num choice} (h : Canon s) : Canon (s.collApply gid num choice) := by
  unfold State.collApply
  split
  · exact h
  · split
    · exact h
    · split
      · exact h.collAbandon
      · extract_lets
        split <;> exact h.same

theorem Canon.collSettle {gid num} (h : Canon s) : Canon (s.collSettle gid num) := by
  unfold State.collSettle
  split
  · exact h
  · split
    · exact h
    · refine canon_ite h ?_
      split
      · exact h
      · exact canon_ite h.collApply h.collAbandon

theorem Canon.collChoose {gid num choice} (h : Canon s) : Canon (s.collChoose gid num choice) := by
  unfold State.collChoose
  split
  · exact h
  · exact h.same.collSettle

theorem Canon.collAffected {gid num gone} (h : Canon s) : Canon (s.collAffected gid num gone) := by
  unfold State.collAffected
  split
  · exact h
  · split
    · exact canon_ite h.collAbandon h.same
    · exact canon_ite h.collAbandon (canon_ite h.same h.same.collChoose)

theorem Canon.viewTraps {gid view departed} (h : Canon s) : Canon (s.viewTraps gid view departed) :=
  canon_foldl (fun _ _ h => h.same) h

theorem Canon.collInstall {gid view num live} (h : Canon s) : Canon (s.collInstall gid view num live) := by
  unfold State.collInstall
  split
  · exact h
  · refine canon_ite h.collLeave.same (canon_ite h ?_)
    extract_lets s1 s2
    have h1 : Canon s1 := h.traceView.same
    have h2 : Canon s2 := canon_foldl (fun _ _ h => h.collAffected) h1
    exact canon_ite h1.same (canon_ite h1.same h2.viewTraps)

theorem Canon.collTryCommit {gid} (h : Canon s) : Canon (s.collTryCommit gid) := by
  unfold State.collTryCommit
  split
  · exact h
  · split
    · exact h
    · exact canon_ite h.same.collInstall h

theorem Canon.collReady {gid} (h : Canon s) : Canon (s.collReady gid) := by
  unfold State.collReady
  split
  · exact h
  · split
    · exact h
    · exact canon_ite h (canon_ite h.same.collTryCommit h.same)

theorem Canon.collsReady (h : Canon s) : Canon s.collsReady := canon_foldl (fun _ _ h => h.collReady) h

theorem Canon.putSample {x r} (h : Canon s) : Canon (s.putSample x r) := by
  unfold State.putSample
  split
  · exact h
  · exact h.same.pokes

theorem Canon.closeSamples (h : Canon s) : Canon s.closeSamples := by
  refine canon_ite h (canon_foldl (fun t x ht => ?_) h.same)
  split
  · exact ht
  · split
    · exact ht.putSample
    · exact ht.same

theorem Canon.between (h : Canon s) : Canon s.between := h.closeSamples.collsReady

theorem Canon.woken (h : Canon s) : Canon s.woken := by
  unfold State.woken
  split <;> exact h.same

theorem Canon.endLaunch {a b c} (h : Canon s) : Canon (s.endLaunch a b c) := by
  unfold State.endLaunch
  split
  · exact h
  · exact canon_ite h h.same.logError

theorem Canon.takeTrap {c t} (h : Canon s) : Canon (s.takeTrap c t) :=
  canon_ite h.stopRun (canon_ite h.endLaunch h.same.traceOf)

theorem Canon.suspendSeq {c page access} (h : Canon s) : Canon (s.suspendSeq c page access) := h.requestPage.same

theorem Canon.abortForPage {c page access} (h : Canon s) : Canon (s.abortForPage c page access) := by
  unfold State.abortForPage
  extract_lets bid grps rq s1 _ _ s3
  have h1 : Canon s1 := h.same.requestPage
  have h3 : Canon s3 := by
    unfold s3
    split <;> exact h1.same
  exact h3.same

theorem Canon.pageFault {c page access} (h : Canon s) : Canon (s.pageFault c page access) :=
  canon_ite h.suspendSeq h.abortForPage

theorem Canon.barred {c x} (h : Canon s) : Canon (Ctx.barred c s x) := by
  cases x with
  | trap t => exact h.takeTrap
  | malformed va t => exact h.logError.takeTrap
  | absent page => exact h.pageFault

theorem Canon.trapped {c t} (h : Canon s) : CanonOut (Ctx.trapped c s t) := h.takeTrap

theorem Canon.outcome {c o} (h : Canon s) : CanonOut (Ctx.outcome c s o) := by
  cases o with
  | error t => exact h.trapped
  | ok g => exact h.same

theorem Canon.finish {c a} (h : Canon s) (ha : CanonAct a) : CanonOut (Ctx.finish c s a) := by
  cases a with
  | done t => exact canon_ite h.same (Canon.same ha)
  | placed t => exact ha
  | trap t => exact h.trapped
  | wait r t => exact Canon.same ha
end Sys2Proof.Machine
end

section
/-! PROOFS. Canonical memory, part 2: the frames of the instructions, the log's answers, control flow, publication and the ends of blocks. -/

set_option Elab.async false

namespace Sys2Proof.Machine
open Sys2Proof
variable {s t : State}

/-- What an instruction consults the log for leaves memory canonical. -/
def CanonConsult : Consult → Prop
  | .perform => True
  | .replay _ t | .diverged t => Canon t

/-- Canonical memory of the state a handing over leaves. -/
def CanonHand : Hand → Prop
  | .clear t | .round _ t | .wait _ t => Canon t

/-- Canonical memory of the state a publication leaves. -/
def CanonPub : Pub → Prop
  | .done t | .wait _ t | .poison _ t => Canon t

theorem CanonConsult.replay {x d} (hx : CanonConsult x) (e : x = .replay d t) : Canon t := by subst e; exact hx
theorem CanonConsult.diverged {x} (hx : CanonConsult x) (e : x = .diverged t) : Canon t := by subst e; exact hx
theorem CanonHand.clear {x} (hx : CanonHand x) (e : x = .clear t) : Canon t := by subst e; exact hx
theorem CanonHand.round {x n} (hx : CanonHand x) (e : x = .round n t) : Canon t := by subst e; exact hx
theorem CanonHand.wait {x n} (hx : CanonHand x) (e : x = .wait n t) : Canon t := by subst e; exact hx
theorem CanonPub.done {x} (hx : CanonPub x) (e : x = .done t) : Canon t := by subst e; exact hx
theorem CanonPub.wait {x n} (hx : CanonPub x) (e : x = .wait n t) : Canon t := by subst e; exact hx
theorem CanonPub.poison {x n} (hx : CanonPub x) (e : x = .poison n t) : Canon t := by subst e; exact hx

theorem canonOut_alu {g dsts srcs cross k} (h : Canon s) : CanonOut (alu s g dsts srcs cross k) := by
  unfold alu
  split
  · trivial
  · split
    · exact h.barred
    · split
      · exact h.same
      · split
        · exact h.trapped
        · exact h.outcome

theorem canonOut_sysFull {g priv bad dsts srcs k} (h : Canon s) (hk : ∀ c m, CanonAct (k c m)) : CanonOut (sysFull s g priv bad dsts srcs k) := by
  unfold sysFull
  split
  · trivial
  · split
    · exact h.trapped
    · split
      · exact h.trapped
      · split
        · exact h.barred
        · split
          · exact h.same
          · split
            · exact h.trapped
            · exact h.finish (hk _ _)

theorem canonOut_sysInstr {g dsts srcs k} (h : Canon s) (hk : ∀ c m, CanonAct (k c m)) : CanonOut (sysInstr s g dsts srcs k) :=
  canonOut_sysFull h hk

theorem canonOut_ctlInstr {g srcs k} (h : Canon s) (hk : ∀ c, CanonAct (k c)) : CanonOut (ctlInstr s g srcs k) := by
  unfold ctlInstr
  split
  · trivial
  · split
    · exact h.trapped
    · split
      · exact h.trapped
      · exact h.finish (hk _)

theorem Canon.escaped {c} (h : Canon s) : Canon (s.escaped c) := h.logError.count.endLaunch

theorem Canon.consult {c kind op digest} (h : Canon s) : CanonConsult (s.consult c kind op digest) := by
  unfold State.consult
  split
  · split
    · exact h.stopRun
    · trivial
  · split
    · split
      · exact h.same
      · split
        · exact h.stopRun
        · exact h.escaped
    · split
      · exact h.stopRun
      · split
        · exact h.escaped
        · trivial

theorem Canon.transfer {c a f} (h : Canon s) (hf : ∀ t, Canon t → Canon (f t) := by exact fun _ h => h) : CanonAct (Ctx.transfer c s a f) := by
  unfold Ctx.transfer
  split
  · exact h.barred
  · exact Canon.same (hf _ h)

theorem Canon.branch {c g a} (h : Canon s) : CanonAct (Ctx.branch c s g a) := by
  unfold Ctx.branch
  extract_lets
  split
  · exact h.transfer
  · split
    · exact h.transfer
    · split
      · exact h.barred
      · exact h.barred
      · exact h.barred
      · split
        · trivial
        · exact h.same

theorem Canon.published {c} (h : Canon s) : CanonPub (s.published c) := by
  unfold State.published
  extract_lets
  split
  · exact h
  · exact h.same

theorem Canon.addTerms {c reg terms} (h : Canon s) : Canon (s.addTerms c reg terms) := by
  unfold State.addTerms
  split
  · exact h
  · exact h.same

theorem Canon.bounceLine {core part vdev va m d poison launch block priv} (h : Canon s) :
    Canon (s.bounceLine core part vdev va m d poison launch block priv) := h.requestPage.same

theorem Canon.bounceFor {c n grp va m d poison} (h : Canon s) : Canon (s.bounceFor c n grp va m d poison) := h.bounceLine

theorem Canon.placeLine {c n w} (h : Canon s) : Canon (s.placeLine c n w).1 := by
  unfold State.placeLine
  extract_lets r s1 bad counted
  have h1 : Canon s1 := h.translate
  have hb : ∀ code, Canon (bad code) := fun _ => h1.same
  have hc : Canon counted := h1.addTerms
  split
  · split
    · exact hb _
    · exact hc
  · exact hc.bounceFor
  · exact hb _
  · exact hb _

theorem Canon.placeLines {c n ws} (h : Canon s) : Canon (s.placeLines c n ws).1 := by
  induction ws generalizing s with
  | nil => exact h
  | cons w ws ih => exact ih h.placeLine

theorem Canon.absorb {n x} (h : Canon s) : Canon (s.absorb n x) := h.placePrivate.same

theorem Canon.publishPrivate {c n} (h : Canon s) : Canon (s.publishPrivate c n) := by
  have h2 : ∀ {α : Type} {l : List α} {f : α → Handed}, Canon (l.foldl (fun s x => s.absorb n (f x)) ((s.placeLines c n (s.blocks.getD c.g.block c.b).pending).1.updBlock c.g.block fun b => { b with pending := [] })) :=
    canon_foldl (fun _ _ h => h.absorb) h.placeLines.same
  exact h2.same

theorem Canon.publishAgain {c fuel} (h : Canon s) : Canon (s.publishAgain c fuel) := by
  induction fuel generalizing s with
  | zero => exact h
  | succ n ih =>
    unfold State.publishAgain
    split
    · split
      · exact ih h.same.publishPrivate
      · exact h
    · exact h

theorem Canon.noteLines {c lines} (h : Canon s) : Canon (s.noteLines c lines) := by
  unfold State.noteLines
  split
  · exact h
  · exact canon_ite h.same h

theorem Canon.handGroup {c uids wb} (h : Canon s) : Canon (s.handGroup c uids wb).1 := by
  unfold State.handGroup
  extract_lets n bufs upds s1 s2 s3
  have h1 : Canon s1 := canon_foldl (fun _ _ h => h.same) h
  have h2 : Canon s2 := canon_foldl (fun _ _ h => h.same) h1
  have h3 : Canon s3 := canon_foldl (fun _ _ h => h.same) h2
  split
  · exact h
  · exact h3.same.noteLines

theorem Canon.handOut {c} (h : Canon s) : CanonHand (s.handOut c) := by
  unfold State.handOut
  split
  · exact h
  · split
    · split
      next e => exact Canon.publishAgain (canon_ite (h.consult.replay e) (h.consult.replay e).publishPrivate)
      next => exact h
      next e => exact h.consult.diverged e
    · extract_lets uids n w s1 hg again s2
      split
      · exact h
      · split
        · exact h
        · have h1 : Canon s1 := h.placeLines.same
          have hg : Canon hg.1 := h1.handGroup
          have h2 : Canon s2 := canon_ite hg.same hg
          split <;> exact h2

theorem Canon.claimPoison {c} (h : Canon s) : Canon (s.claimPoison c) := by
  unfold State.claimPoison
  extract_lets us
  split
  · exact h
  · have hp : Canon (us.foldl (fun (s : State) u => s.updGroup u fun g => { g with pubPoison := none }) s) := canon_foldl (fun _ _ h => h.same) h
    exact hp.same

theorem Canon.handOver {c} (h : Canon s) : CanonHand (s.handOver c) := by
  unfold State.handOver
  split
  next e => exact (h.handOut.clear e).claimPoison
  next e => exact (h.handOut.round e).claimPoison
  next e => exact h.handOut.wait e

theorem Canon.publish {c wait out} (h : Canon s) : CanonPub (s.publish c wait out) := by
  unfold State.publish
  extract_lets waits
  have hw : ∀ {m t}, Canon t → CanonPub (waits m t) := fun h => h.same
  have hd : CanonPub (.done s) := h
  split
  · exact hd
  · exact hd
  · split
    · exact h.published
    · exact h
  · split
    · exact h.published
    · exact h
  all_goals
    split
    next e => exact h.handOver.wait e
    next e => exact hw (h.handOver.round e)
    next e =>
      have ht := h.handOver.clear e
      extract_lets
      split
      · exact hw ht
      · exact ht.published

theorem Canon.trapIn {c t} (h : Canon s) : Canon (Ctx.trapIn c s t) := by
  unfold Ctx.trapIn
  split
  · exact h.takeTrap
  · exact h

theorem Canon.afterPublish {c k wait out} (h : Canon s) (hk : ∀ t, Canon t → CanonAct (k t)) : CanonAct (Ctx.afterPublish c s k wait out) := by
  unfold Ctx.afterPublish
  split
  next e => exact hk _ (h.publish.done e)
  next e => exact h.publish.wait e
  next e => exact (h.publish.poison e).trapIn

theorem Canon.foldRegs {c lanes} (h : Canon s) : Canon (s.foldRegs c lanes) := canon_ite h h.addTerms

theorem Canon.endRepeat {c} (h : Canon s) : Canon (s.endRepeat c) := by
  unfold State.endRepeat
  split
  · split
    · exact h.stopRun
    · extract_lets s1
      have h1 : Canon s1 := h.same
      exact canon_ite (canon_foldl (fun _ _ h => h.same) h1.same) (canon_ite h1.stopRun h1)
  · exact h

theorem Canon.keepLog {c} (h : Canon s) : Canon (s.keepLog c) := by
  unfold State.keepLog
  split
  · exact h.same
  · exact h

theorem Canon.closePrimary {bid k seg} (h : Canon s) : Canon (s.closePrimary bid k seg) := canon_ite h.same h

theorem Canon.settleBlock {bid} (h : Canon s) : Canon (s.settleBlock bid) := by
  unfold State.settleBlock
  split
  · exact h
  · split
    · exact h
    · split
      · exact h.same
      · exact canon_ite (canon_foldl (fun _ _ h => h.same) h.same) h

theorem Canon.saveIfDone {bid} (h : Canon s) : Canon (s.saveIfDone bid) := by
  unfold State.saveIfDone
  split
  · exact h
  · exact canon_ite h.same h

theorem Canon.endOnDelivered {c} (h : Canon s) : Canon (s.endOnDelivered c) := by
  unfold State.endOnDelivered
  split
  · exact h
  · exact h.endLaunch

theorem Canon.seqExit {c} (h : Canon s) : CanonAct (Ctx.seqExit c s) := by
  unfold Ctx.seqExit
  split
  · exact h
  · split
    · exact h.same.takeTrap
    · refine h.afterPublish fun t ht => ?_
      extract_lets ended s1 s2 s3
      have h1 : Canon s1 := Canon.same (s := ended.foldRegs c c.f.mask) ht.same.foldRegs
      split
      · exact h1.endRepeat
      · have h2 : Canon s2 := h1.keepLog.same
        have h3 : Canon s3 := by
          unfold s3
          split
          · exact h2
          · exact h2.closePrimary
        exact h3.settleBlock

theorem Canon.closeBlock {c} (h : Canon s) : Canon (s.closeBlock c) := by
  unfold State.closeBlock
  extract_lets s1 d w s2 hg s3 s4
  have h1 : Canon s1 := h.same
  split
  · split
    next e => exact (h1.takeKeyed _ e).publishPrivate
    · exact h
  · have h2 : Canon s2 := h1.placeLines.same
    have h3 : Canon s3 := h2.handGroup.same
    have h4 : Canon s4 := canon_ite h3.same h3
    exact h4.endOnDelivered

theorem Canon.groupDone {c} (h : Canon s) : Canon (s.groupDone c) := by
  unfold State.groupDone
  extract_lets s1 s2 top s3
  have h1 : Canon s1 := canon_ite h.closeBlock h
  have h2 : Canon s2 := h1.keepLog.same
  have h3 : Canon s3 := by
    unfold s3
    split
    · exact h2
    · exact canon_foldl (fun _ _ h => h.closePrimary) h2
  exact h3.endOnDelivered.settleBlock.saveIfDone

theorem Canon.afterLeaving {c} (h : Canon s) : Canon (s.afterLeaving c) :=
  canon_ite h.endLaunch (canon_ite h (canon_ite (canon_ite h.closeBlock h).endRepeat h.groupDone))

theorem Canon.leave {c} (h : Canon s) : Canon (s.leave c) := by
  unfold State.leave
  split
  next e => exact h.handOver.wait e
  next e => exact (h.handOver.round e).same.endOnDelivered.saveIfDone
  next e => exact (h.handOver.clear e).same.afterLeaving

theorem Canon.lastExit {c} (h : Canon s) : CanonAct (Ctx.lastExit c s) := by
  unfold Ctx.lastExit
  split
  · exact h.same
  · split
    · exact h
    · split
      · exact h.same.takeTrap
      · exact h.same.takeTrap
      · extract_lets t
        have ht : Canon t := h.foldRegs.same
        exact ht.leave

theorem Canon.past {c} (h : Canon s) : CanonAct (Ctx.past c s) := by
  unfold Ctx.past
  split
  · exact h.barred
  · exact h

theorem Canon.collDefault {uid} (h : Canon s) : Canon (s.collDefault uid) := canon_foldl (fun _ _ h => h.collChoose) h

theorem Canon.viewLeft {c} (h : Canon s) : Canon (s.viewLeft c) := canon_ite h.collDefault h

theorem Canon.takeRestartSnap {uid} (h : Canon s) : Canon (s.takeRestartSnap uid) := by
  unfold State.takeRestartSnap
  split
  · exact h.same
  · exact h

theorem Canon.noteEnd {c e} (h : Canon s) : Canon (s.noteEnd c e) := by
  unfold State.noteEnd
  split
  · exact canon_ite h.same h
  · exact h

theorem Canon.nextPart {c e} (h : Canon s) : Canon (s.nextPart c e) := by
  unfold State.nextPart
  split
  · exact h.same
  · extract_lets e s1 seg s1' next s2 s3
    split
    · exact canon_ite h.same.takeRestartSnap h.same
    · split
      · exact h.noteEnd.endRepeat
      · have h1 : Canon s1' := h.keepLog
        have h3 : Canon s3 := h1.same
        exact h3.closePrimary.same

theorem Canon.snap {c} (h : Canon s) : Canon (s.snap c) := by
  unfold State.snap
  extract_lets
  split
  · exact h.same
  next e => exact (h.consult.replay e).same
  next e => exact h.consult.diverged e

theorem Canon.lanes {c size acc typeOk as} (h : Canon s) : Canon (s.lanes c size acc typeOk as).1 := by
  induction as generalizing s with
  | nil => exact h
  | cons a as ih =>
    obtain ⟨j, va⟩ := a
    unfold State.lanes
    split
    · exact h
    · extract_lets r s1 t
      have h1 : Canon s1 := h.translate
      split
      · exact h1
      · exact h1
      · split <;> exact h1
      · split
        · exact h1
        · split
          · exact h1
          · exact ih h1

theorem Canon.stopped {c x} (h : Canon s) : CanonAct (Ctx.stopped c s x) := by
  cases x with
  | fault code info => exact h.trapIn
  | absent page access => exact h.pageFault
  | room => exact h
  | gone => exact h
end Sys2Proof.Machine
end

section
/-! PROOFS. Canonical memory, part 3: loads, stores, atomics, reductions, windows, gates, rounds and copies of the host. -/

set_option Elab.async false

namespace Sys2Proof.Machine
open Sys2Proof
variable {s t : State}

theorem canonOut_load {f stream} (h : Canon s) : CanonOut (load s f stream) := by
  refine canonOut_sysInstr h fun c m => ?_
  split
  · exact h
  · extract_lets r
    have hr : Canon r.1 := h.lanes
    split
    · exact hr.stopped
    · extract_lets vals peer bad put now digest
      have hp : ∀ {t v}, Canon t → CanonAct (put t v) := fun h => h.same
      split
      · exact h
      next e =>
        have ht := hr.touchL2 _ e
        split
        · split
          · exact hp ht.same
          next e => exact hp (ht.consult.replay e)
          next e => exact ht.consult.diverged e
        · exact hp ht

theorem Canon.bufferStore {c pa bs share} (h : Canon s) : CanonOpt (s.bufferStore c pa bs share) := by
  unfold State.bufferStore
  extract_lets line m d e onCore full out s1 filled
  have h1 : Canon s1 := h.same
  have hf : CanonOpt filled := h1.fillNear
  split
  · exact canonOpt_some h.same
  · split
    · exact canonOpt_some h.same
    · split
      · rintro _ ⟨⟩
      · split
        · exact canonOpt_some (hf.getD h1)
        · exact hf

theorem Canon.notePeers {c m as} (h : Canon s) : Canon (s.notePeers c m as) := canon_ite h h.same

theorem canonOut_store {f stream} (h : Canon s) : CanonOut (store s f stream) := by
  refine canonOut_sysInstr h fun c m => ?_
  split
  · exact h
  · extract_lets r
    have hr : Canon r.1 := h.lanes
    split
    · exact hr.stopped
    · split
      · exact h
      next e =>
        obtain ⟨u, hu, ht⟩ := Option.bind_eq_some_iff.mp e
        have h1 := canon_foldlM (fun _ _ h => h.bufferStore) hr u hu
        have h2 := h1.touchL2 _ ht
        exact h2.addTerms.notePeers.same

theorem Canon.fillLines {c n w ls} (h : Canon s) : Canon (s.fillLines c n w ls).1 := by
  induction ls generalizing s with
  | nil => exact h
  | cons x ls ih =>
    obtain ⟨l, lane⟩ := x
    unfold State.fillLines
    split
    · exact ih h
    · extract_lets r
      have hr : Canon r.1 := h.fillLine
      split
      · exact ih hr
      · exact hr

theorem Canon.windowAccess {c m n size offs k} (h : Canon s) (hk : ∀ t w ls, Canon t → CanonAct (k t w ls)) :
    CanonAct (Ctx.windowAccess c s m n size offs k) := by
  unfold Ctx.windowAccess
  split
  · exact h.stopped
  · split
    · exact h.stopped
    · extract_lets r
      have hr : Canon r.1 := h.fillLines
      split
      · exact hr.stopped
      · exact hr.same
      · exact hk _ _ _ hr

theorem Canon.snapNow {c} (h : Canon s) : Canon (s.snapNow c) := h.snap

theorem Canon.clamp {c scope} (h : Canon s) : Canon (s.clamp c scope) := canon_ite h.same h

theorem Canon.keepBase {line} (h : Canon s) : Canon (s.keepBase line) := canon_ite h h.same

theorem Canon.writeMem {pa bs} (h : Canon s) (e : t.mem = Memory.writeN s.mem pa bs := by rfl) : Canon t := by
  rw [Canon, e]
  exact Memory.wf_writeN _ _ h

theorem Canon.performAt {part vdev pa share bs} (h : Canon s) : Canon (s.performAt part vdev pa share bs) :=
  (h.keepBase (line := pa / 128)).writeMem

theorem Canon.writeThrough {c} (h : Canon s) : Canon (s.writeThrough c) := canon_foldl (fun _ _ h => h.performAt) h.same

theorem canonOut_waitFor {g srcs limit} (h : Canon s) : CanonOut (waitFor s g srcs limit) := by
  refine canonOut_sysInstr h fun c m => ?_
  extract_lets lim
  split
  · exact h
  · split
    · exact h
    · exact h.same.takeTrap

theorem Canon.atomAt {c cls aop size arg a} (h : Canon s) : Canon (s.atomAt c cls aop size arg a).1 := by
  unfold State.atomAt
  extract_lets
  split
  · exact h.writeMem
  · exact h.performAt

theorem Canon.atoms {c cls aop size arg as} (h : Canon s) : Canon (s.atoms c cls aop size arg as).1 := by
  induction as generalizing s with
  | nil => exact h
  | cons a as ih => exact ih h.atomAt

theorem canonOut_atomMem {f op cls} (h : Canon s) : CanonOut (atomMem s f op cls) := by
  refine canonOut_sysInstr h fun c m => ?_
  split
  · exact h
  · extract_lets r arg
    have hr : Canon r.1 := h.lanes
    split
    · exact hr.stopped
    · split
      · exact h
      next e =>
        have hu := hr.clamp.touchL2 _ e
        extract_lets fly digest va
        have hf : ∀ {t v b}, Canon t → Canon (fly t v b) := fun h => h.same
        split
        next e => exact canon_ite (hf (hu.consult.replay e)) (hf (hu.consult.replay e))
        next e => exact hu.consult.diverged e
        · split
          · exact hf hu.same
          · exact hf hu.atoms.same

theorem canonOut_atomWin {f op cls returns} (h : Canon s) : CanonOut (atomWin s f op cls returns) := by
  refine canonOut_sysInstr h fun c m => ?_
  split
  · exact h
  · refine h.windowAccess fun t w ls ht => ?_
    split
    · trivial
    · split
      · trivial
      · extract_lets step go
        have hg : ∀ {u log}, Canon u → (∀ ws v, Canon v → Canon (log ws v)) → CanonAct (go u log) := by
          intro u log hu hl
          unfold go
          extract_lets r counted b1 u1 old
          have h1 : Canon u1 := hl _ _ hu.same
          split
          · exact h1.same
          · exact h1.same
        split
        · exact hg ht fun _ _ h => h
        · split
          next e => exact ht.consult.diverged e
          next e =>
            have hu := ht.consult.replay e
            split
            · exact h
            · exact hg hu fun _ _ h => h
          · exact hg (log := fun ws u => u.record c.uid .storeOrder op ws 0) ht fun _ _ h => h.same

theorem Canon.addUpdate {c u v} (h : Canon s) : CanonOpt (s.addUpdate c u v) := by
  unfold State.addUpdate
  extract_lets
  split
  · exact canonOpt_some h.same
  · exact h.same.fillNear

theorem Canon.contribute {c now cls aop size arg a} (h : Canon s) : CanonOpt (s.contribute c now cls aop size arg a) := by
  unfold State.contribute
  split
  · exact canonOpt_some h.atomAt
  · exact h.addUpdate

theorem canonOut_redMem {f op cls} (h : Canon s) : CanonOut (redMem s f op cls) := by
  refine canonOut_sysInstr h fun c m => ?_
  split
  · exact h
  · extract_lets r arg s1 now
    have hr : Canon r.1 := h.lanes
    split
    · exact hr.stopped
    · extract_lets digest
      have h1 : Canon s1 := hr.clamp
      have hx : CanonConsult (if c.b.check.isSome = true then s1.consult c .digest op digest else .perform) := by
        split
        · exact h1.consult
        · trivial
      split
      next e => exact hx.diverged e
      next e => exact Canon.same (hx.replay e)
      · split
        · exact h
        next e =>
          have ht := canon_foldlM (fun _ _ h => h.contribute) h1 _ e
          extract_lets u
          have hu : Canon u := canon_ite ht.same ht
          split
          · exact hu.same
          · exact hu.same

theorem Canon.seenJobs {c cls} (h : Canon s) : Canon (s.seenJobs c cls).1 := by
  unfold State.seenJobs
  extract_lets
  split
  · exact h
  · split
    · split
      next e => exact h.takeOwn _ e
      · exact h.stopRun
    · exact h.same

theorem Canon.enterJob {c cls j} (h : Canon s) : Canon (s.enterJob c cls j) := by
  unfold State.enterJob
  extract_lets id r
  have hr : Canon r.1 := h.seenJobs
  split
  · exact hr
  · exact hr.same

theorem canonOut_copyInstr {f n card empty} (h : Canon s) : CanonOut (copyInstr s f n card empty) := by
  unfold copyInstr
  refine canonOut_sysFull h fun c m => ?_
  split
  · trivial
  · extract_lets ws
    split
    · trivial
    · split
      · exact h
      · split
        · exact h
        · split
          · exact h.same
          · exact h.enterJob

theorem canonOut_tileInstr {f dsts srcs k} (h : Canon s) (hk : ∀ c i t, CanonAct (k c i t)) : CanonOut (tileInstr s f dsts srcs k) := by
  refine canonOut_sysInstr h fun c m => ?_
  split
  · split
    · exact h
    · split
      · exact h
      · exact hk _ _ _
  · trivial

theorem Canon.loggedFetch {c} (h : Canon s) : ∀ x ∈ s.loggedFetch c, Canon x.2 := by
  intro x hx
  obtain ⟨y, hy, rfl⟩ := Option.map_eq_some_iff.mp hx
  exact h.takeOwn _ hy

theorem Canon.logFetch {c ord d} (h : Canon s) : Canon (s.logFetch c ord d) := canon_ite h.same h

theorem Canon.queueTile {c i t k f} (h : Canon s) : CanonAct (s.queueTile c i t k f) := h.same

theorem canonOut_accInstr {f op k} (h : Canon s) : CanonOut (accInstr s f op k) := by
  refine canonOut_tileInstr h fun c i t => ?_
  extract_lets off
  split
  · trivial
  · split
    · trivial
    · split
      · trivial
      · exact h.queueTile

theorem Canon.tileWait {c k} (h : Canon s) (hk : CanonAct k) : CanonAct (tileWait s c k) := by
  unfold Machine.tileWait
  split
  · exact h
  · split
    · exact h.same.takeTrap
    · exact hk

theorem Canon.collDiffer {gid num} (h : Canon s) : Canon (s.collDiffer gid num) := h.same.collAbandon

theorem Canon.collEmpty {gid num id} (h : Canon s) : Canon (s.collEmpty gid num id) := by
  unfold State.collEmpty
  split
  · extract_lets stale st s1
    have h1 : Canon s1 := h.same.logColl
    exact h1.same.collEnd
  · exact h

theorem Canon.gateWrites {c x nx d} (h : Canon s) : Canon (Ctx.gateWrites c s x nx d) := canon_ite h.same h.same

theorem Canon.gateSend {c o x nx} (h : Canon s) : CanonAct (Ctx.gateSend c s o x nx) := by
  unfold Ctx.gateSend
  split
  · exact (canon_ite h h.same).trapIn
  · split
    next e => exact h.consult.diverged e
    next e => exact (h.consult.replay e).gateWrites
    · split
      · exact h.same
      · exact h.same

theorem Canon.fire {which} (h : Canon s) : Canon (s.fire which) := canon_foldl (fun _ _ h => h.same) h.same

theorem Canon.fireForSignal {c} (h : Canon s) : Canon (s.fireForSignal c) := by
  unfold State.fireForSignal
  split
  · exact h
  · extract_lets mine own held open_ s1 s2
    have h1 : Canon s1 := h.same
    have h2 : Canon s2 := h1.fire
    exact h2.same

theorem Canon.gateSignal {c o x nx} (h : Canon s) : CanonAct (Ctx.gateSignal c s o x nx) := by
  unfold Ctx.gateSignal
  extract_lets wait send r
  have hs : ∀ t, Canon t → CanonAct (send t) := fun _ h => h.gateSend
  have hr : Canon r := canon_ite h.fireForSignal h
  split
  · exact h.afterPublish hs
  · split
    · split
      next e => exact hr.handOver.wait e
      next e => exact hs _ (hr.handOver.round e)
      next e => exact hs _ (hr.handOver.clear e)
    · exact hr.afterPublish hs

theorem canonOut_gateInstr {f op nx ny pair payload pubs} (h : Canon s) : CanonOut (gateInstr s f op nx ny pair payload pubs) := by
  unfold gateInstr
  refine canonOut_sysFull h fun c m => ?_
  split
  · exact h
  · trivial
  · exact h.same.gateWrites
  · exact h.gateSignal
  · extract_lets o
    split
    · trivial
    · split
      · exact h.gateSignal
      · exact h.gateSend

theorem Canon.endHold {bid} (h : Canon s) : Canon (s.endHold bid) := by
  refine canon_foldl (fun t i h => ?_) h
  split
  · exact h
  · split
    · exact h
    · split
      · exact h
      · exact h.trace.same

theorem Canon.orderPreempt {bid trigger} (h : Canon s) : Canon (s.orderPreempt bid trigger) := by
  unfold State.orderPreempt
  split
  · exact h
  · split
    · exact h
    · extract_lets s1
      have h1 : Canon s1 := canon_ite h.endHold h
      exact canon_foldl (fun _ _ h => h.same) h1.same

theorem Canon.orderAll {bids trigger} (h : Canon s) : Canon (s.orderAll bids trigger) := canon_foldl (fun _ _ h => h.orderPreempt) h

theorem Canon.watchdogFront {part} (h : Canon s) : Canon (s.watchdogFront part) := by
  unfold State.watchdogFront
  extract_lets named s1
  have h1 : Canon s1 := canon_foldl (fun _ _ h => h.logError) h
  exact h1.orderAll.same

theorem Canon.escalate {part cl} (h : Canon s) : Canon (s.escalate part cl) := canon_ite h (canon_ite h.same h.same.watchdogFront)

theorem Canon.escalateAll {part} (h : Canon s) : Canon (s.escalateAll part) := by
  unfold State.escalateAll
  extract_lets s1
  have h1 : Canon s1 := canon_foldl (fun _ _ h => h.escalate) h
  exact canon_ite h1.watchdogFront h1

theorem Canon.sysWrite {part vdev n x} (h : Canon s) : Canon (s.sysWrite part vdev n x) := by
  unfold State.sysWrite
  extract_lets
  split
  · exact canon_ite h.same h
  · exact canon_ite h.same h
  · exact canon_ite h.same.escalateAll h
  · exact canon_ite h.same.escalateAll h
  · exact canon_ite h.same h
  · exact canon_ite h.same h
  · exact canon_ite h.same h
  · exact canon_ite h.same h
  · exact canon_ite h.same h

theorem Canon.debugRecord {part r} (h : Canon s) : Canon (s.debugRecord part r) := by
  unfold State.debugRecord
  split
  · exact h
  · exact h.same.pokes

theorem Canon.holdBlock {bid cause bp code pc gidx} (h : Canon s) : Canon (s.holdBlock bid cause bp code pc gidx) := by
  unfold State.holdBlock
  extract_lets
  split
  · exact h
  · refine canon_ite h.same (canon_ite h (canon_foldl (fun t i ht => ?_) h.same))
    split
    · exact ht
    · split
      · exact ht
      · extract_lets r t1
        have h1 : Canon t1 := canon_ite ht.debugRecord ht
        exact h1.trace.same

theorem Canon.settleBlocks (h : Canon s) : Canon s.settleBlocks := canon_foldl (fun _ _ h => h.settleBlock) h

theorem Canon.publishedGroup {uid} (h : Canon s) : Canon (s.publishedGroup uid) := by
  unfold State.publishedGroup
  split
  · exact h
  · split
    · exact h.leave
    · exact canon_ite h h.afterLeaving
    · exact h
    · exact h

theorem Canon.publishedGroups (h : Canon s) : Canon s.publishedGroups := canon_foldl (fun _ _ h => h.publishedGroup) h

theorem Canon.closeLine {part n puts upds line} (h : Canon s) : Canon (s.closeLine part n puts upds line) := by
  unfold State.closeLine
  dsimp only
  have h1 := h.keepBase (line := line)
  exact canon_ite (Canon.notePoison h1.writeMem) h1.writeMem

theorem Canon.closeLines {part} (h : Canon s) : Canon (s.closeLines part).1 := by
  unfold State.closeLines
  extract_lets n mine upds open_ priv touched lines s1 s2 s3
  have h2 : Canon s2 := canon_foldl (fun _ _ h => h.closeLine) h.same
  have h3 : Canon s3 := canon_foldl (fun _ _ h => h.same) h2
  exact h3.same

theorem Canon.fillAll {part full ls} (h : Canon s) : CanonOpt (s.fillAll part full ls) := canon_foldlM (fun _ _ h => h.fillHome) h

theorem Canon.closeRound {part} (h : Canon s) : CanonOpt (s.closeRound part) := h.closeLines.fillAll

theorem Canon.frontRead {part va n} (h : Canon s) : Canon (s.frontRead part va n).1 := by
  unfold State.frontRead
  extract_lets r
  have hr : Canon r.1 := h.translate
  split <;> exact hr

theorem Canon.hostSource {part ps} (h : Canon s) : Canon (s.hostSource part ps).1 := by
  induction ps generalizing s with
  | nil => exact h
  | cons x ps ih =>
    obtain ⟨va, k⟩ := x
    unfold State.hostSource
    extract_lets r
    have hr : Canon r.1 := h.frontRead
    split
    · exact ih hr
    · exact hr
    · exact hr

theorem Canon.hostWriteLine {pa bs} (h : Canon s) : Canon (s.hostWriteLine pa bs) := by
  unfold State.hostWriteLine
  extract_lets line
  split
  · exact canon_ite (Canon.same (h.writeMem (t := { s with mem := _ }))) h.writeMem
  · exact canon_foldl (fun _ _ h => h.same) h

theorem canon_fold {α β : Type} {p : β → State} {f : β → α → β} {l : List α} {b : β} (hf : ∀ b a, Canon (p b) → Canon (p (f b a)))
    (h : Canon (p b)) : Canon (p (l.foldl f b)) := by
  induction l generalizing b with
  | nil => exact h
  | cons a l ih => exact ih (hf _ _ h)

theorem HostCopy.canon_piece {x : HostCopy} {part va bs} (h : Canon x.s) : Canon (x.piece part va bs).s := by
  unfold HostCopy.piece
  split
  · exact h
  · extract_lets core r
    have hr : Canon r.1 := h.translate
    split
    · split
      · exact hr
      · exact hr.hostWriteLine
    · exact hr.bounceLine
    · exact hr
    · exact hr

theorem Canon.performHostCopy {id j} (h : Canon s) : Canon (s.performHostCopy id j) := by
  unfold State.performHostCopy
  extract_lets v src parts x round
  have hs : Canon src.1 := h.hostSource
  split
  · exact hs.requestPage
  · have hx : Canon x.s := canon_fold (p := HostCopy.s) (fun _ _ h => HostCopy.canon_piece h) hs
    exact canon_ite hs hx.same
end Sys2Proof.Machine
end

section
/-! PROOFS. Canonical memory, part 4: jobs and tiles, packets, launches and blocks, pages, gates of servers, redundant execution, errors of the silicon, starts and views, and what a step does before and after it issues. -/

set_option Elab.async false

namespace Sys2Proof.Machine
open Sys2Proof
variable {s t : State}

theorem Got.canon_window {g : Got} {c j n w off len} (h : Canon g.s) : Canon (g.window c j n w off len).s := by
  unfold Got.window
  extract_lets g1 b
  have h1 : Canon g1.s := Got.canon_fill h
  split
  · exact h1
  · refine canon_fold (p := Got.s) (fun g p hg => ?_) h1
    split
    · exact hg.same
    · exact hg

theorem Got.canon_peer {g : Got} {c j a pa k} (hs : Canon s) : Canon (g.peer c j s a pa k).s := by
  unfold Got.peer
  extract_lets name now fits own
  split
  next e t hx =>
    have ht : Canon t := by
      rcases Option.or_eq_some_iff.mp hx with ho | ⟨-, ho⟩
      · obtain ⟨y, -, hy⟩ := Option.map_eq_some_iff.mp ho
        cases hy
        exact hs
      · split at ho
        · exact hs.takeOwn _ ho
        · contradiction
    exact ht
  · split
    · exact hs.stopRun
    · split
      · exact hs.same
      · split
        · exact hs.same
        · exact canon_ite hs.same hs

theorem Got.canon_line {g : Got} {c j va k} (h : Canon g.s) : Canon (g.line c j va k).s := by
  unfold Got.line
  split
  · exact h
  · extract_lets a r
    have hr : Canon r.1 := h.translate
    split
    · split
      · split
        · exact hr.same
        · exact Got.canon_peer hr
      · split
        · exact hr.same
        next e =>
          have ht := hr.touchL2 _ e
          dsimp only
          split
          · exact ht.same
          · exact ht
    · exact hr.same
    · exact hr.same
    · exact hr.requestPage

theorem Got.canon_global {g : Got} {c j va n} (h : Canon g.s) : Canon (g.global c j va n).s :=
  canon_fold (p := Got.s) (fun _ _ h => Got.canon_line h) h

theorem Got.canon_row {g : Got} {c j i idx} (h : Canon g.s) : Canon (g.row c j i idx).s := by
  unfold Got.row
  extract_lets row r
  have hr : Canon r.s := Got.canon_global h
  split
  · exact h
  · split
    · exact h
    · split
      · exact h.same
      · split
        · exact hr
        · split
          · exact hr
          · exact hr.same

theorem Got.canon_source {j c} (h : Canon s) : Canon (Job.source j s c).s := by
  unfold Job.source
  extract_lets g v
  have hg : Canon g.s := h.same
  split
  · split
    · exact hg
    · extract_lets idx
      have hi : Canon idx.s := Got.canon_window hg
      split
      · exact hi
      · exact canon_fold (p := Got.s) (fun _ _ h => Got.canon_row h) hi
  · split
    · exact Got.canon_window hg
    · exact Got.canon_global hg

theorem Put.canon_piece {p : Put} {c j n va bs} (h : Canon p.s) : Canon (p.piece c j n va bs).s := by
  unfold Put.piece
  extract_lets a r m d bad
  have hr : Canon r.1 := h.translate
  split
  · split
    · exact hr
    · exact hr.addTerms
  · exact hr.addTerms.bounceFor
  · exact hr
  · exact hr

theorem Canon.jobGlobal {c j va bs} (h : Canon s) : Canon (s.jobGlobal c j va bs).1 := by
  unfold State.jobGlobal
  extract_lets name now taken n p item s1 s2 s3
  have ht : ∀ x ∈ taken, Canon x.2 := by
    unfold taken
    split
    · exact h.takeOwn
    · rintro _ ⟨⟩
  have hp : Canon p.s := canon_fold (p := Put.s) (fun _ _ h => Put.canon_piece h) (canon_elim ht h)
  have h1 : Canon s1 := canon_foldl (fun _ _ h => canon_ite h.absorb h.same) hp
  have h2 : Canon s2 := h1.same
  have h3 : Canon s3 := canon_ite h2.same h2
  split
  · exact h.stopRun
  · exact h3.noteLines

theorem Canon.performCopy {id j c} (h : Canon s) : Canon (s.performCopy id j c) := by
  unfold State.performCopy
  extract_lets v gather got n off
  have hg : Canon got.s := Got.canon_source h
  refine canon_ite hg ?_
  split
  · extract_lets filled s1 s2
    have hf : Canon filled.s := Got.canon_fill hg
    have h1 : Canon s1 := hf.same
    have h2 : Canon s2 := h1.jobCredit
    exact canon_ite hf h2.jobFault.same
  · exact canon_ite h (Canon.same (Canon.jobFault hg.jobGlobal))

theorem Canon.performLoad {id j c va fb} (h : Canon s) : Canon (s.performLoad id j c va fb) := by
  unfold State.performLoad
  extract_lets n got bs _ s1
  have hg : Canon got.s := Got.canon_global h.same
  have h1 : Canon s1 := hg.same
  exact canon_ite hg h1.jobFault.same

theorem Canon.collReplay {id j c} (h : Canon s) : Canon (s.collReplay id j c) := by
  unfold State.collReplay
  extract_lets got
  have hg : Canon got.s := Got.canon_global h
  refine canon_ite hg ?_
  split
  · exact h
  next e =>
    have h0 := hg.takeOwn _ e
    exact canon_ite h0.stopRun (canon_ite h0.escaped (canon_ite h0.same.collEnd h0.jobGlobal.same))

theorem Canon.collFinish {id j c} (h : Canon s) : Canon (s.collFinish id j c) := by
  unfold State.collFinish
  extract_lets gid num v
  split
  · exact h
  · refine canon_ite h (canon_ite h ?_)
    extract_lets hj s1 s2
    have h1 : Canon s1 := h.jobGlobal.jobFault.logColl
    exact h1.same

theorem Canon.collTake {id j c} (h : Canon s) : Canon (s.collTake id j c) := by
  unfold State.collTake
  extract_lets gid num got digest s0
  have hg : Canon got.s := Got.canon_global h
  have h0 : Canon s0 := hg.jobFault
  refine canon_ite hg ?_
  split
  · exact h0
  · exact canon_ite h0.same.collAbandon h0.same

theorem Canon.performColl {id j c} (h : Canon s) : Canon (s.performColl id j c) := by
  refine canon_ite h.collReplay ?_
  split
  · exact h
  · exact canon_ite h.collFinish (canon_ite h h.collTake)

theorem Canon.endCopy {id j} (h : Canon s) : Canon (s.endCopy id j) := h.jobCredit.same

theorem Canon.flushRecords {part queue fuel} (h : Canon s) : Canon (s.flushRecords part queue fuel) := by
  induction fuel generalizing s with
  | zero => exact h
  | succ n ih =>
    unfold State.flushRecords
    split
    · exact h
    · split
      · exact h
      · split
        · exact h
        · extract_lets c size full s1 q1
          have h1 : Canon s1 := canon_ite h.poke.poke h
          exact ih h1.same

theorem Canon.freeCode (h : Canon s) : Canon s.freeCode := h.same
theorem Canon.jobOver {id j} (h : Canon s) : Canon (s.jobOver id j) := h.same
theorem Canon.decided {key} (h : Canon s) : Canon (s.decided key) := h.same
theorem Canon.adopt {k kind seg} (h : Canon s) : Canon (s.adopt k kind seg) := h.same
theorem Canon.dropLayer {k kind seg above} (h : Canon s) : Canon (s.dropLayer k kind seg above) := h.same

theorem Canon.completePacket {part queue n r} (h : Canon s) : Canon (s.completePacket part queue n r) := by
  unfold State.completePacket
  split
  · exact h.same
  · exact h.same.flushRecords.freeCode

theorem Canon.endHostCopy {id j} (h : Canon s) : Canon (s.endHostCopy id j) := h.same.completePacket

theorem Canon.tileOver {i t k fault} (h : Canon s) : Canon (s.tileOver i t k fault) := by
  unfold State.tileOver
  extract_lets s1 _ s2
  have h1 : Canon s1 := h.same
  have h2 : Canon s2 := by
    unfold s2
    split
    · exact h1.jobFault
    · exact h1
  exact h2.same

theorem Canon.engineFill {c blocks n wins lines} (h : Canon s) : Canon (s.engineFill c blocks n wins lines).s := by
  refine canon_fold (p := EngineRead.s) (fun r x hr => ?_) h
  split
  · exact hr
  · split
    · exact hr
    · extract_lets f
      have hf : Canon f.1 := hr.fillLines
      split
      · exact hf
      · exact hf
      · exact hf
      · exact hf.requestPage
      · exact hf
      · exact hf

theorem Canon.windowed {c i t k win rs act after} (h : Canon s) (ha : ∀ u x, Canon u → Canon (after u x)) : Canon (s.windowed c i t k win rs act after) := by
  unfold State.windowed
  extract_lets lines r bad
  have hr : Canon r.s := h.engineFill
  exact canon_ite hr (canon_ite hr.same.tileOver (ha _ _ hr))

theorem Canon.stepMma {i t k c u p} (h : Canon s) : Canon (s.stepMma i t k c u p) :=
  canon_ite h.tileOver (h.windowed fun _ _ h => canon_ite h.tileOver h.same)

theorem Canon.doAccst {t k uid} (h : Canon s) : Canon (s.doAccst t k uid) := canon_foldl (fun _ _ h => h.same) h

theorem Canon.runTile {i t k c} (h : Canon s) : Canon (s.runTile i t k c) := by
  unfold State.runTile
  extract_lets v
  split
  · split
    · exact h.stepMma
    · exact h
  · exact h.tileOver
  · exact h.windowed fun _ _ h => h.tileOver
  · exact canon_ite h.engineFill h.engineFill.doAccst.tileOver
  · exact canon_ite h h.tileOver
  · exact h.tileOver

theorem Canon.fallBack {id j c} (h : Canon s) : Canon (s.fallBack id j c) := h.same.logFetch

theorem Canon.landed {id j c} (h : Canon s) : CanonOpt (s.landed id j c) := by
  unfold State.landed
  extract_lets n got _ s1 s2
  have hg : Canon got.s := Got.canon_global h
  have h1 : Canon s1 := hg.same
  have h2 : Canon s2 := canon_ite h1 h1.same.logFetch
  split
  · rintro _ ⟨⟩
  · exact canonOpt_some h2.same

theorem Canon.takePacket {part queue q n slot wants} (h : Canon s) : Canon (s.takePacket part queue q n slot wants) := h.poke.poke.same

theorem Canon.badPacket {part queue q n slot bs} (h : Canon s) : Canon (s.badPacket part queue q n slot bs) := h.takePacket.completePacket

theorem Canon.takeIdent {part queue q} (h : Canon s) : Canon (s.takeIdent part queue q).1 := by
  unfold State.takeIdent
  split
  · exact h
  · exact h.same

theorem Canon.readHeader {part va} (h : Canon s) : Canon (s.readHeader part va).1 := by
  unfold State.readHeader
  extract_lets a b
  have ha : Canon a.1 := h.frontRead
  have hb : Canon b.1 := ha.frontRead
  split
  · split
    · exact hb
    · exact hb
  · exact ha

theorem Canon.testLaunch {id} (h : Canon s) : Canon (s.testLaunch id) := by
  unfold State.testLaunch
  split
  · exact h
  · exact canon_ite h (canon_ite h.endLaunch h.same)

theorem Canon.submit {part queue n tag ident wants host head} (h : Canon s) : Canon (s.submit part queue n tag ident wants host head) := by
  unfold State.submit
  extract_lets refuse
  have hr : ∀ {t a b}, Canon t → Canon (refuse t a b) := fun h => h.same.completePacket
  split
  · exact hr h
  · exact canon_ite (hr h) (canon_ite (hr h) h.same.testLaunch)

theorem Canon.recordLaunch {id l status code} (h : Canon s) : Canon (s.recordLaunch id l status code) := by
  unfold State.recordLaunch
  extract_lets mine kilns s1 s2
  have h2 : Canon s2 := h.same.completePacket
  exact canon_ite h2 h2.same

theorem Canon.admitOne {lid l index p check set} (h : Canon s) : Canon (s.admitOne lid l index p check set).1 := by
  unfold State.admitOne
  extract_lets bid work _ b s1 s2
  have h2 : Canon s2 := canon_foldl (fun _ _ h => h.same) h.same
  exact h2.same

theorem Canon.enterGroups {key l bid} (h : Canon s) : Canon (s.enterGroups key l bid) := by
  refine canon_foldl (fun t r ht => ?_) h
  split
  · exact ht
  · exact ht.same

theorem Canon.admitSet {lid l cluster p} (h : Canon s) : Canon (s.admitSet lid l cluster p) := by
  unfold State.admitSet
  extract_lets index checked set k s0 r anchor seqr s1 s2
  have hr : Canon r.1 := canon_fold (p := Prod.fst) (fun _ _ h => h.admitOne) h.same
  have h2 : Canon s2 := hr.same
  exact canon_ite (canon_foldl (fun _ _ h => h.enterGroups) h2.same) h2

theorem Canon.admitBlock {lid l p} (h : Canon s) : Canon (s.admitBlock lid l p) := by
  unfold State.admitBlock
  extract_lets index checked k s0 r s1
  have h0 : Canon s0 := canon_ite h.same h
  have h1 : Canon s1 := h0.admitOne.same
  exact canon_ite h1.same.enterGroups h1

theorem Canon.restartSeq {t l} (h : Canon s) : Canon (s.restartSeq t l) := by
  unfold State.restartSeq
  split
  · exact h.same
  · exact h

theorem Canon.moveUnit {bid l cl p f} (h : Canon s) (hf : ∀ t b q, Canon t → Canon (f t b l q)) : Canon (s.moveUnit bid l cl p f) := by
  unfold State.moveUnit
  split
  · exact hf _ _ _ h
  · extract_lets s1
    have h1 : Canon s1 := canon_foldl (fun _ _ h => hf _ _ _ h) h
    exact h1.same

theorem Canon.moveBlock {bid l p} (h : Canon s) : Canon (s.moveBlock bid l p) := by
  unfold State.moveBlock
  extract_lets mine life _ off dealt
  have hd : Canon dealt := canon_foldl (fun _ _ h => h.same) h.same
  exact hd.same

theorem Canon.restartGroup {uid g b l} (h : Canon s) : Canon (s.restartGroup uid g b l) := by
  unfold State.restartGroup
  extract_lets c entry first e0 e now free
  have hf : Canon free := h.same
  split
  · exact hf.same
  · split
    · exact hf.same
    · exact canon_ite hf.same hf.same

theorem Canon.restartBlock {bid l p} (h : Canon s) : Canon (s.restartBlock bid l p) := by
  unfold State.restartBlock
  extract_lets s1 gs
  have h1 : Canon s1 := h.moveBlock.same
  split
  · exact h1
  · extract_lets wins b s2
    have hg : Canon (gs.foldl (fun s r => s.restartGroup r.1 r.2 b l) s2) := canon_foldl (fun _ _ h => h.restartGroup) h1.same
    exact hg.same

theorem Canon.settleFetches {bid} (h : Canon s) : Canon (s.settleFetches bid) := by
  refine canon_foldl (fun t id ht => ?_) h
  split
  · exact ht
  · split
    · split
      · exact ht.fallBack
      · exact ht
    · exact ht

theorem Canon.captureBlock {bid trigger} (h : Canon s) : Canon (s.captureBlock bid trigger) := by
  unfold State.captureBlock
  split
  · exact h
  · split
    case h_3 => exact h.same
    all_goals
      extract_lets s1 s2 s3
      have h1 : Canon s1 := h.trace
      have h3 : Canon s3 := h1.same
      exact canon_ite h3.same h3.saveIfDone

theorem Canon.resumeBlock {bid l p} (h : Canon s) : Canon (s.resumeBlock bid l p) := by
  unfold State.resumeBlock
  extract_lets s1 s2 gs s3 isOver s4 b s5
  have h1 : Canon s1 := h.moveBlock
  have h2 : Canon s2 := canon_ite h1 h1.same
  have h3 : Canon s3 := canon_foldl (fun _ _ h => h.same) h2
  have h5 : Canon s5 := h3.same
  split
  · exact h5.same.holdBlock
  · exact h5

theorem Canon.backBlock {bid l p} (h : Canon s) : Canon (s.backBlock bid l p) := by
  unfold State.backBlock
  split
  · exact h.resumeBlock
  · exact h.restartBlock
  · exact h.moveBlock

theorem Canon.postPages {part fuel} (h : Canon s) : Canon (s.postPages part fuel) := by
  induction fuel generalizing s with
  | zero => exact h
  | succ n ih =>
    unfold State.postPages
    extract_lets
    split
    · exact canon_ite (ih h.same.poke) h
    · exact h

theorem Canon.answerPage {part seq declined} (h : Canon s) : Canon (s.answerPage part seq declined) := by
  unfold State.answerPage
  split
  · exact h.same
  · extract_lets s1 mine s2
    have h2 : Canon s2 := canon_foldl (fun _ _ h => h.same) h.same
    exact h2.postPages

theorem Canon.startReclaim {part cl} (h : Canon s) : Canon (s.startReclaim part cl) := by
  unfold State.startReclaim
  extract_lets on s1 bids s2
  have h1 : Canon s1 := canon_foldl (fun _ _ h => h.same) h
  have h2 : Canon s2 := h1.orderAll
  exact canon_ite h2 h2.same

theorem Canon.writeBack {part} (h : Canon s) : Canon (s.writeBack part) := by
  unfold State.writeBack
  extract_lets s1 held own
  have h1 : Canon s1 := canon_ite h.closeLines h
  exact h1.same

theorem Canon.reduce {part gone off} (h : Canon s) : Canon (s.reduce part gone off) :=
  Canon.same (s := (s.dropPrivate fun h => h.part == part).writeBack part) h.same.writeBack

theorem Canon.gainRange {part e} (h : Canon s) : Canon (s.gainRange part e) := canon_foldl (fun _ _ h => h.same) h

theorem Canon.throughVf {part} (h : Canon s) (ht : Canon t) : CanonOut (s.throughVf part t) := canon_ite ht h.same

theorem Canon.hostWrite {pa bs} (h : Canon s) : Canon (s.hostWrite pa bs) :=
  canon_foldl (fun _ _ h => canon_ite h.dropCodeWrite h.hostWriteLine) h

theorem Canon.testGates (h : Canon s) : Canon s.testGates := canon_foldl (fun _ _ h => h.testLaunch) h

theorem Canon.answerGate {id o p} (h : Canon s) : Canon (s.answerGate id o p) := by
  unfold State.answerGate
  extract_lets s1
  have h1 : Canon s1 := h.same
  split
  · exact h1
  · refine canon_ite h1.same ?_
    split
    · exact h1.same
    all_goals exact h1

theorem Canon.denyGate {id o} (h : Canon s) : Canon (s.denyGate id o) := h.answerGate

theorem Canon.finishGate {id o status before imports} (h : Canon s) : Canon (s.finishGate id o status before imports) := by
  unfold State.finishGate
  split
  · exact h
  · exact h.answerGate

theorem Canon.serveWaiters {gate} (h : Canon s) : Canon (s.serveWaiters gate) := by
  unfold State.serveWaiters
  split
  · exact h
  · exact canon_foldl (fun _ _ h => h.finishGate) h

theorem Canon.signal {gate part addend} (h : Canon s) : Canon (s.signal gate part addend) := by
  unfold State.signal
  split
  · exact h
  · exact h.same

theorem Canon.drainGate {gate fuel} (h : Canon s) : Canon (s.drainGate gate fuel) := by
  induction fuel generalizing s with
  | zero => exact h
  | succ n ih =>
    unfold State.drainGate
    split
    · exact h
    · split
      · exact h
      · exact canon_ite h (ih h.same.signal.serveWaiters.testGates)

theorem Canon.holdGate {id o} (h : Canon s) : Canon (s.holdGate id o) := canon_ite h.same h.same

theorem Canon.performGate {id} (h : Canon s) : Canon (s.performGate id) := by
  unfold State.performGate
  split
  · exact h
  · split
    · exact canon_ite h h.denyGate
    · refine canon_ite h.denyGate (canon_ite h ?_)
      split
      · exact canon_ite (canon_ite h.holdGate h.same.finishGate) (canon_ite h.same.finishGate h.signal.finishGate.serveWaiters.testGates)
      · exact canon_ite h.holdGate h.finishGate
      · exact canon_ite h.finishGate (canon_ite h.finishGate h.finishGate)
      · exact canon_ite h.holdGate (canon_ite h.same h).finishGate
      · exact h.finishGate

theorem Canon.retryGate {gate} (h : Canon s) : Canon (s.retryGate gate) := canon_foldl (fun _ _ h => h.performGate) h

theorem Canon.thawGate {gate} (h : Canon s) : Canon (s.thawGate gate) := by
  unfold State.thawGate
  split
  · exact h
  · extract_lets s1
    have h1 : Canon s1 := h.drainGate
    split
    · exact canon_ite h1.retryGate h1
    · exact h1

theorem Canon.chargeCores (h : Canon s) : Canon s.chargeCores := canon_foldl (fun _ _ h => h.same) h.same

theorem Canon.startRunBlock {ch k kind i l set p} (h : Canon s) : Canon (s.startRunBlock ch k kind i l set p).1 := by
  unfold State.startRunBlock
  extract_lets bid index lo mine wins _ b s1 s2
  have h2 : Canon s2 := by
    refine canon_foldl (fun t x ht => ?_) h.same
    split
    · exact ht
    · exact ht.same
  exact h2.same

theorem Canon.startRun {key kind cl ch l p} (h : Canon s) : Canon (s.startRun key kind cl ch l p) := by
  unfold State.startRun
  extract_lets k n near s0 cores _ run r _ set r' anchor seqr s1
  have h0 : Canon s0 := canon_ite h.count h
  refine canon_ite h0.startRunBlock.same ?_
  have hr : Canon r'.1 := canon_fold (p := Prod.fst) (fun _ _ h => h.startRunBlock) h0.same
  have h1 : Canon s1 := by
    unfold s1
    split
    · exact hr.same
    · exact hr
  exact h1.same

theorem Canon.tryRun {key kinds} (h : Canon s) : Canon (s.tryRun key kinds) := by
  unfold State.tryRun
  split
  · exact h
  · split
    · exact h
    · split
      · exact canon_ite h.startRun h
      · exact h

theorem Canon.endRun {r} (h : Canon s) : Canon (s.endRun r) := by
  refine canon_ite h ?_
  exact Canon.same (canon_foldl (l := s.unit r.block) (f := fun s i => s.updBlock i fun b => { b with life := .ended, hold := none, quiesce := none })
    (fun _ _ h => h.same) (Canon.same h (t := { s with
          groups := s.groups.map fun _ g => if (s.unit r.block).contains g.block then { g with life := .ended, frags := Table.empty } else g,
          buffer := s.buffer.filter fun b => !((s.groups.filter fun _ g => (s.unit r.block).contains g.block).keys).contains b.group,
          updates := s.updates.filter fun u => !((s.groups.filter fun _ g => (s.unit r.block).contains g.block).keys).contains u.group,
          jobs := s.jobs.filter fun _ j => !(s.unit r.block).contains j.block })))

theorem Canon.fireRun {k kind seg} (h : Canon s) : Canon (s.fireRun k kind seg) := h.fire

theorem Canon.firstWins {key ch l} (h : Canon s) : Canon (s.firstWins key ch l) := by
  unfold State.firstWins
  extract_lets k win s1 s2 s3
  have h1 : Canon s1 := canon_foldl (fun _ _ h => h.endRun) h
  have h2 : Canon s2 := h1.same
  have h3 : Canon s3 := canon_ite h2.dropLayer h2.dropLayer.fireRun.adopt
  exact h3.decided

theorem Canon.passChecks {cores} (h : Canon s) : Canon (s.passChecks cores) :=
  canon_foldl (fun _ _ h => canon_ite h (canon_ite h.same h.same)) h

theorem Canon.checkEntry {ty code ch l lines op} (h : Canon s) : Canon (s.checkEntry ty code ch l lines op) :=
  canon_ite h.logError (canon_foldl (fun _ _ h => h.logError) h)

theorem Canon.chargeRun {cores} (h : Canon s) : Canon (s.chargeRun cores) := canon_foldl (fun _ _ h => h.same) h

theorem Canon.endChecked {code counter ch l lines op} (h : Canon s) : Canon (s.endChecked code counter ch l lines op) :=
  h.checkEntry.count.endLaunch

theorem Canon.restartFrom {k seg ch ends} (h : Canon s) : Canon (s.restartFrom k seg ch ends) := by
  unfold State.restartFrom
  extract_lets bid us part later s1 s2 uids _ back next
  split
  · exact h
  · refine canon_ite h ?_
    extract_lets s3 s4 s5 queue
    have h1 : Canon s1 := canon_foldl (fun _ _ h => canon_foldl (fun _ _ h => h.endRun) h) h
    have h2 : Canon s2 := canon_foldl (fun _ _ h => h.same) h1
    have h4 : Canon s4 := h2.same
    have h5 : Canon s5 := canon_ite h4 h4.same
    have h6 : Canon (us.foldl (fun s i => s.updBlock i queue) s5) := canon_foldl (fun _ _ h => h.same) h5
    exact h6.same

theorem Canon.keepWins {key ch l op} (h : Canon s) : Canon (s.keepWins key ch l op) := by
  unfold State.keepWins
  extract_lets k s1 s2 lines
  have h1 : Canon s1 := canon_foldl (fun _ _ h => h.same) h
  have h2 : Canon s2 := h1.fireRun.same
  exact canon_ite h2.endChecked h2.restartFrom

theorem Canon.kiln {key ch l} (h : Canon s) : Canon (s.kiln key ch l) := by
  unfold State.kiln
  extract_lets p q k inj own _ s1 s2 s3 s4
  have h2 : Canon s2 := h.firstWins.count.passChecks
  have h3 : Canon s3 := h.count.passChecks
  have h4 : Canon s4 := canon_ite h h.checkEntry.count
  exact canon_ite h.firstWins.count (canon_ite h (canon_ite h.firstWins.count.passChecks (canon_ite h.same.checkEntry.count (canon_ite h
    (canon_ite (canon_ite h2 h2.chargeRun) (canon_ite (canon_ite h3 h3.chargeRun).keepWins h4.same.endChecked))))))

theorem Canon.setAside {core scan} (h : Canon s) : Canon (s.setAside core scan) := h.same.logError

theorem Canon.disregardRun {key ch core kind} (h : Canon s) : Canon (s.disregardRun key ch core kind) := by
  unfold State.disregardRun
  extract_lets k r _ again
  have ha : ∀ {t n}, Canon t → Canon (again t n) := fun h => h.same
  refine canon_ite h ?_
  split
  · exact h
  · exact h
  · exact canon_ite h.restartFrom (ha h.endRun.same)
  · exact canon_ite (canon_ite h (ha h)) (ha h.endRun.same)
  · exact canon_ite (canon_ite h (ha h)) (ha h.endRun.same)

theorem Canon.disregard {core} (h : Canon s) : Canon (s.disregard core) := by
  refine canon_foldl (fun t n ht => ?_) h
  split
  · exact ht
  · refine canon_foldl (fun u kind hu => ?_) ht
    split
    · exact canon_ite hu hu.disregardRun
    · exact hu

theorem Canon.suspect {core} (h : Canon s) : Canon (s.suspect core) := (canon_ite h.same h.same).disregard

theorem Canon.demerit {core} (h : Canon s) : Canon (s.demerit core) := canon_ite h.same h.same.setAside

theorem Canon.siliconError {ty code unit counter core line owner} (h : Canon s) : Canon (s.siliconError ty code unit counter core line owner) :=
  h.count.logError

theorem Canon.dramCorrected {line} (h : Canon s) : Canon (s.dramCorrected line) := h.siliconError.same

theorem Canon.dropSlice {core} (h : Canon s) : Canon (s.dropSlice core) := by
  unfold State.dropSlice
  extract_lets held parts hit s1 s2 s3 mates
  have h1 : Canon s1 := canon_foldl (fun _ _ h => h.orderAll) h
  have h3 : Canon s3 := h1.same.logError
  exact canon_ite h3 (canon_foldl (fun _ _ h => h.setAside) h3)

theorem Canon.poisonHome {line} (h : Canon s) : Canon (s.poisonHome line) := by
  unfold State.poisonHome
  extract_lets s1
  have h1 : Canon s1 := h.notePoison
  split
  · exact h1
  · exact h1.same

theorem Canon.poisonSeq {set} (h : Canon s) : Canon (s.poisonSeq set) := by
  unfold State.poisonSeq
  split
  · exact h
  · split
    · exact h
    · exact h.same

theorem Canon.loseJob {id j} (h : Canon s) : Canon (s.loseJob id j) := by
  unfold State.loseJob
  extract_lets cls s1
  split
  · exact h.endHostCopy
  · exact h.same.jobFault.jobOver
  all_goals exact h.jobFault.jobOver

theorem Canon.contain {site} (h : Canon s) : Canon (s.contain site) := by
  cases site with
  | cleanLine line => exact h.same
  | dirtyVersion line => exact h.poisonHome
  | bufferEntry group line => exact canon_ite h.same h
  | pendingLine block line => exact h.same
  | updateCopy group line => exact canon_ite h.same h
  | privateLayer check run =>
    have h1 : Canon ((s.privateBank check run).elim s fun core => s.testBank core 2) := by
      cases s.privateBank check run with
      | none => exact h
      | some core => exact h.same
    exact h1.same
  | vreg group reg lane => exact h.same
  | sreg group reg => exact h.same
  | storeWord block word => exact h.same
  | tileStorage set => exact h.poisonSeq
  | blockControl block =>
    dsimp only [State.contain]
    split
    · exact h.endLaunch
    · exact h
  | jobEntry job =>
    dsimp only [State.contain]
    split
    · exact h.loseJob
    · exact h
  | gateEntry gate => exact canon_ite h (Canon.testGates (canon_foldl (fun _ _ h => h.denyGate) h.same))
  | expertEntry part expert => exact h.same
  | replayLog check => exact h.same
  | dram line dirty => exact canon_ite h.poisonHome h
  | tlb core shared part vdev page => exact canon_ite h.same h.same

theorem Canon.collPropose {gid} (h : Canon s) : Canon (s.collPropose gid) := by
  unfold State.collPropose
  split
  · exact h
  · exact canon_ite h (canon_ite h.same.collLeave h.same.collTryCommit)

theorem Canon.collRejoin {gid} (h : Canon s) : Canon (s.collRejoin gid) := by
  unfold State.collRejoin
  split
  · exact h
  · split
    · exact h
    · exact canon_ite h.collPropose h

theorem Canon.collSuspect {gid slot} (h : Canon s) : Canon (s.collSuspect gid slot) := by
  unfold State.collSuspect
  split
  · exact h
  · exact canon_ite h h.same.collPropose.collRejoin

theorem Canon.suspectRoute {group op} (h : Canon s) : Canon (s.suspectRoute group op) := by
  unfold State.suspectRoute
  split
  · exact canon_foldl (fun _ _ h => h.collSuspect) h
  · exact h

theorem Canon.losePeerLines {c op} (h : Canon s) : Canon (s.losePeerLines c op) := by
  unfold State.losePeerLines
  extract_lets
  split
  · exact h
  · exact h.same

theorem Memory.wf_filter {m : Memory} (p : Nat × BitVec 8 → Bool) (h : Memory.wf m = true) : Memory.wf (m.filter p) = true := by
  rw [Memory.wf, Bool.and_eq_true, List.all_eq_true] at *
  exact ⟨assocFrom_filter p h.1, fun c hc => h.2 c (List.mem_of_mem_filter hc)⟩

theorem Canon.failScan {old core} (h : Canon s) : Canon (s.failScan old core) := h.same.suspect.setAside

theorem Canon.restarted {cold failing} (h : Canon s) : Canon (s.restarted cold failing) :=
  canon_foldl (fun _ _ h => h.failScan) (Memory.wf_filter (fun c => !isDevice c.1) h)

theorem Canon.startFailed (h : Canon s) : Canon s.startFailed := h.same.count.logError

theorem Canon.start {cold failing ok} (h : Canon s) : Canon (s.start cold failing ok) := canon_ite h.restarted h.startFailed

theorem Canon.collStale {gid num} (h : Canon s) : Canon (s.collStale gid num) := by
  unfold State.collStale
  extract_lets up s1
  have h1 : Canon s1 := h.same
  split
  · exact h1
  · split
    · exact h1.same
    · exact h1.same
    · exact canon_ite h1 h1.same

theorem Canon.releaseBlock {bid} (h : Canon s) : Canon (s.releaseBlock bid) := canon_foldl (fun _ _ h => h.same) h.same

theorem Canon.takeLate {c p} (h : Canon s) : Canon (s.takeLate c p) := by
  unfold State.takeLate
  extract_lets _ g s1 t
  have h1 : Canon s1 := Canon.same (canon_ite (c := c.f.pend = .none) (t := s.dropWaits [c.f.pend]) h h.same)
  have ht : Canon t := canon_ite h1.takeTrap h1.takeTrap
  exact ht.same

theorem Canon.takeLogged {c x} (h : Canon s) : CanonOpt (s.takeLogged c x) := by
  unfold State.takeLogged
  extract_lets s1 from_
  have h1 : Canon s1 := canon_ite h h.same
  split
  · exact canonOpt_some h1.takeTrap
  · split
    · exact canonOpt_some h.takeLate
    · split
      · exact canonOpt_some h1.takeTrap
      · rintro _ ⟨⟩

theorem Canon.boundary {c} (h : Canon s) : CanonOpt (s.boundary c) := by
  unfold State.boundary
  split
  · intro t ht
    obtain ⟨x, -, hx⟩ := Option.bind_eq_some_iff.mp ht
    exact h.takeLogged _ hx
  · split
    · exact canonOpt_some h.takeLate
    · split
      · rintro _ ⟨⟩
      · split
        · exact canonOpt_some h.holdBlock
        · rintro _ ⟨⟩

theorem Canon.noteFetch {c a} (h : Canon s) : Canon (s.noteFetch c a) := by
  unfold State.noteFetch
  split
  · exact canon_ite h.mergeBounce.same h.mergeBounce.same
  · exact h

theorem Canon.enterHeader {c w} (h : Canon s) : Canon (s.enterHeader c w) := by
  unfold State.enterHeader
  extract_lets
  refine canon_ite h.takeTrap ?_
  split
  · exact h.takeTrap
  · exact canon_ite h.same h.same

theorem Canon.issued {p w} (h : Canon s) : Canon (s.issued p w) := by
  unfold State.issued
  extract_lets s1
  have h1 : Canon s1 := by
    unfold s1
    split
    · exact canon_ite h h.same
    · exact h
  exact h1.same

/-- Canonical memory of the state an issue prepares. -/
def CanonPrep : Prep → Prop
  | .done t | .run _ t => Canon t

theorem Canon.elimBarred {c} {o : Option Bar} (h : Canon s) : Canon (o.elim s (Ctx.barred c s)) := by
  cases o with
  | none => exact h
  | some b => exact h.barred

theorem Canon.fetch {p c} (h : Canon s) : CanonPrep (s.fetch p c) := by
  unfold State.fetch
  split
  · split
    · exact h.noteFetch.enterHeader
    · exact h.noteFetch.issued
  · exact h.elimBarred

theorem Canon.noteBreak {c} (h : Canon s) : Canon (s.noteBreak c) := by
  unfold State.noteBreak
  split
  · exact canon_ite h.holdBlock h
  · exact h

theorem Canon.prepare {p} (h : Canon s) : CanonPrep (s.prepare p) := by
  unfold State.prepare
  split
  · exact h
  · split
    · exact h
    · split
      next e => exact h.boundary _ e
      · split
        · exact h
        · exact h.noteBreak.fetch

theorem Canon.afterStep {c} (h : Canon s) : Canon (s.afterStep c) := by
  unfold State.afterStep
  split
  · exact h
  · exact canon_ite h (canon_ite h (Canon.holdBlock (canon_foldl (fun _ _ h => h.same) h)))

theorem Canon.settled {p} (h : Canon t) : Canon (s.settled p t) := by
  unfold State.settled
  split
  · exact h.afterStep
  · exact h

/-- Canonical memory of the state in which an event may begin, or in which it is stopped. -/
def CanonStop : Except State State → Prop
  | .ok t | .error t => Canon t

theorem Canon.before {i} (h : Canon s) : CanonStop (s.before i) := by
  unfold State.before
  split
  case h_2 => split; exacts [h, h.same]
  case h_4 => split; exacts [h.same, h]
  case h_24 => split; exacts [h, h.woken]
  case h_22 | h_23 => exact h.woken
  all_goals exact h.same
end Sys2Proof.Machine
end

section
/-! PROOFS. Canonical memory, part 5: control, system, gate, queue and tile instructions. -/

set_option Elab.async false

namespace Sys2Proof.Machine
open Sys2Proof
variable {s t : State}

theorem canonAct_ite {c : Prop} [Decidable c] {a b : Act} (ha : CanonAct a) (hb : CanonAct b) : CanonAct (if c then a else b) := by
  split
  · exact ha
  · exact hb

theorem canonAct_trap {t} : CanonAct (.trap t) := trivial

theorem canonOut_execBr {f} (h : Canon s) : CanonOut (execBr f s) := canonOut_ctlInstr h fun _ => h.branch

theorem canonOut_execBru {f} (h : Canon s) : CanonOut (execBru f s) := canonOut_ctlInstr h fun _ => h.transfer

theorem canonOut_execJmp {f} (h : Canon s) : CanonOut (execJmp f s) := canonOut_ctlInstr h fun _ => h.transfer

theorem canonOut_execCall {f} (h : Canon s) : CanonOut (execCall f s) :=
  canonOut_ctlInstr h fun _ => canonAct_ite canonAct_trap (h.transfer fun _ h => h.same)

theorem canonOut_execRet {f} (h : Canon s) : CanonOut (execRet f s) := canonOut_ctlInstr h fun _ => h.transfer

theorem canonOut_execBrx {f} (h : Canon s) : CanonOut (execBrx f s) := canonOut_ctlInstr h fun _ => h.branch

theorem canonOut_execExit {f} (h : Canon s) : CanonOut (execExit f s) := by
  refine canonOut_ctlInstr h fun c => canonAct_ite h.transfer (canonAct_ite h.seqExit ?_)
  split
  · split
    · exact h.barred
    · exact Canon.same (s := s.foldRegs c (c.eff f.g)) h.foldRegs
  · split
    · exact h.lastExit
    · exact Canon.same (s := s.foldRegs c (c.eff f.g)) h.foldRegs

theorem canonOut_execTrap {f} (h : Canon s) : CanonOut (execTrap f s) :=
  canonOut_ctlInstr h fun _ => canonAct_ite h.past canonAct_trap

theorem canonOut_execTret {f} (h : Canon s) : CanonOut (execTret f s) := by
  refine canonOut_ctlInstr h fun c => canonAct_ite canonAct_trap (canonAct_ite h.viewLeft (canonAct_ite h.same ?_))
  split
  · exact h.barred
  · exact h.same

theorem canonOut_execPdone {f} (h : Canon s) : CanonOut (execPdone f s) :=
  canonOut_ctlInstr h fun _ => canonAct_ite h.past (canonAct_ite canonAct_trap (canonAct_ite h h.same.saveIfDone))

theorem canonOut_execYield {f} (h : Canon s) : CanonOut (execYield f s) := by
  refine canonOut_sysInstr h fun c m => ?_
  exact Canon.same (canon_ite (c := c.g.seq = true) (t := s.passSlot c.uid c.g [0, 1, 2, 3]) h h.same)

theorem canonOut_execSleep {f} (h : Canon s) : CanonOut (execSleep f s) := by
  refine canonOut_sysInstr h fun c m => ?_
  dsimp only
  split
  · exact h
  · exact h
  · exact canonAct_ite h h.same

theorem canonOut_execNop {f} (h : Canon s) : CanonOut (execNop f s) := canonOut_sysInstr h fun _ _ => h

theorem canonOut_execRmark {f} (h : Canon s) : CanonOut (execRmark f s) :=
  canonOut_sysInstr h fun _ _ => canonAct_ite h (h.afterPublish fun _ h => canon_ite h.foldRegs.nextPart h.foldRegs)

theorem canonOut_execLdw {f} (h : Canon s) : CanonOut (execLdw f s) := by
  refine canonOut_sysInstr h fun c m => canonAct_ite h (h.windowAccess fun t w ls ht => ?_)
  dsimp only
  split
  · trivial
  · exact ht.same

theorem canonOut_execStw {f} (h : Canon s) : CanonOut (execStw f s) :=
  canonOut_sysInstr h fun _ _ => canonAct_ite h (h.windowAccess fun _ _ _ ht => ht.same)

theorem canonOut_execLdf {f} (h : Canon s) : CanonOut (execLdf f s) := by
  refine canonOut_sysInstr h fun c m => h.windowAccess fun t w ls ht => canonAct_ite h ?_
  split
  · trivial
  · exact ht.same

theorem canonOut_execSte {f} (h : Canon s) : CanonOut (execSte f s) :=
  canonOut_sysInstr h fun _ _ => h.windowAccess fun _ _ _ ht => canonAct_ite h ht.same

theorem canonOut_execFefill {f} (h : Canon s) : CanonOut (execFefill f s) := by
  refine canonOut_sysInstr h fun c m => ?_
  extract_lets off len
  split
  · exact h.stopped
  · split
    · exact h.stopped
    · extract_lets r
      have hr : Canon r.1 := h.fillLines
      split
      · exact hr.stopped
      · exact hr.same
      · exact hr.same

theorem canonOut_execFeget {f} (h : Canon s) : CanonOut (execFeget f s) := by
  refine canonOut_sysInstr h fun c m => ?_
  extract_lets off
  split
  · exact h.stopped
  · refine canonAct_ite canonAct_trap (canonAct_ite canonAct_trap ?_)
    extract_lets r
    have hr : Canon r.1 := h.fillLines
    split
    · exact hr.stopped
    · exact hr.same
    · exact hr.same

theorem canonOut_execFillw {f} (h : Canon s) : CanonOut (execFillw f s) := by
  refine canonOut_sysInstr h fun c m => ?_
  extract_lets off len
  split
  · exact h.stopped
  · split
    · exact h.stopped
    · refine canonAct_ite h (canonAct_ite h.same ?_)
      extract_lets r
      have hr : Canon r.1 := h.fillLines
      split
      · exact hr.stopped
      · exact hr.same

theorem canonOut_execFlushw {f} (h : Canon s) : CanonOut (execFlushw f s) := by
  refine canonOut_sysInstr h fun c m => ?_
  extract_lets off len
  split
  · exact h.stopped
  · split
    · exact h.stopped
    · exact canonAct_ite h h.same

theorem canonOut_execPrefetch {f} (h : Canon s) : CanonOut (execPrefetch f s) := canonOut_sysInstr h fun _ _ => h

theorem canonOut_execPub {f} (h : Canon s) : CanonOut (execPub f s) :=
  canonOut_sysInstr h fun _ _ => h.afterPublish fun _ h => h.foldRegs

theorem canonOut_execSnap {f} (h : Canon s) : CanonOut (execSnap f s) := canonOut_sysInstr h fun _ _ => h.snapNow

theorem canonOut_execPhase {f} (h : Canon s) : CanonOut (execPhase f s) :=
  canonOut_sysInstr h fun _ _ => h.afterPublish fun _ h => h.foldRegs.snapNow

theorem canonOut_execFence {f} (h : Canon s) : CanonOut (execFence f s) :=
  canonOut_sysInstr h fun _ _ => canonAct_ite h (canon_ite h.clamp.writeThrough h.clamp)

theorem canonOut_execTsync {f} (h : Canon s) : CanonOut (execTsync f s) := by
  refine canonOut_sysInstr h fun c m => h.tileWait ?_
  split
  · exact h.same.snapNow
  · exact h.snapNow

theorem canonOut_execEcnt {f} (h : Canon s) : CanonOut (execEcnt f s) := by
  refine canonOut_sysInstr h fun c m => canonAct_ite h ?_
  extract_lets ids digest s1
  have h1 : Canon s1 := canon_foldl (fun _ _ h => canon_ite h.same h) h
  have hx : CanonConsult (if c.b.check.isSome = true then s.consult c .digest 0xD8 digest else .perform) := by
    split
    · exact h.consult
    · trivial
  split
  next e => exact hx.diverged e
  next e => exact Canon.same (hx.replay e)
  · have h2 : Canon (if c.b.check.isSome = true then s1.record c.uid .digest 0xD8 [] digest else s1) := canon_ite h1.same h1
    exact h2.same

theorem canonOut_execXstat {f} (h : Canon s) : CanonOut (execXstat f s) := by
  refine canonOut_sysInstr h fun c m => canonAct_ite canonAct_trap (canonAct_ite canonAct_trap (canonAct_ite h ?_))
  extract_lets e v digest put s1
  have hp : ∀ {t v}, Canon t → CanonAct (put t v) := fun h => h.same
  have h1 : Canon s1 := canon_ite h.same h
  split
  next e => exact h.consult.diverged e
  next e => exact hp (h.consult.replay e)
  · exact hp h1.same

theorem canonOut_execCview {f} (h : Canon s) : CanonOut (execCview f s) := by
  refine canonOut_sysInstr h fun c m => ?_
  extract_lets gid digest put
  have hp : ∀ {t v}, Canon t → CanonAct (put t v) := fun h => h.same
  split
  · trivial
  · extract_lets now
    split
    · exact hp h.same
    next e => exact hp (h.consult.replay e)
    next e => exact h.consult.diverged e

theorem canonOut_execCpolicy {f} (h : Canon s) : CanonOut (execCpolicy f s) := canonOut_sysInstr h fun _ _ => h.same

theorem canonOut_execCack {f} (h : Canon s) : CanonOut (execCack f s) := by
  refine canonOut_sysInstr h fun c m => canonAct_ite canonAct_trap ?_
  extract_lets k digest s1
  split
  next e => exact h.consult.diverged e
  next e => exact h.consult.replay e
  · exact canon_foldl (s := s1) (fun _ _ h => h.collChoose) h.same

theorem canonOut_execCjoin {f} (h : Canon s) : CanonOut (execCjoin f s) := by
  refine canonOut_sysInstr h fun c m => ?_
  extract_lets w gid dig digest s1 answer s2
  have ha : ∀ {t v}, Canon t → CanonAct (answer t v) := fun h => h.same
  have h1 : Canon s1 := h.same
  split
  · trivial
  · extract_lets differs
    split
    · split
      next e => exact h.consult.diverged e
      next e => exact h.consult.replay e
      · exact canon_ite h1 (canon_ite h1.same h1.same)
    · split
      · exact ha h
      · exact canonAct_ite (ha h.same) h
      · split
        next e => exact h.consult.diverged e
        next e => exact Canon.same (h.consult.replay e)
        · exact canonAct_ite (ha h) (canonAct_ite (ha h) (canonAct_ite (ha h) h.same))

theorem canonOut_execClk {f} (h : Canon s) : CanonOut (execClk f s) := by
  refine canonOut_sysInstr h fun c m => ?_
  dsimp only
  split
  next e => exact h.consult.diverged e
  next e => exact Canon.same (h.consult.replay e)
  · exact h.same

theorem canonOut_execBrk {f} (h : Canon s) : CanonOut (execBrk f s) :=
  canonOut_sysInstr h fun _ _ => canonAct_ite h (canonAct_ite (Canon.holdBlock h.same) (canonAct_ite h canonAct_trap))

theorem canonOut_execMark {f} (h : Canon s) : CanonOut (execMark f s) := canonOut_sysInstr h fun _ _ => canon_ite h h.traceOf

theorem canonOut_execSampctl {f} (h : Canon s) : CanonOut (execSampctl f s) := canonOut_sysInstr h fun _ _ => canon_ite h h.same

theorem canonOut_execSvc {f} (h : Canon s) : CanonOut (execSvc f s) := by
  refine canonOut_sysInstr h fun c m => ?_
  extract_lets n a put p rec q
  have hp : ∀ {t v}, Canon t → CanonAct (put t v) := fun h => h.same
  split
  · exact h
  · exact hp h.same
  · split
    next e => exact h.consult.diverged e
    next e => exact hp (h.consult.replay e)
    · split
      · exact h.same
      · split
        · exact hp h.same
        · refine canonAct_ite h ?_
          extract_lets x s1
          have h0 : Canon (s.updPart c.l.part fun p => { p with
              svcRing := some x.2, svcSeq := (p.svcSeq + 1) % 2 ^ 32, svcs := p.svcs.put p.svcSeq q }) := h.same
          have h1 : Canon s1 := h0.pokes
          clear_value s1
          exact h1.same

theorem canonOut_execDeq {f} (h : Canon s) : CanonOut (execDeq f s) := by
  unfold execDeq
  refine canonOut_sysFull h fun c m => ?_
  dsimp only
  split
  · trivial
  · split
    next e => exact h.consult.diverged e
    next e => exact canonAct_ite (Canon.same (h.consult.replay e)) (Canon.snap (Canon.same (h.consult.replay e)))
    · refine canonAct_ite h.same ?_
      split
      · exact canonAct_ite h.same.snap (canonAct_ite h h.same)
      · exact canonAct_ite h h.same

theorem canonOut_execEnq {f} (h : Canon s) : CanonOut (execEnq f s) := by
  unfold execEnq
  refine canonOut_sysFull h fun c m => ?_
  split
  · trivial
  · refine h.afterPublish fun t ht => ?_
    extract_lets g digest status
    have hs : ∀ {u v}, Canon u → CanonAct (.done (status u v)) := fun h => canon_ite h.same h
    split
    next e => exact ht.consult.diverged e
    next e => exact hs (ht.consult.replay e)
    · split
      · trivial
      · exact canonAct_ite (hs ht.same) (canonAct_ite (hs ht.same) ht.same)

theorem canonOut_execBarinit {f} (h : Canon s) : CanonOut (execBarinit f s) := by
  unfold execBarinit
  extract_lets n
  refine canonOut_sysFull h fun c m => ?_
  extract_lets eb ea k x s1 s2
  refine canonAct_ite canonAct_trap ?_
  have h2 : Canon s2 := canon_ite h.same h.same
  exact h2.same

theorem canonOut_execBararr {f} (h : Canon s) : CanonOut (execBararr f s) := by
  unfold execBararr
  refine canonOut_sysFull h fun c m => ?_
  extract_lets bytes s1
  have h1 : Canon s1 := h.changeBar
  exact h1.same

theorem canonOut_execBarwait {f} (h : Canon s) : CanonOut (execBarwait f s) := by
  unfold execBarwait
  refine canonOut_sysFull h fun c m => ?_
  split
  · exact h.same.takeTrap
  · extract_lets x status
    have hs : ∀ {v}, CanonAct (status v) := h.same
    split
    · exact canonAct_ite hs (canonAct_ite h hs)
    · exact canonAct_ite hs (canonAct_ite hs (canonAct_ite h.same canonAct_trap))

theorem canonOut_execBartok {f} (h : Canon s) : CanonOut (execBartok f s) := canonOut_sysFull h fun _ _ => h.same

theorem canonOut_execQpush {f} (h : Canon s) : CanonOut (execQpush f s) := by
  unfold execQpush
  refine canonOut_sysFull h fun c m => ?_
  dsimp only
  split
  · exact canonAct_ite canonAct_trap (canonAct_ite h h.same)
  · exact canonAct_ite canonAct_trap (canonAct_ite h h.same)
  · trivial

theorem canonOut_execQpop {f} (h : Canon s) : CanonOut (execQpop f s) := by
  unfold execQpop
  refine canonOut_sysFull h fun c m => ?_
  dsimp only
  split
  · refine canonAct_ite canonAct_trap ?_
    split
    · exact h.same
    · exact h
  · split
    · refine canonAct_ite canonAct_trap ?_
      split
      · exact h
      · exact h.same
    · trivial
  · split
    · refine canonAct_ite canonAct_trap ?_
      split
      · exact h
      · exact h.same
    · trivial
  · trivial

theorem canonOut_execQstat {f} (h : Canon s) : CanonOut (execQstat f s) := by
  unfold execQstat
  refine canonOut_sysFull h fun c m => ?_
  extract_lets put
  have hp : ∀ {a b}, CanonAct (put a b) := h.same
  split
  · exact hp
  · exact hp
  · exact hp
  · split
    · exact hp
    · trivial
  · split
    · exact hp
    · trivial
  · split
    · exact hp
    · trivial

theorem canonOut_execTsig {f} (h : Canon s) : CanonOut (execTsig f s) := by
  unfold execTsig
  refine canonOut_sysFull h fun c m => h.tileWait ?_
  split
  · extract_lets n s1
    have h1 : Canon s1 := canon_foldl (fun _ _ h => h.changeBar) h
    exact h1.same.snapNow
  · trivial

theorem canonOut_execColl {f} (h : Canon s) : CanonOut (execColl f s) := by
  unfold execColl
  refine canonOut_sysFull h fun c m => canonAct_ite canonAct_trap ?_
  extract_lets ws id
  split
  · trivial
  · refine canonAct_ite h (canonAct_ite h ?_)
    split
    · exact h.enterJob
    · exact h.same
    · refine canonAct_ite h.stopRun ?_
      extract_lets num s1 gid src o s2
      have h1 : Canon s1 := h.enterJob
      have h2 : Canon s2 := h1.same
      exact canon_ite h2.collAbandon (canon_ite h2.collAbandon (canon_ite h2.collDiffer (canon_ite h2.collEmpty
        (canon_ite (canon_ite h2.collAbandon h2.collChoose) h2))))

theorem canonOut_execSysrd {f} (h : Canon s) : CanonOut (execSysrd f s) := by
  unfold execSysrd
  refine canonOut_sysFull h fun c m => ?_
  dsimp only
  split
  next e => exact h.consult.diverged e
  next e => exact Canon.same (h.consult.replay e)
  · exact h.same

theorem canonOut_execSyswr {f} (h : Canon s) : CanonOut (execSyswr f s) := by
  unfold execSyswr
  refine canonOut_sysFull h fun c m => ?_
  dsimp only
  split
  next e => exact h.consult.diverged e
  next e => exact h.consult.replay e
  · exact h.same.sysWrite

theorem canonOut_execRunk {f} (h : Canon s) : CanonOut (execRunk f s) := by
  unfold execRunk
  refine canonOut_sysFull h fun c m => ?_
  dsimp only
  split
  · exact h
  · exact canon_ite h (Canon.same (h.addTerms (c := c)))

theorem canonOut_execTcfg {f} (h : Canon s) : CanonOut (execTcfg f s) :=
  canonOut_tileInstr h fun _ _ _ => canonAct_ite canonAct_trap (canonAct_ite h h.same)

theorem canonOut_execUnf {f} (h : Canon s) : CanonOut (execUnf f s) := by
  refine canonOut_tileInstr h fun c i t => ?_
  dsimp only
  split
  · trivial
  · refine canonAct_ite canonAct_trap (canonAct_ite canonAct_trap (canonAct_ite canonAct_trap ?_))
    split
    · trivial
    · exact canonAct_ite canonAct_trap h.same

theorem canonOut_execBload {f} (h : Canon s) : CanonOut (execBload f s) :=
  canonOut_tileInstr h fun _ _ _ => canonAct_ite canonAct_trap (canonAct_ite canonAct_trap (canonAct_ite h.same h.enterJob))

theorem canonOut_execXfetch {f} (h : Canon s) : CanonOut (execXfetch f s) := by
  refine canonOut_tileInstr h fun c i t => canonAct_ite canonAct_trap (canonAct_ite canonAct_trap (canonAct_ite canonAct_trap (canonAct_ite h.same ?_)))
  extract_lets first second card go
  have hg : ∀ {u a}, Canon u → Canon (go u a) := fun h => h.enterJob
  split
  · split
    · exact h.stopRun
    next e => exact hg (h.loggedFetch _ e)
  · exact canonAct_ite (hg h).logFetch (hg h)

theorem canonOut_execMma {f} (h : Canon s) : CanonOut (execMma f s) := by
  refine canonOut_tileInstr h fun c i t => ?_
  dsimp only
  split
  · exact canonAct_ite canonAct_trap h.queueTile
  · trivial

theorem canonOut_execAccz {f} (h : Canon s) : CanonOut (execAccz f s) := canonOut_tileInstr h fun _ _ _ => h.queueTile

theorem canonOut_execDrain {f} (h : Canon s) : CanonOut (execDrain f s) :=
  canonOut_tileInstr h fun _ _ _ => canonAct_ite canonAct_trap (canonAct_ite canonAct_trap h.queueTile)

theorem canonOut_execChain {f} (h : Canon s) : CanonOut (execChain f s) := canonOut_tileInstr h fun _ _ _ => h.queueTile

theorem canonOut_execSetw {f} (h : Canon s) : CanonOut (execSetw f s) := by
  unfold execSetw
  split
  · trivial
  · split
    · exact h.barred
    · split
      · exact h.trapped
      · split
        · exact h.trapped
        · split
          · exact h.same
          · exact h.same
end Sys2Proof.Machine
end

section
/-! PROOFS. Canonical memory, part 6: events of the scheduler, of the packet queues, of the drivers and of the host. -/

set_option Elab.async false

namespace Sys2Proof.Machine
open Sys2Proof
variable {s t : State}

theorem canonOut_execSplitEntryReturn {group frag} (h : Canon s) : CanonOut (execSplitEntryReturn group frag s) := by
  show Canon _
  split
  · exact h
  · split
    · exact h
    · exact canon_ite h h.same

theorem canonOut_execMergePatienceExpiry {group frag} (h : Canon s) : CanonOut (execMergePatienceExpiry group frag s) := by
  show Canon _
  split
  · exact h
  · refine canon_ite h ?_
    extract_lets e
    split
    · exact canon_ite h.same h
    · exact h.same

theorem canonOut_execLoadComplete {group op} (h : Canon s) : CanonOut (execLoadComplete group op s) := by
  show Canon _
  split
  · exact h
  · split
    · exact h
    · exact canon_ite h.same h

theorem canonOut_execRoundClose {part} (h : Canon s) : CanonOut (execRoundClose part s) := by
  refine canon_ite (s := (State.publishedGroups s).settleBlocks) h.publishedGroups.settleBlocks ?_
  split
  · exact h
  next e => exact Canon.settleBlocks (Canon.publishedGroups (h.closeRound _ e))

theorem canonOut_execVersionRetire {part line round} (h : Canon s) : CanonOut (execVersionRetire part line round s) := by
  show Canon _
  split
  · exact h
  · exact canon_ite h h.same

theorem canonOut_execWindowWriteback {block window line} (h : Canon s) : CanonOut (execWindowWriteback block window line s) := by
  show Canon _
  split
  · exact h
  · exact canon_ite h.same h

theorem canonOut_execJobPerform {job} (h : Canon s) : CanonOut (execJobPerform job s) := by
  show Canon _
  split
  · exact h
  · refine canon_ite h ?_
    split
    · exact h.performHostCopy
    · exact h.performCopy
    · exact h.performCopy
    · exact canon_ite h.performLoad h
    · exact canon_ite h (canon_ite h.performLoad (canon_ite h.performLoad h))
    · exact h.performColl
    · exact h.performColl
    · exact h

theorem canonOut_execJobComplete {job} (h : Canon s) : CanonOut (execJobComplete job s) := by
  show Canon _
  split
  · exact h
  · split
    · refine canon_ite h ?_
      split
      · exact h.endCopy
      · exact h.endCopy
      · exact h.endHostCopy
      · exact h.jobOver
      · exact h.jobOver
      · exact h
    · exact h
    · exact h
    · exact h

theorem canonOut_ite {c : Prop} [Decidable c] {a b : Out} (ha : CanonOut a) (hb : CanonOut b) : CanonOut (if c then a else b) := by
  split
  · exact ha
  · exact hb

theorem canonOut_execTileInstructionComplete {set} (h : Canon s) : CanonOut (execTileInstructionComplete set s) := by
  unfold execTileInstructionComplete
  split
  · exact h
  · split
    · exact canonOut_ite h h.runTile
    · exact h

theorem canonOut_execXfetchDeadline {job} (h : Canon s) : CanonOut (execXfetchDeadline job s) := by
  unfold execXfetchDeadline
  split
  · exact h
  · exact h.fallBack.performLoad

theorem Canon.primaryRead {j c} (h : Canon s) : Canon (s.primaryRead j c).s :=
  Got.canon_global (g := Got.none s) h

theorem canonOut_execXfetchPrimaryLanded {job} (h : Canon s) : CanonOut (execXfetchPrimaryLanded job s) := by
  unfold execXfetchPrimaryLanded
  split
  · exact h
  · refine canonOut_ite h ?_
    split
    next e => exact h.landed _ e
    · exact canon_ite h.primaryRead h

theorem canonOut_execLaunchPacket {part queue host} (h : Canon s) : CanonOut (execLaunchPacket part queue host s) := by
  show Canon _
  split
  · exact h
  · extract_lets f x r go
    refine canon_ite h (canon_ite h.badPacket ?_)
    have hr : Canon r.1 := Canon.readHeader h.takeIdent
    have hgo : ∀ {head}, Canon (go head) := hr.takePacket.submit
    split
    · exact hr.requestPage
    · exact hgo
    · exact hgo

theorem canonOut_execCopyPacket {part queue} (h : Canon s) : CanonOut (execCopyPacket part queue s) := by
  show Canon _
  split
  · exact h
  next q n slot bs _ =>
    have ht : Canon (s.takePacket part queue q n slot (bitAt (fromBytes ((bs.drop 1).take 1)) 0)) := h.takePacket
    exact canon_ite h (canon_ite h.badPacket ht.same)

theorem Canon.putQueue {part n w} (h : Canon s) : Canon (s.putQueue part n w) := h.same

theorem canonOut_execWorkItemPacket {part queue} (h : Canon s) : CanonOut (execWorkItemPacket part queue s) := by
  show Canon _
  split
  · exact h
  · extract_lets f
    refine canon_ite h (canon_ite h.badPacket ?_)
    split
    · exact h
    · exact canon_ite h h.takePacket.putQueue.completePacket

theorem canonOut_execLaunchComplete {launch} (h : Canon s) : CanonOut (execLaunchComplete launch s) := by
  show Canon _
  split
  · exact h
  · refine canon_ite h ?_
    split
    · exact h.recordLaunch
    · exact canon_ite h.recordLaunch h

theorem canonOut_execBlockAdmission {part} (h : Canon s) : CanonOut (execBlockAdmission part s) := by
  show Canon _
  split
  · split
    · exact h
    · exact canon_ite h.admitSet h.admitBlock
  · exact h

theorem canonOut_execBlockRestart {block} (h : Canon s) : CanonOut (execBlockRestart block s) := by
  show Canon _
  split
  · exact h
  · split
    · refine canon_ite h ?_
      split
      · exact canon_ite (Canon.restartSeq (h.moveUnit fun _ _ _ h => h.restartBlock)) h.restartBlock
      · exact h.restartBlock
    · exact h

theorem canonOut_execPreemption {block trigger} (h : Canon s) : CanonOut (execPreemption block trigger s) := by
  show Canon _
  split
  · extract_lets s1
    have h1 : Canon s1 := canon_ite h.orderPreempt h
    split
    · exact h
    · exact canon_ite (canon_foldl (fun _ _ h => h.captureBlock) h1.settleFetches) h1.settleFetches
  · exact h

theorem canonOut_execPreemptTimeout {block} (h : Canon s) : CanonOut (execPreemptTimeout block s) := by
  show Canon _
  split
  · exact canon_ite h.endLaunch h
  · exact h

theorem canonOut_execResume {block} (h : Canon s) : CanonOut (execResume block s) := by
  show Canon _
  split
  · exact h
  · split
    · exact canon_ite (h.moveUnit fun _ _ _ h => h.backBlock) h
    · exact h

theorem canonOut_execGroupWatchdogFiring {group} (h : Canon s) : CanonOut (execGroupWatchdogFiring group s) := by
  show Canon _
  split
  · exact h
  · refine canon_ite h ?_
    extract_lets cl entry s1
    have h1 : Canon s1 := h.logError.traceOf
    exact Canon.escalate h1.same

theorem canonOut_execStall {part} (h : Canon s) : CanonOut (execStall part s) := by
  show Canon _
  refine canon_ite h ?_
  extract_lets s1 s2
  have h2 : Canon s2 := Canon.logError h.same
  exact h2.same

theorem canonOut_execPartitionResume {part} (h : Canon s) : CanonOut (execPartitionResume part s) :=
  canon_ite (s := s.denied) h.same h.same

theorem canonOut_execHostPreempt {block} (h : Canon s) : CanonOut (execHostPreempt block s) := by
  show Canon _
  split
  · exact canon_ite h.orderPreempt h.same
  · exact h.same

theorem canonOut_execAllowancePeriod {part} (h : Canon s) : CanonOut (execAllowancePeriod part s) :=
  canon_foldl (fun _ _ h => h.same) h

theorem canonOut_execAllowanceExhausted {part vdev} (h : Canon s) : CanonOut (execAllowanceExhausted part vdev s) :=
  canon_ite h h.orderAll

theorem canonOut_execLend {part cluster} (h : Canon s) : CanonOut (execLend part cluster s) :=
  canon_ite (s := s.denied) h.same h.same

theorem canonOut_execReclaim {part cluster} (h : Canon s) : CanonOut (execReclaim part cluster s) :=
  canon_ite h.startReclaim h.same

theorem canonOut_execAutoReclaim {part} (h : Canon s) : CanonOut (execAutoReclaim part s) := by
  unfold execAutoReclaim
  extract_lets p lent heads pick
  refine canon_ite h ?_
  clear_value pick
  split
  · exact h.startReclaim
  · exact h

theorem canonOut_execPartitionConfigWrite {part conf} (h : Canon s) : CanonOut (execPartitionConfigWrite part conf s) := by
  unfold execPartitionConfigWrite
  extract_lets p moves off gone shrinks s1 s2
  have h1 : Canon s1 := canon_ite h.reduce h
  exact canon_ite (s := s.refusedBy part) h.same h1.same

theorem canonOut_execRangeTableWrite {part index entry} (h : Canon s) : CanonOut (execRangeTableWrite part index entry s) := by
  show Canon _
  split
  · exact h.same
  · extract_lets old had s1 s2
    refine canon_ite (s := s.refusedBy part) h.same ?_
    have h1 : Canon s1 := canon_ite h.reduce h
    have h2 : Canon s2 := h1.same
    split
    · exact Canon.same (h2.gainRange)
    · exact h2.same

theorem canonOut_execRegionAttributeWrite {part vdev index entry} (h : Canon s) : CanonOut (execRegionAttributeWrite part vdev index entry s) := by
  refine h.throughVf ?_
  split
  · exact h.same
  · exact canon_ite (s := s.refusedBy part) h.same h.same

theorem canonOut_execTlbInvalidation {part vdev range} (h : Canon s) : CanonOut (execTlbInvalidation part vdev range s) :=
  canon_ite h h.same

theorem canonOut_execPageRequestRingRegister {part base entries} (h : Canon s) : CanonOut (execPageRequestRingRegister part base entries s) :=
  canon_ite (s := s.denied) h.same (Canon.postPages h.same)

theorem canonOut_execPacketQueueRegister {part queue address} (h : Canon s) : CanonOut (execPacketQueueRegister part queue address s) :=
  h.throughVf (canon_ite h.same h.same)

theorem canonOut_execWorkQueueCapacity {part queue items} (h : Canon s) : CanonOut (execWorkQueueCapacity part queue items s) :=
  h.throughVf (canon_ite h.same h.same)

theorem canonOut_execExpertTableWrite {part index entry} (h : Canon s) : CanonOut (execExpertTableWrite part index entry s) := by
  show Canon _
  split
  · exact h.same
  · exact canon_ite (s := s.refusedBy part) h.same h.same

theorem canonOut_execCheckAreaRegister {part base bytes} (h : Canon s) : CanonOut (execCheckAreaRegister part base bytes s) :=
  canon_ite h.same (t := s.refusedBy part) h.same

theorem canonOut_execServiceRingRegister {part address} (h : Canon s) : CanonOut (execServiceRingRegister part address s) := by
  refine h.throughVf ?_
  split
  · exact h.same
  · exact h.same

theorem canonOut_execAdminQueueRegister {address} (h : Canon s) : CanonOut (execAdminQueueRegister address s) := by
  show Canon _
  split
  · exact h.same
  · exact h.same

theorem canonOut_execReply {part seq value} (h : Canon s) : CanonOut (execReply part seq value s) := by
  show Canon _
  split
  · exact h.same
  · extract_lets s1
    have h1 : Canon s1 := h.same
    split
    · exact h1.same
    · exact canon_ite (s := s1.denied) h1.same (canon_ite h1.same h1.same)

theorem canonOut_execCounterWrite {part register index value} (h : Canon s) : CanonOut (execCounterWrite part register index value s) := by
  unfold execCounterWrite
  extract_lets expert
  have hx : ∀ {f}, Canon (expert f) := h.same
  refine h.throughVf ?_
  split
  · exact canon_ite h.same h
  · exact canon_ite h.same h
  · exact canon_ite h.same h
  · exact canon_ite hx h
  · exact canon_ite hx h
  · exact canon_ite hx h
  · exact h.sysWrite

theorem canonOut_execHostMemWrite {address data} (h : Canon s) : CanonOut (execHostMemWrite address data s) :=
  canon_ite h.hostWrite h.same

theorem canonOut_execHostMemRead {address bytes} (h : Canon s) : CanonOut (execHostMemRead address bytes s) :=
  canon_ite h.same (t := s.denied) h.same

theorem canonOut_execHostLineSnoop {address data} (h : Canon s) : CanonOut (execHostLineSnoop address data s) := by
  refine canon_ite (s := s.denied) h.same (canon_foldl (fun s x h => canon_ite h.dropCodeWrite ?_) h)
  exact h.keepBase.hostWriteLine.writeMem

theorem canonOut_execPeerWrite {address data} (h : Canon s) : CanonOut (execPeerWrite address data s) :=
  canon_ite h.hostWrite h.same

end Sys2Proof.Machine
end

section
/-! PROOFS. Canonical memory, part 7: events of the gates, the silicon, the device, the collective groups and the debugger. -/

set_option Elab.async false

namespace Sys2Proof.Machine
open Sys2Proof
variable {s t : State}

theorem canonOut_execGateCreate {gate image} (h : Canon s) : CanonOut (execGateCreate gate image s) := by
  refine canon_ite (s := s.refuse) h.same ?_
  split
  · exact h.same
  · exact h.same

theorem canonOut_execGateSetAcl {gate list} (h : Canon s) : CanonOut (execGateSetAcl gate list s) := by
  show Canon _
  split
  · exact h.same
  · exact canon_ite (s := s.refuse) h.same (Canon.testGates (canon_foldl (fun _ _ h => h.denyGate) h.same))

theorem canonOut_execGateSetRate {gate rate depth} (h : Canon s) : CanonOut (execGateSetRate gate rate depth s) := by
  show Canon _
  split
  · exact h.same
  · exact canon_ite (s := s.refuse) h.same (Canon.thawGate h.same)

theorem canonOut_execGateDestroy {gate} (h : Canon s) : CanonOut (execGateDestroy gate s) := by
  show Canon _
  split
  · exact h.same
  · exact canon_ite (s := s.refuse) h.same (Canon.testGates (canon_foldl (fun _ _ h => h.denyGate) h.same))

theorem canonOut_execGateFreeze {gate} (h : Canon s) : CanonOut (execGateFreeze gate s) := by
  show Canon _
  split
  · exact h.same
  · exact canon_ite (s := s.refuse) h.same h.same

theorem canonOut_execGateExport {gate} (h : Canon s) : CanonOut (execGateExport gate s) := by
  show Canon _
  split
  · exact h.same
  · refine canon_ite (s := s.refuse) h.same ?_
    extract_lets s1 s2
    have h1 : Canon s1 := h.same
    have h2 : Canon s2 := canon_foldl (fun _ _ h => h.same) h1
    exact canon_foldl (fun _ _ h => h.performGate) h2

theorem canonOut_execGateImport {gate image queued} (h : Canon s) : CanonOut (execGateImport gate image queued s) := by
  refine canon_ite (s := s.refuse) h.same ?_
  split
  · exact h.same
  next g _ =>
    have ha : ∀ ps : List Nat, Canon (ps.foldl State.arrive s) := fun _ => canon_foldl (fun _ _ h => h.same) h
    exact (ha ((g.listed.eraseDups.filter fun p => (s.part p).moved))).same

theorem canonOut_execGateThaw {gate} (h : Canon s) : CanonOut (execGateThaw gate s) := by
  show Canon _
  split
  · exact h.same
  · exact canon_ite (s := s.refuse) h.same (Canon.testGates (Canon.thawGate h.same))

theorem canonOut_execDeferredCountClear {gate} (h : Canon s) : CanonOut (execDeferredCountClear gate s) := by
  show Canon _
  split
  · exact h.same
  · exact h.same

theorem Canon.noteActive (h : Canon s) : Canon s.noteActive := h.same

theorem canonOut_execBucketTick (h : Canon s) : CanonOut (execBucketTick s) := by
  unfold execBucketTick
  extract_lets s1
  have h1 : Canon s1 := h.same
  refine Canon.noteActive (Canon.chargeCores (Canon.testGates (canon_foldl (fun u k h => ?_) h1)))
  split
  · exact canon_ite h.thawGate h
  · exact h

theorem canonOut_execKilnDecision {check} (h : Canon s) : CanonOut (execKilnDecision check s) := by
  show Canon _
  split
  · exact h
  · split
    · exact h
    · exact canon_ite h h.kiln

theorem canonOut_execConeTest {die} (h : Canon s) : CanonOut (execConeTest die s) := by
  refine canon_ite h ?_
  split
  · exact h
  · exact h.same

theorem canonOut_execConeTestComplete {core pass} (h : Canon s) : CanonOut (execConeTestComplete core pass s) :=
  canon_ite h (canon_ite h.suspect.setAside (canon_ite (Canon.demerit h.same) h.same))

theorem canonOut_execConeTestAbort {core} (h : Canon s) : CanonOut (execConeTestAbort core s) := canon_ite h h.same

theorem Canon.testBank {core unit} (h : Canon s) : Canon (s.testBank core unit) := h.same

theorem canonOut_execCorrectedError {dram core unit line} (h : Canon s) : CanonOut (execCorrectedError dram core unit line s) :=
  canon_ite h.dramCorrected h.siliconError.testBank

theorem canonOut_execBankSelfTest {core slice pass} (h : Canon s) : CanonOut (execBankSelfTest core slice pass s) := by
  show Canon _
  split
  · exact h
  · extract_lets s0 s1
    have h0 : Canon s0 := h.same
    have h1 : Canon s1 := h0.logError
    exact canon_ite h0 (canon_ite h0.demerit (canon_ite (canon_ite h1.dropSlice h1) h1.setAside))

theorem canonOut_execUncorrectableError {site} (h : Canon s) : CanonOut (execUncorrectableError site s) := by
  show Canon _
  split
  · exact h.siliconError.contain
  · exact h.contain

theorem canonOut_execPatrolScrub {line corrected} (h : Canon s) : CanonOut (execPatrolScrub line corrected s) :=
  canon_ite h.dramCorrected h

theorem canonOut_execLinkRetrain {link lanes} (h : Canon s) : CanonOut (execLinkRetrain link lanes s) :=
  canon_ite h (Canon.logError (Canon.count h.same))

theorem canonOut_execPeerRouteTimeout {group op} (h : Canon s) : CanonOut (execPeerRouteTimeout group op s) := by
  unfold execPeerRouteTimeout
  extract_lets s0 s1
  have h0 : Canon s0 := h.suspectRoute
  have h1 : Canon s1 := h0.same
  show Canon _
  split
  · exact h0.same
  · split
    · exact h1.losePeerLines
    · exact h1

theorem canonOut_execThermalThrottle (h : Canon s) : CanonOut (execThermalThrottle s) := Canon.logError h.same

theorem canonOut_execThermalShutdown (h : Canon s) : CanonOut (execThermalShutdown s) := Memory.wf_filter _ h

theorem canonOut_execReadKilsy {list} (h : Canon s) : CanonOut (execReadKilsy list s) := by
  unfold execReadKilsy
  extract_lets t
  have ht : Canon t := h.woken
  show Canon _
  split
  · exact ht.same
  · split
    · exact ht.same
    · exact ht.same

theorem canonOut_execReadErrors {log} (h : Canon s) : CanonOut (execReadErrors log s) := by
  show Canon _
  split
  · exact h.woken.same
  · exact canon_ite h.same h.same

theorem canonOut_execStartCold {failing ok} (h : Canon s) : CanonOut (execStartCold failing ok s) := h.start

theorem canonOut_execStartWarm {ok} (h : Canon s) : CanonOut (execStartWarm ok s) := h.start

theorem canonOut_execSetTolerance {micros region} (h : Canon s) : CanonOut (execSetTolerance micros region s) :=
  canon_ite h.woken.same h.woken.same

theorem canonOut_execDeviceState (h : Canon s) : CanonOut (execDeviceState s) := h.woken.same

theorem canonOut_execWake (h : Canon s) : CanonOut (execWake s) := canon_ite h.same h.woken

theorem canonOut_execUpdateConfig {block} (h : Canon s) : CanonOut (execUpdateConfig block s) :=
  canon_ite h.woken.same h.woken.same

theorem canonOut_execIdlePowerEntry (h : Canon s) : CanonOut (execIdlePowerEntry s) := canon_ite h.same h

theorem canonOut_execWakeEvent {cxlMem} (h : Canon s) : CanonOut (execWakeEvent cxlMem s) := canon_ite h h.woken

theorem canonOut_execTenantKeyLoad {part vdev key} (h : Canon s) : CanonOut (execTenantKeyLoad part vdev key s) :=
  canon_ite (s := s.denied) h.same h.same

theorem canonOut_execCollGroupCreate {id part slot view members fabric} (h : Canon s) :
    CanonOut (execCollGroupCreate id part slot view members fabric s) := canonOut_ite (a := .next _) h.same h.same

theorem canonOut_execHeartbeat {id} (h : Canon s) : CanonOut (execHeartbeat id s) := by
  unfold execHeartbeat
  split
  · exact h
  · exact canonOut_ite h h.same

theorem canonOut_execHeartbeatTimeout {id slot} (h : Canon s) : CanonOut (execHeartbeatTimeout id slot s) := by
  unfold execHeartbeatTimeout
  split
  · exact h
  · exact canonOut_ite h.same h.collSuspect

theorem canonOut_execPropose {id slot view live} (h : Canon s) : CanonOut (execPropose id slot view live s) := by
  unfold execPropose
  split
  · exact h
  · extract_lets ack added g1
    have ha : ∀ {g}, Canon (ack g) := h.same
    exact canonOut_ite h (canonOut_ite (canon_ite ha h) (canonOut_ite h (canonOut_ite h.collLeave
      (canonOut_ite ha (canon_ite h.same ha)))))

theorem canonOut_execAcknowledge {id slot view} (h : Canon s) : CanonOut (execAcknowledge id slot view s) := by
  unfold execAcknowledge
  split
  · exact h
  · exact canonOut_ite h (Canon.collRejoin (Canon.collTryCommit h.same))

theorem canonOut_execCommit {id view num live} (h : Canon s) : CanonOut (execCommit id view num live s) := by
  unfold execCommit
  split
  · exact h
  · exact canonOut_ite h h.collInstall.collRejoin

theorem canonOut_execAckLapse {id} (h : Canon s) : CanonOut (execAckLapse id s) := by
  unfold execAckLapse
  split
  · exact h
  · exact canon_ite h (Canon.collPropose h.same)

theorem canonOut_execCollPacket {id view op slot card data} (h : Canon s) : CanonOut (execCollPacket id view op slot card data s) := by
  unfold execCollPacket
  split
  · exact h
  · refine canonOut_ite h.collStale (canonOut_ite h.collAbandon.collReady ?_)
    split
    · exact canonOut_ite h (canonOut_ite h.collDiffer.collReady h.same)
    · exact canonOut_ite h h.same

theorem canonOut_execPolicyChoice {id op slot choice} (h : Canon s) : CanonOut (execPolicyChoice id op slot choice s) :=
  Canon.collReady (Canon.collSettle h.same)

theorem canonOut_execChoiceTimeout {id op} (h : Canon s) : CanonOut (execChoiceTimeout id op s) :=
  Canon.collReady (Canon.collSettle h.same)

theorem canonOut_execJoinRequest {id slot digest} (h : Canon s) : CanonOut (execJoinRequest id slot digest s) := by
  unfold execJoinRequest
  split
  · exact h
  · exact canonOut_ite h (canonOut_ite (a := .next _) h.same (canonOut_ite h (canon_ite h.same (Canon.collPropose h.same))))

theorem canonOut_execJoinTimeout {group frag} (h : Canon s) : CanonOut (execJoinTimeout group frag s) := by
  unfold execJoinTimeout
  split
  · exact h
  · split
    · exact h.same
    · exact h

theorem canonOut_execCollComplete {job} (h : Canon s) : CanonOut (execCollComplete job s) := by
  unfold execCollComplete
  split
  · exact h
  · split
    · exact canonOut_ite h h.collEnd.collReady
    · exact h

theorem canonOut_execDebugAttach {part stops} (h : Canon s) : CanonOut (execDebugAttach part stops s) :=
  canon_ite (s := s.denied) h.same h.same

theorem canonOut_execDebugDetach {part} (h : Canon s) : CanonOut (execDebugDetach part s) := by
  refine canon_ite (s := s.denied) h.same ?_
  extract_lets held s1 s2
  have h1 : Canon s1 := canon_foldl (fun _ _ h => h.releaseBlock) h
  exact h1.same

theorem canonOut_execDebugHold {part launch block} (h : Canon s) : CanonOut (execDebugHold part launch block s) :=
  canon_ite (s := s.denied) h.same (canon_foldl (fun _ _ h => h.holdBlock) h)

theorem canonOut_execDebugRelease {part launch block} (h : Canon s) : CanonOut (execDebugRelease part launch block s) := by
  show Canon _
  split
  · exact h.same
  · exact h.releaseBlock

theorem canonOut_execDebugOne {part launch block group} (h : Canon s) : CanonOut (execDebugOne part launch block group s) := by
  show Canon _
  split
  · exact h.same
  · split
    · exact h.same
    · split
      · exact h.same
      · exact h.same

theorem canonOut_execDebugSetBp {part n address launch} (h : Canon s) : CanonOut (execDebugSetBp part n address launch s) :=
  canon_ite (s := s.denied) h.same h.same

theorem canonOut_execDebugRead {part launch block what} (h : Canon s) : CanonOut (execDebugRead part launch block what s) := by
  unfold execDebugRead
  show Canon _
  generalize (match what with | .sampling _ => none | _ => s.heldBlock part launch block) = o
  split
  · exact h.same
  · split
    · split
      · exact h.same
      · exact h.same
    · split
      · exact h.same
      · exact h.same
    · split
      · exact h.same
      · exact h.same
    · exact h.same
    · exact h.same
    · exact h.same

theorem canonOut_execDebugWrite {part launch block what data} (h : Canon s) :
    CanonOut (execDebugWrite part launch block what data s) := by
  show Canon _
  split
  · exact canon_ite (s := s.denied) h.same h.same
  · exact h.same
  · refine canon_ite (s := s.denied) h.same ?_
    extract_lets d grp
    have hg : ∀ {g w}, Canon (grp g w) := by
      intro g w
      show Canon (match s.groupAt _ g with | some x => _ | none => _)
      split
      · exact h.same
      · exact h.same
    split
    · exact hg
    · exact hg
    · exact canon_ite (s := s.denied) h.same hg
    · exact canon_ite h.same h.same
    · exact h
    · exact h.same

theorem canonOut_execSampleTag {core quarter group frag} (h : Canon s) : CanonOut (execSampleTag core quarter group frag s) := by
  show Canon _
  split
  · exact h
  · refine canon_ite h ?_
    split
    · exact h.same
    · exact h.same

theorem canonOut_execRingRegister {part ring base entries} (h : Canon s) : CanonOut (execRingRegister part ring base entries s) :=
  canon_ite (s := s.denied) h.same (Canon.poke h.same)

theorem canonOut_execDump {part vdev dest} (h : Canon s) : CanonOut (execDump part vdev dest s) := by
  unfold execDump
  extract_lets slot held bs n
  have hh : Canon held := canon_foldl (fun _ _ h => h.holdBlock) h
  exact canon_ite (s := s.denied) h.same hh.same

theorem canonOut_execWordNotAnInstruction {w} (h : Canon s) : CanonOut (execWordNotAnInstruction w s) := by
  unfold execWordNotAnInstruction
  split
  · trivial
  · split
    · exact h.trapped
    · exact h

theorem canonOut_execInboundPeerAtomic {address aop wide operand} (h : Canon s) :
    CanonOut (execInboundPeerAtomic address aop wide operand s) := by
  refine canon_ite (s := s.denied) h.same (canon_ite h.same ?_)
  extract_lets old new s1
  have h1 : Canon s1 := by
    refine canon_ite h.dropCodeWrite ?_
    split
    · exact h.writeMem
    · exact canon_foldl (fun _ _ h => h.performAt) h
  exact h1.same

theorem canonOut_execInboundPeerRead {address bytes} (h : Canon s) : CanonOut (execInboundPeerRead address bytes s) :=
  canon_ite h.same (t := s.denied) h.same

theorem canonOut_execDumpComplete {part vdev} (h : Canon s) : CanonOut (execDumpComplete part vdev s) := by
  show Canon _
  split
  · exact h
  · refine canon_ite h ?_
    extract_lets slot out s1 byDump s2
    have h1 : Canon s1 := Canon.poke h.same
    have h2 : Canon s2 := canon_foldl (fun _ _ h => h.releaseBlock) h1
    exact h2.same

end Sys2Proof.Machine
end

section
/-! PROOFS. Canonical memory, part 8: every instruction, every step. Settles O20. -/

set_option Elab.async false

namespace Sys2Proof.Machine
open Sys2Proof
variable {s t : State}

theorem canonOut_execMovImm {f} (h : Canon s) : CanonOut (execMovImm f s) := by
  unfold execMovImm
  extract_lets n num cut
  refine canonOut_ite (canonOut_alu h) (canonOut_ite (canonOut_sysInstr h fun c m => ?_) (canonOut_alu h))
  extract_lets put now
  have hp : ∀ {t v}, Canon t → CanonAct (put t v) := fun h => h.same
  refine canonAct_ite (hp h) ?_
  split
  · exact hp h.same
  next e => exact hp (h.consult.replay e)
  next e => exact h.consult.diverged e

theorem canonOut_execVote {f} (h : Canon s) : CanonOut (execVote f s) := by
  unfold execVote
  exact canonOut_ite (canonOut_alu h) (canonOut_alu h)

/-- no instruction, event or command makes the memory lose its canonical form -/
theorem canonOut_exec {i} (h : Canon s) : CanonOut (exec i s) := by
  cases i
  case add | sub | addc | subb | mul | mulh | mulw | div | rem | min | max | and | or | xor | andn | shl | 
      shr | sra | rotl | rotr | fadd | fsub | fmul | fmin | fmax | fminm | fmaxm | fldexp =>
    simp only [exec, aluA2,
      execAdd, execSub, execAddc, execSubb, execMul, execMulh, execMulw, execDiv, execRem, execMin, execMax,
      execAnd, execOr, execXor, execAndn, execShl, execShr, execSra, execRotl, execRotr, execFadd, execFsub,
      execFmul, execFmin, execFmax, execFminm, execFmaxm, execFldexp]
    exact canonOut_alu h
  case addImm | subImm | mulImm | divImm | remImm | minImm | maxImm | andImm | orImm | xorImm | shlImm | 
      shrImm | sraImm | rotlImm | rotrImm | bfxImm | fldexpImm | unpackElement =>
    simp only [exec, aluC1,
      execAddImm, execSubImm, execMulImm, execDivImm, execRemImm, execMinImm, execMaxImm, execAndImm,
      execOrImm, execXorImm, execShlImm, execShrImm, execSraImm, execRotlImm, execRotrImm, execBfxImm,
      execFldexpImm, execUnpackElement]
    exact canonOut_alu h
  case mad | madw | bfx | bfi | dot4 | sad | fma | fnma | fdot2 | permBytes | bsel =>
    simp only [exec, aluB3,
      execMad, execMadw, execBfx, execBfi, execDot4, execSad, execFma, execFnma, execFdot2, execPermBytes,
      execBsel]
    exact canonOut_alu h
  case neg | abs | not | clz | popc | brev | mov | fabs | fneg | frcp | frsq | fsqrt | fexp2 | flog2 | fsinpi | 
      fcospi | ftanh | fsigm | ffrac | fround | fclass | ffrexp | unpack =>
    simp only [exec, aluA1,
      execNeg, execAbs, execNot, execClz, execPopc, execBrev, execMov, execFabs, execFneg, execFrcp, execFrsq,
      execFsqrt, execFexp2, execFlog2, execFsinpi, execFcospi, execFtanh, execFsigm, execFfrac, execFround,
      execFclass, execFfrexp, execUnpack]
    exact canonOut_alu h
  case bfiImm | sel | cmpImm | lea | addw | addwImm | movi | movx | movy | iota | dq | qz | srseed | 
      srseedImm | srread | perm | bcast | bcastImm | lshift | lshiftImm | bshift | bshiftImm | tlk | mpop | 
      mfirst | scan | reduce | rank =>
    simp only [exec, 
      execBfiImm, execSel, execCmpImm, execLea, execAddw, execAddwImm, execMovi, execMovx,
      execMovy, execIota, execDq, execQz, execSrseed, execSrseedImm, execSrread, execPerm, execBcast,
      execBcastImm, execLshift, execLshiftImm, execBshift, execBshiftImm, execTlk, execMpop,
      execMfirst, execScan, execReduce, execRank]
    exact canonOut_alu h
  case cmp | fcmp =>
    simp only [exec, cmpA2,
      execCmp, execFcmp]
    exact canonOut_alu h
  case cvt | cvti | pack =>
    simp only [exec, aluSr,
      execCvt, execCvti, execPack]
    exact canonOut_alu h
  case mand | mor | mxor | mnot =>
    simp only [exec, maskOp,
      execMand, execMor, execMxor, execMnot]
    exact canonOut_alu h
  case ld | ldu =>
    simp only [exec, execLd, execLdu]
    exact canonOut_load h
  case waitc | waitr =>
    simp only [exec, execWaitc, execWaitr]
    exact canonOut_waitFor h
  case atom | cas | atomf | atomw =>
    simp only [exec, execAtom, execCas, execAtomf, execAtomw]
    exact canonOut_atomMem h
  case atomWindow | casWindow | redWindow | atomfWindow | redfWindow =>
    simp only [exec, execAtomWindow, execCasWindow, execRedWindow, execAtomfWindow, execRedfWindow]
    exact canonOut_atomWin h
  case red | redf =>
    simp only [exec, execRed, execRedf]
    exact canonOut_redMem h
  case copy | gcopy =>
    simp only [exec, execCopy, execGcopy]
    exact canonOut_copyInstr h
  case accld | accst =>
    simp only [exec, execAccld, execAccst]
    exact canonOut_accInstr h
  case gsig | gwait | gtry | gxch | gstat =>
    simp only [exec, execGsig, execGwait, execGtry, execGxch, execGstat]
    exact canonOut_gateInstr h
  case setw => exact canonOut_execSetw h
  case debugRead => exact canonOut_execDebugRead h
  case debugWrite => exact canonOut_execDebugWrite h
  case br => exact canonOut_execBr h
  case bru => exact canonOut_execBru h
  case jmp => exact canonOut_execJmp h
  case call => exact canonOut_execCall h
  case ret => exact canonOut_execRet h
  case brx => exact canonOut_execBrx h
  case exit => exact canonOut_execExit h
  case trap => exact canonOut_execTrap h
  case tret => exact canonOut_execTret h
  case pdone => exact canonOut_execPdone h
  case yield => exact canonOut_execYield h
  case sleep => exact canonOut_execSleep h
  case nop => exact canonOut_execNop h
  case rmark => exact canonOut_execRmark h
  case ldw => exact canonOut_execLdw h
  case stw => exact canonOut_execStw h
  case ldf => exact canonOut_execLdf h
  case ste => exact canonOut_execSte h
  case fefill => exact canonOut_execFefill h
  case feget => exact canonOut_execFeget h
  case fillw => exact canonOut_execFillw h
  case flushw => exact canonOut_execFlushw h
  case prefetch => exact canonOut_execPrefetch h
  case pub => exact canonOut_execPub h
  case snap => exact canonOut_execSnap h
  case phase => exact canonOut_execPhase h
  case fence => exact canonOut_execFence h
  case tsync => exact canonOut_execTsync h
  case ecnt => exact canonOut_execEcnt h
  case xstat => exact canonOut_execXstat h
  case cview => exact canonOut_execCview h
  case cpolicy => exact canonOut_execCpolicy h
  case cack => exact canonOut_execCack h
  case cjoin => exact canonOut_execCjoin h
  case clk => exact canonOut_execClk h
  case brk => exact canonOut_execBrk h
  case mark => exact canonOut_execMark h
  case sampctl => exact canonOut_execSampctl h
  case svc => exact canonOut_execSvc h
  case deq => exact canonOut_execDeq h
  case enq => exact canonOut_execEnq h
  case barinit => exact canonOut_execBarinit h
  case bararr => exact canonOut_execBararr h
  case barwait => exact canonOut_execBarwait h
  case bartok => exact canonOut_execBartok h
  case qpush => exact canonOut_execQpush h
  case qpop => exact canonOut_execQpop h
  case qstat => exact canonOut_execQstat h
  case tsig => exact canonOut_execTsig h
  case coll => exact canonOut_execColl h
  case sysrd => exact canonOut_execSysrd h
  case syswr => exact canonOut_execSyswr h
  case runk => exact canonOut_execRunk h
  case tcfg => exact canonOut_execTcfg h
  case unf => exact canonOut_execUnf h
  case bload => exact canonOut_execBload h
  case xfetch => exact canonOut_execXfetch h
  case mma => exact canonOut_execMma h
  case accz => exact canonOut_execAccz h
  case drain => exact canonOut_execDrain h
  case chain => exact canonOut_execChain h
  case splitEntryReturn => exact canonOut_execSplitEntryReturn h
  case mergePatienceExpiry => exact canonOut_execMergePatienceExpiry h
  case loadComplete => exact canonOut_execLoadComplete h
  case roundClose => exact canonOut_execRoundClose h
  case versionRetire => exact canonOut_execVersionRetire h
  case windowWriteback => exact canonOut_execWindowWriteback h
  case jobPerform => exact canonOut_execJobPerform h
  case jobComplete => exact canonOut_execJobComplete h
  case tileInstructionComplete => exact canonOut_execTileInstructionComplete h
  case xfetchDeadline => exact canonOut_execXfetchDeadline h
  case xfetchPrimaryLanded => exact canonOut_execXfetchPrimaryLanded h
  case launchPacket => exact canonOut_execLaunchPacket h
  case copyPacket => exact canonOut_execCopyPacket h
  case workItemPacket => exact canonOut_execWorkItemPacket h
  case launchComplete => exact canonOut_execLaunchComplete h
  case blockAdmission => exact canonOut_execBlockAdmission h
  case blockRestart => exact canonOut_execBlockRestart h
  case preemption => exact canonOut_execPreemption h
  case preemptTimeout => exact canonOut_execPreemptTimeout h
  case resume => exact canonOut_execResume h
  case groupWatchdogFiring => exact canonOut_execGroupWatchdogFiring h
  case stall => exact canonOut_execStall h
  case partitionResume => exact canonOut_execPartitionResume h
  case hostPreempt => exact canonOut_execHostPreempt h
  case allowancePeriod => exact canonOut_execAllowancePeriod h
  case allowanceExhausted => exact canonOut_execAllowanceExhausted h
  case lend => exact canonOut_execLend h
  case reclaim => exact canonOut_execReclaim h
  case autoReclaim => exact canonOut_execAutoReclaim h
  case partitionConfigWrite => exact canonOut_execPartitionConfigWrite h
  case rangeTableWrite => exact canonOut_execRangeTableWrite h
  case regionAttributeWrite => exact canonOut_execRegionAttributeWrite h
  case tlbInvalidation => exact canonOut_execTlbInvalidation h
  case pageRequestRingRegister => exact canonOut_execPageRequestRingRegister h
  case packetQueueRegister => exact canonOut_execPacketQueueRegister h
  case workQueueCapacity => exact canonOut_execWorkQueueCapacity h
  case expertTableWrite => exact canonOut_execExpertTableWrite h
  case checkAreaRegister => exact canonOut_execCheckAreaRegister h
  case serviceRingRegister => exact canonOut_execServiceRingRegister h
  case adminQueueRegister => exact canonOut_execAdminQueueRegister h
  case reply => exact canonOut_execReply h
  case counterWrite => exact canonOut_execCounterWrite h
  case hostMemWrite => exact canonOut_execHostMemWrite h
  case hostMemRead => exact canonOut_execHostMemRead h
  case hostLineSnoop => exact canonOut_execHostLineSnoop h
  case peerWrite => exact canonOut_execPeerWrite h
  case gateCreate => exact canonOut_execGateCreate h
  case gateSetAcl => exact canonOut_execGateSetAcl h
  case gateSetRate => exact canonOut_execGateSetRate h
  case gateDestroy => exact canonOut_execGateDestroy h
  case gateFreeze => exact canonOut_execGateFreeze h
  case gateExport => exact canonOut_execGateExport h
  case gateImport => exact canonOut_execGateImport h
  case gateThaw => exact canonOut_execGateThaw h
  case deferredCountClear => exact canonOut_execDeferredCountClear h
  case bucketTick => exact canonOut_execBucketTick h
  case kilnDecision => exact canonOut_execKilnDecision h
  case coneTest => exact canonOut_execConeTest h
  case coneTestComplete => exact canonOut_execConeTestComplete h
  case coneTestAbort => exact canonOut_execConeTestAbort h
  case correctedError => exact canonOut_execCorrectedError h
  case bankSelfTest => exact canonOut_execBankSelfTest h
  case uncorrectableError => exact canonOut_execUncorrectableError h
  case patrolScrub => exact canonOut_execPatrolScrub h
  case linkRetrain => exact canonOut_execLinkRetrain h
  case peerRouteTimeout => exact canonOut_execPeerRouteTimeout h
  case thermalThrottle => exact canonOut_execThermalThrottle h
  case thermalShutdown => exact canonOut_execThermalShutdown h
  case readKilsy => exact canonOut_execReadKilsy h
  case readErrors => exact canonOut_execReadErrors h
  case startCold => exact canonOut_execStartCold h
  case startWarm => exact canonOut_execStartWarm h
  case setTolerance => exact canonOut_execSetTolerance h
  case deviceState => exact canonOut_execDeviceState h
  case wake => exact canonOut_execWake h
  case updateConfig => exact canonOut_execUpdateConfig h
  case idlePowerEntry => exact canonOut_execIdlePowerEntry h
  case wakeEvent => exact canonOut_execWakeEvent h
  case tenantKeyLoad => exact canonOut_execTenantKeyLoad h
  case collGroupCreate => exact canonOut_execCollGroupCreate h
  case heartbeat => exact canonOut_execHeartbeat h
  case heartbeatTimeout => exact canonOut_execHeartbeatTimeout h
  case propose => exact canonOut_execPropose h
  case acknowledge => exact canonOut_execAcknowledge h
  case commit => exact canonOut_execCommit h
  case ackLapse => exact canonOut_execAckLapse h
  case collPacket => exact canonOut_execCollPacket h
  case policyChoice => exact canonOut_execPolicyChoice h
  case choiceTimeout => exact canonOut_execChoiceTimeout h
  case joinRequest => exact canonOut_execJoinRequest h
  case joinTimeout => exact canonOut_execJoinTimeout h
  case collComplete => exact canonOut_execCollComplete h
  case debugAttach => exact canonOut_execDebugAttach h
  case debugDetach => exact canonOut_execDebugDetach h
  case debugHold => exact canonOut_execDebugHold h
  case debugRelease => exact canonOut_execDebugRelease h
  case debugOne => exact canonOut_execDebugOne h
  case debugSetBp => exact canonOut_execDebugSetBp h
  case sampleTag => exact canonOut_execSampleTag h
  case ringRegister => exact canonOut_execRingRegister h
  case dump => exact canonOut_execDump h
  case wordNotAnInstruction => exact canonOut_execWordNotAnInstruction h
  case inboundPeerAtomic => exact canonOut_execInboundPeerAtomic h
  case inboundPeerRead => exact canonOut_execInboundPeerRead h
  case dumpComplete => exact canonOut_execDumpComplete h
  case st | stu => exact canonOut_store h
  case resident | declined => exact h.answerPage
  case gateServerPerform => exact h.performGate.testGates
  case shadowRunStart | keepingRunStart => exact h.tryRun
  case memberRemove | suspectReport => exact h.collSuspect
  case tenantKeyClear | debugClrBp | traceEnable | sleepCountRunsOut | heartbeatReceived | expectedDigestSet => exact h.same
  case movImm => exact canonOut_execMovImm h
  case vote => exact canonOut_execVote h

theorem Canon.pick {m} (h : Canon s) (hp : s.pick = some (m, t)) : Canon t := by
  unfold State.pick at hp
  extract_lets u at hp
  have hu : Canon u := h.between
  split at hp
  · obtain ⟨⟩ := hp
    exact hu.same
  · split at hp
    · obtain ⟨⟩ := hp
      exact hu.same
    · cases hp

theorem canonOut_thenDo {f o} (hf : ∀ t, Canon t → Canon (f t)) (ho : CanonOut o) : CanonOut (thenDo f o) := by
  cases o
  case next t => exact hf t ho
  all_goals trivial

theorem canonOut_step (h : Canon s) : CanonOut (step s) := by
  unfold step
  split
  · exact h
  next i s1 e =>
    have h1 := h.pick e
    refine canonOut_ite ?_ h1
    have hb : CanonStop (s1.before i) := h1.before
    split
    next e => rw [e] at hb; exact canonOut_exec hb
    next e => rw [e] at hb; exact hb
  next p s1 e =>
    have hq : CanonPrep (s1.prepare p) := (h.pick e).prepare
    split
    next e => rw [e] at hq; exact hq.settled
    next e => rw [e] at hq; exact canonOut_thenDo (fun _ h => h.settled) (canonOut_exec hq)
end Sys2Proof.Machine

open Sys2Proof Sys2Proof.Machine

/-- Settles O20: every operation of the model leaves the memory alone or writes it by writes that keep its form, or keeps a part of its cells; so does every instruction and event, and what a step does around them. -/
theorem memoryStaysCanonical : Obligations.MemoryStaysCanonical := by
  unfold Obligations.MemoryStaysCanonical
  intro s t h e
  have ht := canonOut_step h
  rw [e] at ht
  exact ht
end
section
/-! PROOFS. The machine after its first cold start (22 R430): empty tables, a memory without cells, and sixteen partition records at their reset values. Settles O21. -/

namespace Sys2Proof.Machine
open Sys2Proof

theorem reset_parts_get : ∀ {p : Nat}, p < 16 → State.reset.parts.get p = some Part.reset := by decide

theorem reset_part {p : Nat} (hp : p < 16) : State.reset.part p = Part.reset :=
  congrArg (·.getD Part.reset) (reset_parts_get hp)

end Sys2Proof.Machine

open Sys2Proof Sys2Proof.Machine

/-- Settles O21: every table of the reset state but the partition records is empty, its memory has no cells, and each partition record is `Part.reset`, which is not enabled. -/
theorem resetState : Obligations.ResetState := by
  unfold Obligations.ResetState
  refine ⟨rfl, fun _ => rfl, fun p hp => ⟨?_, ?_⟩, fun _ => rfl, fun _ => rfl, fun _ => rfl, fun _ => rfl, fun _ => rfl, rfl, rfl⟩
  · rw [reset_parts_get hp]
    rfl
  · rw [reset_part hp]
    rfl
end
section
/-! PROOFS. brk ends the waits of its whole block (17 R378, 21 R415), and the statement on a brk that holds its block claims that of the group's fragments only the issuing one has changed. Refutes O45. -/

namespace Sys2Proof.Machine
open Sys2Proof

/-- Beside the group's first fragment a second stands in a sleep. -/
def Group.withSleeper (g : Group) : Group :=
  match g.frags.get 0 with
  | some f => g.putFrag 1 { f with pend := .sleep }
  | none => g

/-- A word about to act in group 3 of block 2, in a block of eight words and a partition whose debugger stops, beside a fragment that sleeps. -/
def besideSleeper : State :=
  let s : State := { State.reset.loadWord 0 with agenda := [], cur := some { group := 3, frag := 0 }, word := 0 }
  ((s.updFrag 3 0 fun f => { f with blk := { f.blk with len := 8 } }).updPart 0 fun p => { p with debugger := some true }).updGroup 3
    Group.withSleeper

/-- A brk of all lanes. -/
def plainBrk : FormG := { g := { neg := false, mask := 0 }, x := .k 0, y := .k 0, handle := 0, func := 0 }

/-- Nothing stops a brk there, and it may hold its block. -/
theorem besideSleeper_clear :
    ∃ c, Clear besideSleeper c plainBrk.g [] [] false ∧ c.repeats = false ∧ besideSleeper.stops c.l.part = true ∧ besideSleeper.holdable c.b = true
      ∧ c.b.set = none ∧ c.uid = 3 ∧ c.fid = 0 ∧ (c.g.frags.get 1).map (·.pend) = some .sleep := by
  have h : (besideSleeper.ctx.any fun c => decide (besideSleeper.precheck c [] = none ∧ c.eff plainBrk.g ≠ 0
      ∧ c.g.poisoned (c.eff plainBrk.g) (usedRegs []) = none ∧ c.repeats = false ∧ besideSleeper.stops c.l.part = true
      ∧ besideSleeper.holdable c.b = true ∧ c.b.set = none ∧ c.uid = 3 ∧ c.fid = 0 ∧ (c.g.frags.get 1).map (·.pend) = some .sleep)) = true := by
    decide +kernel
  obtain ⟨c, hctx, hc⟩ := (Option.any_eq_true _ _).mp h
  obtain ⟨hpre, heff, hpois, hrest⟩ := of_decide_eq_true hc
  exact ⟨c, ⟨hctx, hpre, heff, hpois⟩, hrest⟩

/-- The brk ends the sleep of the fragment beside the one that issues it. -/
theorem besideSleeper_brk {t : State} (ht : exec (.brk plainBrk) besideSleeper = .next t) :
    ((t.groups.get 3).bind fun g => g.frags.get 1).map (·.pend) = some .none := by
  cases ht
  decide +kernel

end Sys2Proof.Machine

open Sys2Proof Sys2Proof.Machine

/-- Refutes O45: a brk that holds its block ends the waits of every fragment of the block, so one that sleeps beside the issuing fragment no longer waits, which the clause on it excludes. -/
theorem not_observationComplete : ¬ Obligations.ObservationComplete := by
  rintro ⟨hbrk, -⟩
  obtain ⟨c, hc, hr, hstops, hhold, hset, huid, hfid, hsleeps⟩ := besideSleeper_clear
  obtain ⟨t, b, ht, -, -, h, hget, -, hone⟩ := (hbrk plainBrk besideSleeper c hc).2.2 hr hstops hhold hset
  have hended := besideSleeper_brk ht
  rw [← huid, hget, Option.bind_some, hone 1, hfid, if_neg Nat.one_ne_zero, hsleeps] at hended
  exact absurd hended (by decide)
end
section
/-! PROOFS. How an instruction completes that logs a result and writes scalar registers, and the service instruction with its reply (17 R381). Settles O46. -/

namespace Sys2Proof.Machine
open Sys2Proof

/-! ### Scalar results -/

theorem toWord_mod (x : Nat) : BitVec.ofNat 32 (x % 2 ^ 32) = toWord x := by
  refine BitVec.eq_of_toNat_eq ?_
  simp only [toWord, BitVec.toNat_ofNat, Nat.mod_mod]

theorem sclWrites_toWords (n i x : Nat) :
    sclWrites i (toWords n x) = (List.range n).map fun r => .sca (i + r) (toWord (x / 2 ^ (32 * r))) := by
  induction n generalizing i x with
  | zero => rfl
  | succ n ih =>
    rw [toWords, sclWrites_cons, ih, List.range_succ_eq_map, List.map_cons, List.map_map, toWord_mod]
    refine congrArg₂ _ (by simp) (List.map_congr_left fun r _ => ?_)
    simp only [Function.comp, Nat.div_div_eq_div_mul, ← Nat.pow_add, Nat.mul_succ, Nat.add_comm, Nat.add_left_comm]

/-- A value of n words, written to consecutive scalar registers. -/
theorem wroteSca_sclWrites (g : Group) (n i x : Nat) : WroteSca g (g.writes (sclWrites i (toWords n x))) n i x := by
  rw [sclWrites_toWords]
  induction n with
  | zero => exact ⟨fun _ h => absurd h (Nat.not_lt_zero _), fun _ _ => ⟨rfl, .rfl⟩, fun _ => rfl, rfl, rfl⟩
  | succ n ih =>
    simp only [Group.writes, List.range_succ, List.map_append, List.foldl_append] at ih ⊢
    exact ih.write

theorem sclWrites_one (i x : Nat) : sclWrites i (toWords 1 x) = [.sca i (toWord x)] := by
  rw [sclWrites_toWords]
  simp only [List.range_one, List.map_cons, List.map_nil, Nat.add_zero, Nat.mul_zero, Nat.pow_zero, Nat.div_one]

/-- An instruction that enters a result in its log and writes it to scalar registers changes nothing else. -/
theorem finish_logged_writes {s : State} {c : Ctx} (hc : s.ctx = some c) (hh : c.holdsUp s = false) (kind : LogKind) (op : Nat) (data : List Nat)
    (digest : Nat) (ws : List RegWrite) :
    ∃ t h, c.finish s (.done ((s.record c.uid kind op data digest).writeRegs c.uid ws)) = .next t ∧ OnlyGroup s t c.uid ∧ t.groups.get c.uid = some h
      ∧ OneFrag c.g h c.fid c.f.next
      ∧ ({ h with frags := c.g.frags } : Group) = (c.g.logs { kind := kind, op := op, data := data, digest := digest }).writes ws := by
  have hfrags := Group.writes_frags (c.g.logs { kind := kind, op := op, data := data, digest := digest }) ws
  obtain ⟨hn, hother, h, hget, heq, hone⟩ := (((issuerIs_refl hc).record kind op data digest).updGroup fun g => g.writes ws).completes hc hfrags (.inr hh)
  rw [hfrags] at heq
  exact ⟨_, h, hn, (((onlyGroup_refl s c.uid).updGroup _).updGroup _).updGroup _, hget, hone, heq⟩

/-- The same of a value of n words. -/
theorem finish_logged_scalar {s : State} {c : Ctx} (hc : s.ctx = some c) (hh : c.holdsUp s = false) (kind : LogKind) (op : Nat) (data : List Nat)
    (digest n i x : Nat) :
    ∃ t h, c.finish s (.done ((s.record c.uid kind op data digest).writeRegs c.uid (sclWrites i (toWords n x)))) = .next t ∧ OnlyGroup s t c.uid
      ∧ t.groups.get c.uid = some h ∧ OneFrag c.g h c.fid c.f.next ∧ WroteSca c.g h n i x
      ∧ h.log = c.g.log ++ [{ kind := kind, op := op, data := data, digest := digest }] := by
  obtain ⟨t, h, ht, ho, hget, hone, heq⟩ := finish_logged_writes hc hh kind op data digest (sclWrites i (toWords n x))
  have hw := wroteSca_sclWrites (c.g.logs { kind := kind, op := op, data := data, digest := digest }) n i x
  have hlog := congrArg Group.log (Group.writes_frame (c.g.logs { kind := kind, op := op, data := data, digest := digest }) (sclWrites i (toWords n x)))
  rw [← heq] at hw hlog
  exact ⟨t, h, ht, ho, hget, hone, hw, hlog⟩

/-! ### svc -/

/-- The operand of svc. -/
def Ctx.svcArg (c : Ctx) (f : FormC) : Nat := if f.func.getLsbD 0 then c.g.lane f.a 0 else 0

/-- The request that svc posts under the partition's next number. -/
def State.svcRequest (s : State) (c : Ctx) (f : FormC) : SvcReq :=
  { group := c.uid, frag := c.fid,
    record := svcRecord c.l c.b c.g (f.func.getLsbD 0) f.imm.toNat (c.svcArg f) (s.part c.l.part).svcSeq }

/-- The partition's record with a request under its next number and its ring as given. -/
def Part.svcPosted (p : Part) (r : Ring) (q : SvcReq) : Part :=
  { p with svcRing := some r, svcSeq := (p.svcSeq + 1) % 2 ^ 32, svcs := p.svcs.put p.svcSeq q }

/-- The request in its ring and in the partition's record. -/
def State.svcPosted (s : State) (c : Ctx) (f : FormC) (r : Ring) : State :=
  let x := ringPut s.mem r 32 (s.svcRequest c f).record
  (s.updPart c.l.part fun p => p.svcPosted x.2 (s.svcRequest c f)).pokes x.1

section
variable {s : State} {c : Ctx} {f : FormC} (hc : Clear s c f.g [(1, f.dst)] (if f.func.getLsbD 0 then [(1, f.a)] else []) false)
include hc

/-- Where its reply has come, svc logs it and writes it. -/
theorem execSvc_answered {op : Nat} {d : List Nat} (hp : c.f.pend = .done op d) :
    execSvc f s = c.finish s (.done ((s.record c.uid .svc 0xF7 (d.take 1) (svcDigest f.imm.toNat (c.svcArg f))).writeRegs c.uid
      (sclWrites (opndIdx f.dst) (toWords 1 (d.getD 0 0))))) := by
  rw [sclWrites_one, execSvc, sysInstr_clear hc]
  simp only [hp]
  rfl

variable (hr : c.repeats = false) (hlog : c.g.replay = []) (hp : c.f.pend = .none) (hn : s.pendingSvc c f.imm.toNat (c.svcArg f) = none)
include hr hlog hp hn

/-- Without a ring it answers all ones. -/
theorem execSvc_unserved (hring : (s.part c.l.part).svcRing = none) :
    execSvc f s = c.finish s (.done ((s.record c.uid .svc 0xF7 [0xFFFFFFFF] (svcDigest f.imm.toNat (c.svcArg f))).writeRegs c.uid
      (sclWrites (opndIdx f.dst) (toWords 1 0xFFFFFFFF)))) := by
  unfold Ctx.svcArg at hn
  rw [sclWrites_one, execSvc, sysInstr_clear hc]
  simp only [hp, State.consult_of_no_replay _ _ _ hr hlog, hn, hring]
  rfl

/-- With room in its ring it posts its request and waits. -/
theorem execSvc_posts {r : Ring} (hring : (s.part c.l.part).svcRing = some r)
    (hroom : r.windex - fromBytes (Memory.readN s.mem (r.desc + 0x20) 8) < r.entries) :
    execSvc f s = c.finish s (.wait 14 ((s.svcPosted c f r).updFrag c.uid c.fid fun z => { z with pend := .svc (s.part c.l.part).svcSeq })) := by
  unfold Ctx.svcArg at hn
  rw [execSvc, sysInstr_clear hc]
  simp only [hp, State.consult_of_no_replay _ _ _ hr hlog, hn, hring, if_neg (Nat.not_le.mpr hroom)]
  rfl

end

/-- An instruction that waits on an outcome from now on: of the groups only its fragment has changed. -/
theorem finish_wait_pend {s t : State} {c : Ctx} (hc : s.ctx = some c) (ht : t.groups = s.groups) (p : Pend) (r : Nat) :
    ∃ u, c.finish s (.wait r (t.updFrag c.uid c.fid fun z => { z with pend := p })) = .next u ∧ ({ u with groups := t.groups } : State) = t
      ∧ GroupNow s u c c.g { c.f with pend := p, stall := r } := by
  obtain ⟨hg, hf, -, -⟩ := State.ctx_some hc
  have hget : ∀ u, ((t.updFrag c.uid c.fid fun z => { z with pend := p }).updFrag c.uid c.fid fun z => { z with stall := r }).groups.get u
      = if u = c.uid then some { c.g with frags := (c.g.frags.upd c.fid fun z => { z with pend := p }).upd c.fid fun z => { z with stall := r } }
        else s.groups.get u := fun u => by
    rw [State.updFrag_get, State.updFrag_get, State.updFrag_get, ht, hg]
    by_cases hu : u = c.uid
    · simp only [hu, if_true, Option.map_some]
    · simp only [hu, if_false]
  refine ⟨_, rfl, rfl, fun u hu => (hget u).trans (if_neg hu), _, (hget c.uid).trans (if_pos rfl), rfl, fun k => ?_⟩
  simp only [Table.get_upd, hf, Option.map_some]
  split <;> rfl

theorem State.pokes_groups (s : State) (ws : List (Nat × List Byte)) : (s.pokes ws).groups = s.groups := by
  obtain ⟨m, v, h⟩ := s.pokes_eq ws
  rw [h]

theorem State.svcPosted_groups (s : State) (c : Ctx) (f : FormC) (r : Ring) : (s.svcPosted c f r).groups = s.groups := State.pokes_groups _ _

theorem State.svcPosted_svcs {s : State} {c : Ctx} (f : FormC) (r : Ring) (hp : (s.parts.get c.l.part).isSome = true) :
    ((s.svcPosted c f r).part c.l.part).svcs.get (s.part c.l.part).svcSeq = some (s.svcRequest c f) := by
  have h : (s.svcPosted c f r).part c.l.part = (s.part c.l.part).svcPosted (ringPut s.mem r 32 (s.svcRequest c f).record).2 (s.svcRequest c f) :=
    (State.part_congr (State.pokes_parts _ _) _).trans (State.updPart_part hp)
  rw [h]
  exact Table.get_put_same _ _ _

/-- A partition with a service ring has a record. -/
theorem State.isSome_of_svcRing {s : State} {p : Nat} {r : Ring} (h : (s.part p).svcRing = some r) : (s.parts.get p).isSome = true := by
  cases hg : s.parts.get p with
  | none => rw [State.part, Table.getD_eq, hg] at h; cases h
  | some x => rfl

theorem State.isSome_of_svcs {s : State} {p seq : Nat} {q : SvcReq} (h : (s.part p).svcs.get seq = some q) : (s.parts.get p).isSome = true := by
  cases hg : s.parts.get p with
  | none => rw [State.part, Table.getD_eq, hg] at h; cases h
  | some x => rfl

/-- REPLY answers the fragment that waits for it. -/
theorem exec_reply_waiting {s : State} {part seq : Nat} (value : Word) {q : SvcReq} {g : Group} {f : Frag} (hq : (s.part part).svcs.get seq = some q)
    (hg : s.groups.get q.group = some g) (hl : g.life = .live) (hf : g.frags.get q.frag = some f) (hp : f.pend = .svc seq) :
    exec (.reply part seq value) s = .next ((s.updPart part fun p => { p with svcs := p.svcs.del seq }).answer q.group q.frag (.svc seq)
      (.done 0xF7 [value.toNat, svcDigest q.words.1 q.words.2])) := by
  have hw : g.waits q.frag (.svc seq) = true := by simp only [Group.waits, hf, hp, decide_true, Bool.true_or]
  simp only [exec, execReply, hq, hg, hl, hw, ne_eq, not_true_eq_false, if_false, if_true]

theorem State.answer_waiting {s : State} {uid fid : Nat} {p q : Pend} {g : Group} {f : Frag} (hg : s.groups.get uid = some g)
    (hf : g.frags.get fid = some f) (hp : f.pend = p) :
    ∃ h, (s.answer uid fid p q).groups.get uid = some h ∧ h.frags.get fid = some { f with pend := q } := by
  refine ⟨_, State.updGroup_get_same hg _, ?_⟩
  rw [Table.get_upd, if_pos rfl, hf, Option.map_some, if_pos hp]

end Sys2Proof.Machine

open Sys2Proof Sys2Proof.Machine

/-- Settles O46: an answer, or the absence of a ring, is a logged scalar result; a request changes the partition's record and memory, and its fragment waits; REPLY meets the wait. -/
theorem servicesComplete : Obligations.ServicesComplete := by
  unfold Obligations.ServicesComplete
  refine ⟨fun f s c hc hr hlog hroom hscalar => ⟨fun hp hn hring => ?_, fun op d hp => ?_, fun r hp hn hring hfree => ?_⟩,
    fun part seq value s q g f hq hg hl hf hp => ?_⟩
  · obtain ⟨t, h, ht, ho, hget, hone, hw, -⟩ := finish_logged_scalar hc.1 (Ctx.holdsUp_eq_false hroom) .svc 0xF7 [0xFFFFFFFF]
      (svcDigest f.imm.toNat (c.svcArg f)) 1 (opndIdx f.dst) 0xFFFFFFFF
    exact ⟨t, h, (execSvc_unserved hc hr hlog hp hn hring).trans ht, ho, hget, hw, hone⟩
  · obtain ⟨t, h, ht, ho, hget, hone, hw, hlogged⟩ := finish_logged_scalar hc.1 (Ctx.holdsUp_eq_false hroom) .svc 0xF7 (d.take 1)
      (svcDigest f.imm.toNat (c.svcArg f)) 1 (opndIdx f.dst) (d.getD 0 0)
    exact ⟨t, h, (execSvc_answered hc hp).trans ht, ho, hget, hw, hone, hlogged⟩
  · obtain ⟨t, ht, hframe, hg⟩ := finish_wait_pend hc.1 (State.svcPosted_groups s c f r) (.svc (s.part c.l.part).svcSeq) 14
    refine ⟨t, s.svcRequest c f, (execSvc_posts hc hr hlog hp hn hring hfree).trans ht, hg, ?_, rfl, rfl⟩
    have hparts : t.parts = (s.svcPosted c f r).parts := (congrArg State.parts hframe :)
    rw [State.part_congr hparts]
    exact State.svcPosted_svcs f r (State.isSome_of_svcRing hring)
  · obtain ⟨h, hget, hx⟩ := State.answer_waiting (s := s.updPart part fun p => { p with svcs := p.svcs.del seq })
      (q := .done 0xF7 [value.toNat, svcDigest q.words.1 q.words.2]) hg hf hp
    refine ⟨_, h, _, exec_reply_waiting value hq hg hl hf hp, hget, hx, rfl, fun hwf => ?_, rfl⟩
    have hpart := State.updPart_part (h := fun p => { p with svcs := p.svcs.del seq }) (State.isSome_of_svcs hq)
    exact (congrArg (fun p : Part => p.svcs.get seq) hpart :).trans ((Table.get_del hwf seq seq).trans (if_pos rfl))
end
section
/-! PROOFS. System registers, the clock, injections and saved groups (17 R377, R383, 16 R360, R361, 08 R218). Settles O44. -/

namespace Sys2Proof.Machine
open Sys2Proof

/-! ### sysrd and syswr -/

theorem sysFull_privileged {s : State} {c : Ctx} {g : Guard} {priv bad : Ctx → Bool} {ds ss : List (Nat × Opnd)} {k : Ctx → Mask → Act}
    (hc : s.ctx = some c) (hp : priv c = true) : sysFull s g priv bad ds ss k = .next (s.takeTrap c (faultAt .privilege c.f.pc s.word.toNat)) := by
  simp only [sysFull, hc, hp, if_true, Ctx.trapped]

section
variable {f : FormG} {s : State} {c : Ctx}

theorem execSysrd_read (hc : Clear s c f.g [(2, f.x)] [] false) (hr : c.repeats = false) (hlog : c.g.replay = [])
    (hpriv : (!c.l.host && !sysGuestReads f.func.toNat) = false) :
    execSysrd f s = c.finish s (.done ((s.record c.uid .sysrd 0xF0 [s.sysRead c.l.part c.l.hdr.vdev f.func.toNat] (opDigest 0xF0 [(0, f.func.toNat, [])])).writeRegs c.uid
      (sclWrites (opndIdx f.x) (toWords 2 (s.sysRead c.l.part c.l.hdr.vdev f.func.toNat))))) := by
  rw [execSysrd, sysFull_clear hc hpriv rfl]
  simp only [State.consult_of_no_replay _ _ _ hr hlog]

/-- A write as it stands in the log. -/
def Ctx.syswrDigest (c : Ctx) (f : FormG) : Nat := opDigest 0xF1 [(0, f.func.toNat, (toWords 2 (c.g.pair (opndIdx f.y))).map (·.toNat))]

theorem execSyswr_writes (hc : Clear s c f.g [] [(2, f.y)] false) (hr : c.repeats = false) (hlog : c.g.replay = []) (hhost : c.l.host = true) :
    execSyswr f s = c.finish s (.done ((s.record c.uid .sysrd 0xF1 [] (c.syswrDigest f)).sysWrite c.l.part c.l.hdr.vdev f.func.toNat (c.g.pair (opndIdx f.y)))) := by
  have hpriv : (fun c : Ctx => !c.l.host) c = false := by simp only [hhost, Bool.not_true]
  rw [execSyswr, sysFull_clear hc hpriv rfl]
  simp only [State.consult_of_no_replay _ _ _ hr hlog]
  rfl

/-- A write of any register but the two whose fall may escalate touches neither memory nor groups. -/
theorem State.sysWrite_apart (s : State) (part vdev n x : Nat) (h31 : n ≠ 0x031) (h32 : n ≠ 0x032) :
    (s.sysWrite part vdev n x).mem = s.mem ∧ (s.sysWrite part vdev n x).groups = s.groups := by
  unfold State.sysWrite
  extract_lets inRange
  split
  case h_3 => exact absurd rfl h31
  case h_4 => exact absurd rfl h32
  all_goals split <;> exact ⟨rfl, rfl⟩

end

section
variable (s : State) {p : Nat} (vdev x : Nat)

theorem State.sysWrite_wdGroup (hp : (s.parts.get p).isSome = true) :
    ((s.sysWrite p vdev 0x030 x).part p).wdGroup = if 1 ≤ x ∧ x ≤ 2 ^ 32 - 1 then x else (s.part p).wdGroup := by
  simp only [State.sysWrite, decide_eq_true_eq]
  split
  · exact congrArg Part.wdGroup (State.updPart_part hp)
  · rfl

theorem State.sysWrite_progWin (hp : (s.parts.get p).isSome = true) :
    ((s.sysWrite p vdev 0x033 x).part p).progWin = if 10 ≤ x ∧ x ≤ 1000000 then x else (s.part p).progWin := by
  simp only [State.sysWrite, decide_eq_true_eq]
  split
  · exact congrArg Part.progWin (State.updPart_part hp)
  · rfl

theorem State.sysWrite_rotation : (s.sysWrite p vdev 0x041 x).rotation = if 1 ≤ x ∧ x ≤ 3600 then x else s.rotation := by
  simp only [State.sysWrite, decide_eq_true_eq]
  split <;> rfl

theorem State.sysWrite_abortPrio : (s.sysWrite p vdev 0x042 x).abortPrio = if x ≤ 15 then x else s.abortPrio := by
  simp only [State.sysWrite, decide_eq_true_eq, Nat.zero_le, true_and]
  split <;> rfl

end

/-! ### clk, runk and pdone -/

section
variable {f : FormG} {s : State} {c : Ctx}

theorem execClk_reads (hc : Clear s c f.g [(2, f.x)] [] false) (hr : c.repeats = false) (hlog : c.g.replay = []) :
    execClk f s = c.finish s (.done ((s.record c.uid .clk 0xF2 [s.now] (opDigest 0xF2 [(0, 0, [])])).writeRegs c.uid
      (sclWrites (opndIdx f.x) (toWords 2 s.now)))) := by
  rw [execClk, sysInstr_clear hc]
  simp only [State.consult_of_no_replay _ _ _ hr hlog]

/-- Whether runk names the run of its block. -/
def Ctx.runNamed (c : Ctx) (f : FormG) : Bool := (c.b.runName == 1 && f.func.getLsbD 0) || (c.b.runName == 2 && f.func.getLsbD 1)

/-- The machine with an injection noted in the block's run of a check. -/
def State.inject (s : State) (c : Ctx) (k : Nat) : State :=
  let s1 := s.addTerms c true [mix (2 ^ 64 - c.b.runName)]
  { s1 with checks := s1.checks.upd k fun ch => { ch with runs := ch.runs.upd c.b.run fun r => { r with injected := true } } }

theorem execRunk_host (hc : Clear s c f.g [] [] false) (hhost : c.l.host = true) :
    execRunk f s = c.finish s (.done (match c.check with
      | none => s
      | some k => if !c.runNamed f then s else s.inject c k)) := by
  have hpriv : (fun c : Ctx => !c.l.host) c = false := by simp only [hhost, Bool.not_true]
  rw [execRunk, sysFull_clear hc hpriv rfl]
  rfl

theorem Ctx.runNamed_eq_false (h : (c.b.runName = 1 → f.func.getLsbD 0 = false) ∧ (c.b.runName = 2 → f.func.getLsbD 1 = false)) : c.runNamed f = false := by
  obtain ⟨h1, h2⟩ := h
  rw [Ctx.runNamed, Bool.or_eq_false_iff, Bool.and_eq_false_imp, Bool.and_eq_false_imp]
  exact ⟨fun h => h1 (eq_of_beq h), fun h => h2 (eq_of_beq h)⟩

theorem Ctx.runNamed_eq_true (h : (c.b.runName = 1 ∧ f.func.getLsbD 0 = true) ∨ (c.b.runName = 2 ∧ f.func.getLsbD 1 = true)) : c.runNamed f = true := by
  obtain ⟨h, hf⟩ | ⟨h, hf⟩ := h
  all_goals rw [Ctx.runNamed, h, hf]; rfl

/-- An injection changes the checks alone. -/
theorem State.inject_eq {k : Nat} (hk : c.check = some k) : ∃ cs, s.inject c k = { s with checks := cs } := by
  simp only [State.inject, State.addTerms, hk]
  exact ⟨_, rfl⟩

/-- The check's record of an injected run. -/
theorem State.inject_checks {k : Nat} {ch : Check} {r : SegRun} (hk : c.check = some k) (hch : s.checks.get k = some ch) (hrun : ch.runs.get c.b.run = some r) :
    ∃ ch' r', (s.inject c k).checks.get k = some ch' ∧ ch'.runs.get c.b.run = some r' ∧ r'.injected = true := by
  have hsome : (((s.addTerms c true [mix (2 ^ 64 - c.b.runName)]).checks.get k).bind fun ch => ch.runs.get c.b.run).isSome = true := by
    simp only [State.addTerms, hk, Table.get_upd, hch, hrun, Option.map_some, Option.bind_some, if_true, Option.isSome_some]
  obtain ⟨r1, hr1⟩ := Option.isSome_iff_exists.mp hsome
  obtain ⟨ch1, hch1, hr1⟩ := Option.bind_eq_some_iff.mp hr1
  refine ⟨_, _, (Table.get_upd _ _ _ _).trans ((if_pos rfl).trans (congrArg _ hch1)), (Table.get_upd _ _ _ _).trans ((if_pos rfl).trans (congrArg _ hr1)), rfl⟩

theorem execPdone_marks (hc : ClearJump s c f.g []) (heff : c.eff f.g ≠ 0) (hhandler : c.f.handler = .preempt) (hidle : c.g.idle = true) :
    execPdone f s = .next (((s.dropOthers c).putGroup c.uid { c.g with doneMark := true }).saveIfDone c.g.block) := by
  rw [execPdone, ctlInstr_clear hc, if_neg heff, if_neg (not_not_intro hhandler), hidle]
  rfl

/-- Saving a block changes its record and the order of saving alone. -/
theorem State.saveIfDone_eq (s : State) (bid : Nat) : ∃ bs n, s.saveIfDone bid = { s with blocks := bs, uid := n } := by
  unfold State.saveIfDone
  split
  · exact ⟨_, _, rfl⟩
  · split
    · exact ⟨_, _, rfl⟩
    · exact ⟨_, _, rfl⟩

end
end Sys2Proof.Machine

open Sys2Proof Sys2Proof.Machine

/-- Settles O44: what is read is a logged scalar result; a write is logged and has its effect where the value is in range; an injection changes its check alone; pdone marks its group. -/
theorem systemRegistersComplete : Obligations.SystemRegistersComplete := by
  unfold Obligations.SystemRegistersComplete
  refine ⟨fun f s c hr hlog hroom => ⟨fun hc hn => ?_, fun hc hguest hn => ?_, fun hc hguest => ?_, fun hc hhost hp => ?_⟩,
    fun f s c => ⟨fun hc hr hlog hroom => ?_, fun hc hhost => ⟨fun hnot => ?_, fun k ch r hk hnamed hch hrun => ?_⟩, fun hc heff hhandler hidle => ?_⟩⟩
  · have hpriv : (!c.l.host && !sysGuestReads f.func.toNat) = false := by
      obtain hhost | hlow := hn
      · rw [hhost, Bool.not_true, Bool.false_and]
      · rw [sysGuestReads, decide_eq_true hlow, Bool.not_true, Bool.and_false]
    obtain ⟨t, h, ht, ho, hget, hone, hw, -⟩ := finish_logged_scalar hc.1 (Ctx.holdsUp_eq_false hroom) .sysrd 0xF0 [s.sysRead c.l.part c.l.hdr.vdev f.func.toNat]
      (opDigest 0xF0 [(0, f.func.toNat, [])]) 2 (opndIdx f.x) (s.sysRead c.l.part c.l.hdr.vdev f.func.toNat)
    exact ⟨t, h, (execSysrd_read hc hr hlog hpriv).trans ht, ho, hget, hone, hw⟩
  · change execSysrd f s = _
    rw [execSysrd]
    refine sysFull_privileged hc ?_
    rw [hguest, sysGuestReads, decide_eq_false (Nat.not_lt.mpr hn)]
    rfl
  · change execSyswr f s = _
    rw [execSyswr]
    refine sysFull_privileged hc ?_
    rw [hguest]
    rfl
  · refine ⟨_, (execSyswr_writes hc hr hlog hhost).trans (Ctx.finish_done (Ctx.holdsUp_eq_false hroom) _), fun h31 h32 => ?_, fun hn => ?_, fun hn => ?_,
      fun hn => ?_, fun hn => ?_⟩
    · obtain ⟨hmem, hgroups⟩ := State.sysWrite_apart (s.record c.uid .sysrd 0xF1 [] (c.syswrDigest f)) c.l.part c.l.hdr.vdev f.func.toNat
        (c.g.pair (opndIdx f.y)) h31 h32
      obtain ⟨hother, h, hget, heq, hone⟩ := (((issuerIs_refl hc.1).record .sysrd 0xF1 [] (c.syswrDigest f)).of_groups_eq hgroups).advance hc.1 rfl
      refine ⟨hmem, h, hget, ?_, hone, hother⟩
      exact ⟨(congrArg Group.vregs heq :), (congrArg Group.sregs heq :), (congrArg Group.masks heq :), (congrArg Group.vpoison heq :),
        (congrArg Group.spoison heq :)⟩
    · rw [hn]
      exact State.sysWrite_wdGroup _ _ _ hp
    · rw [hn]
      exact State.sysWrite_progWin _ _ _ hp
    · rw [hn]
      exact State.sysWrite_rotation _ _ _
    · rw [hn]
      exact State.sysWrite_abortPrio _ _ _
  · obtain ⟨t, h, ht, ho, hget, hone, hw, -⟩ := finish_logged_scalar hc.1 (Ctx.holdsUp_eq_false hroom) .clk 0xF2 [s.now]
      (opDigest 0xF2 [(0, 0, [])]) 2 (opndIdx f.x) s.now
    exact ⟨t, h, (execClk_reads hc hr hlog).trans ht, ho, hget, hone, hw⟩
  · have hfin : c.finish s (.done s) = .next (s.advance c.uid c.fid) := ((issuerIs_refl hc.1).completes hc.1 rfl (.inl rfl)).1
    refine ⟨_, (execRunk_host hc hhost).trans (Eq.trans (congrArg (c.finish s) ?_) hfin), moved_advance hc.1⟩
    obtain hnone | hnamed := hnot
    · simp only [Ctx.check, hnone, Option.map_none]
    · rw [Ctx.runNamed_eq_false hnamed]
      cases c.check <;> rfl
  · obtain ⟨cs, heq⟩ := State.inject_eq (s := s) hk
    obtain ⟨hfin, hg⟩ := ((issuerIs_refl hc.1).of_groups_eq (congrArg State.groups heq :)).completes hc.1 rfl (.inl rfl)
    obtain ⟨ch', r', hch', hrun', hinj⟩ := State.inject_checks hk hch hrun
    have hrunk : execRunk f s = c.finish s (.done (s.inject c k)) := by
      rw [execRunk_host hc hhost, hk, Ctx.runNamed_eq_true hnamed]
      rfl
    refine ⟨_, ch', r', hrunk.trans hfin, hg, ?_, hch', hrun', hinj⟩
    rw [heq]
    rfl
  · obtain ⟨bs, n, heq⟩ := ((s.dropOthers c).putGroup c.uid { c.g with doneMark := true }).saveIfDone_eq c.g.block
    refine ⟨_, _, execPdone_marks hc heff hhandler hidle, ?_, rfl, fun u hu => ?_, ?_⟩
    all_goals rw [heq]
    · exact Table.get_put_same _ _ _
    · exact Table.get_put_ne _ _ hu
    · rfl
end
section
/-! PROOFS. Errors of the silicon (17 R366 to R372, 16 R354): what an error event and a count leave, and each event in turn. Settles O57. -/

namespace Sys2Proof.Machine
open Sys2Proof

/-! ### What an error leaves -/

/-- A count changes the counter, the serial of the device's record, and the owner's own counters. -/
theorem State.count_eq (s : State) (i n : Nat) (owner : Option Nat) : ∃ k t ps, s.count i n owner
    = { s with counters := s.counters.put i (min (s.counters.getD i 0 + n) (2 ^ 64 - 1)), kilsySeq := k, kilsyTime := t, parts := ps } := by
  cases owner <;> exact ⟨_, _, _, rfl⟩

/-- An error of the silicon is counted and logged. -/
theorem State.siliconError_eq (s : State) (ty code unit counter core line : Nat) (owner : Option (Nat × Nat)) :
    ∃ k t ps es o r m v, s.siliconError ty code unit counter core line owner
      = { s with counters := s.counters.put counter (min (s.counters.getD counter 0 + 1) (2 ^ 64 - 1)), kilsySeq := k, kilsyTime := t, parts := ps,
                 errors := es, overwritten := o, adminRing := r, mem := m, versions := v } := by
  obtain ⟨k, t, ps, hcount⟩ := s.count_eq counter 1 (owner.map (·.1))
  obtain ⟨es, o, r, m, v, herror⟩ := (s.count counter 1 (owner.map (·.1))).logError_eq
    { ty := ty, code := code, unit := unit, owner := owner, core := core, bank := 0, line := line, launch := 0xFFFFFFFF, block := 0xFFFFFFFF }
  refine ⟨k, t, ps, es, o, r, m, v, ?_⟩
  rw [State.siliconError, herror, hcount]

theorem Table.getD_put_same {α : Type} (t : Table α) (k : Nat) (x d : α) : (t.put k x).getD k d = x := by
  rw [Table.getD_eq, Table.get_put_same, Option.getD_some]

theorem Table.getD_put_ne {α : Type} (t : Table α) {k n : Nat} (x d : α) (h : n ≠ k) : (t.put k x).getD n d = t.getD n d := by
  rw [Table.getD_eq, Table.get_put_ne _ _ h, ← Table.getD_eq]

section
variable (s : State)

theorem State.logError_bankTests (e : ErrEntry) : (s.logError e).bankTests = s.bankTests := by
  obtain ⟨es, o, r, m, v, h⟩ := s.logError_eq e
  rw [h]

/-- No core's slice is touched as a core is set aside. -/
theorem State.setAside_slice (core c : Nat) (scan : Bool) : ((s.setAside core scan).core c).slice = (s.core c).slice := by
  obtain ⟨e, he⟩ := s.setAside_eq core scan
  rw [he, (State.logError_core_groups _ e).1]
  by_cases hc : c = core
  · rw [hc, State.updCore_core]
  · exact congrArg CoreRec.slice (Table.getD_put_ne _ _ _ hc)

theorem State.setAside_keeps (core : Nat) (scan : Bool) :
    (s.setAside core scan).groups = s.groups ∧ (s.setAside core scan).bankTests = s.bankTests := by
  obtain ⟨e, he⟩ := s.setAside_eq core scan
  obtain ⟨es, o, r, m, v, h⟩ := (s.updCore core fun r =>
    { r with aside := r.aside || !scan, scanFailed := r.scanFailed || scan, testing := false, targeted := false }).logError_eq e
  rw [he, h]
  exact ⟨rfl, rfl⟩

/-- A demerit is noted, whether or not it sets its core aside. -/
theorem State.demerit_notes (core : Nat) : (s.demerit core).groups = s.groups ∧ (s.demerit core).bankTests = s.bankTests
    ∧ ((s.demerit core).core core).demerits = 0 :: (s.core core).demerits := by
  unfold State.demerit
  extract_lets s1
  have h1 : s1.core core = { s.core core with demerits := 0 :: (s.core core).demerits } := s.updCore_core core _
  split
  · exact ⟨rfl, rfl, congrArg CoreRec.demerits h1⟩
  · obtain ⟨hgroups, hbanks⟩ := s1.setAside_keeps core false
    exact ⟨hgroups, hbanks, (congrArg CoreRec.demerits (s1.setAside_core core false)).trans (congrArg CoreRec.demerits h1)⟩

/-! ### A slice that is dropped -/

/-- A trace record changes the partition's ring and memory alone. -/
theorem State.trace_eq (b : Block) (l : Launch) (seg gidx kind chan : Nat) (pc : Addr) (w : Nat) (value : Option Nat) :
    ∃ ps m v, s.trace b l seg gidx kind chan pc w value = { s with parts := ps, mem := m, versions := v } := by
  unfold State.trace
  extract_lets d on
  split
  · exact ⟨_, _, _, rfl⟩
  · split
    · exact ⟨_, _, _, rfl⟩
    · obtain ⟨m, v, h⟩ := State.pokes_eq _ _
      exact ⟨_, m, v, h⟩

theorem State.trace_bankTests (b : Block) (l : Launch) (seg gidx kind chan : Nat) (pc : Addr) (w : Nat) (value : Option Nat) :
    (s.trace b l seg gidx kind chan pc w value).bankTests = s.bankTests := by
  obtain ⟨ps, m, v, h⟩ := s.trace_eq b l seg gidx kind chan pc w value
  rw [h]

theorem State.endHold_bankTests (bid : Nat) : (s.endHold bid).bankTests = s.bankTests := by
  refine List.foldlRecOn (motive := fun u : State => u.bankTests = s.bankTests) _ _ rfl fun u hu i _ => ?_
  split
  · exact hu
  · split
    · exact hu
    · split
      · exact hu
      · exact (State.trace_bankTests _ _ _ _ _ _ _ _ _ _).trans hu

theorem State.orderPreempt_bankTests (bid trigger : Nat) : (s.orderPreempt bid trigger).bankTests = s.bankTests := by
  unfold State.orderPreempt
  split
  · rfl
  · split
    · rfl
    · extract_lets s1
      have h1 : s1.bankTests = s.bankTests := (apply_ite State.bankTests _ _ _).trans ((congrArg (ite _ · _) (s.endHold_bankTests bid)).trans (ite_self _))
      exact List.foldlRecOn (motive := fun u : State => u.bankTests = s.bankTests) _ _ h1 fun _ hu _ _ => hu

theorem State.orderAll_bankTests (bids : List Nat) (trigger : Nat) : (s.orderAll bids trigger).bankTests = s.bankTests :=
  List.foldlRecOn (motive := fun u : State => u.bankTests = s.bankTests) _ _ rfl fun u hu i _ => (u.orderPreempt_bankTests i trigger).trans hu

/-- A slice is dropped whatever follows for its cluster. -/
theorem State.dropSlice_drops (core : Nat) : (s.dropSlice core).bankTests = s.bankTests ∧ ((s.dropSlice core).core core).slice = false := by
  unfold State.dropSlice
  extract_lets held parts hit s1 s2 s3 mates
  have h1 : s1.bankTests = s.bankTests :=
    List.foldlRecOn (motive := fun u : State => u.bankTests = s.bankTests) _ _ rfl fun u hu p _ => (u.orderAll_bankTests _ 3).trans hu
  have h3 : s3.bankTests = s.bankTests ∧ (s3.core core).slice = false := by
    refine ⟨(State.logError_bankTests _ _).trans h1, ?_⟩
    exact congrArg CoreRec.slice ((congrFun (State.logError_core_groups _ _).1 core).trans (s2.updCore_core core _))
  split
  · exact h3
  · refine List.foldlRecOn (motive := fun u : State => u.bankTests = s.bankTests ∧ (u.core core).slice = false) _ _ h3 fun u hu c _ => ?_
    obtain ⟨hbanks, hslice⟩ := hu
    exact ⟨(u.setAside_keeps c false).2.trans hbanks, (u.setAside_slice c core false).trans hslice⟩

end

/-! ### The events -/

section
variable (s : State)

theorem exec_correctedError_dram (core unit line : Nat) : exec (.correctedError true core unit line) s = .next (s.dramCorrected line) := rfl

theorem exec_correctedError_sram (core unit line : Nat) : exec (.correctedError false core unit line) s
    = .next ((s.siliconError 0x01 0 unit 0 core (128 * line) (if unit = 2 then s.l2Owner line else s.coreOwner core)).testBank core unit) := rfl

/-- A counted error and the test of a bank that follows it. -/
theorem State.siliconError_testBank (ty code unit counter core line c u : Nat) (owner : Option (Nat × Nat)) :
    let t := (s.siliconError ty code unit counter core line owner).testBank c u
    t.groups = s.groups ∧ t.counters.getD counter 0 = min (s.counters.getD counter 0 + 1) (2 ^ 64 - 1) ∧ t.bankTests = s.bankTests ++ [(c, u)] := by
  obtain ⟨k, t, ps, es, o, r, m, v, h⟩ := s.siliconError_eq ty code unit counter core line owner
  rw [h]
  exact ⟨rfl, Table.getD_put_same _ _ _ _, rfl⟩

/-- A bank's self-test ended in a failure, which is logged. -/
def State.bankFailed (core : Nat) (slice : Bool) (x : Nat × Nat) : State :=
  ({ s with bankTests := s.bankTests.erase x, free := s.free + 1 } : State).logError
    { ty := 0x06, code := 0, unit := if slice then 2 else 0, owner := s.coreOwner core, core := core, bank := 0, line := 0,
      launch := 0xFFFFFFFF, block := 0xFFFFFFFF }

section
variable {s} {core : Nat} {slice : Bool} {x : Nat × Nat} (hcore : core < Config.cores)
  (hx : (s.bankTests.find? fun x => x.1 == core && bankTakes x.2 slice) = some x)
include hcore hx

theorem exec_bankSelfTest_pass : exec (.bankSelfTest core slice true) s
    = .next (({ s with bankTests := s.bankTests.erase x, free := s.free + 1 } : State).demerit core) := by
  simp only [exec, execBankSelfTest, hx, if_neg (Nat.not_le.mpr hcore), if_true]

theorem exec_bankSelfTest_fail : exec (.bankSelfTest core slice false) s = .next
    (let s1 := s.bankFailed core slice x
     if slice then (if (s.core core).slice then s1.dropSlice core else s1) else s1.setAside core false) := by
  simp only [exec, execBankSelfTest, hx, if_neg (Nat.not_le.mpr hcore), Bool.false_eq_true, if_false]
  rfl

end

/-- A poisoned line is noted as such, and counted in its own counter. -/
theorem State.notePoison_notes (line : Nat) (owner : Option (Nat × Nat)) : (s.notePoison line owner).groups = s.groups
    ∧ (s.notePoison line owner).poison.contains line = true ∧ (s.notePoison line owner).counters.getD 3 0 = s.counters.getD 3 0 := by
  unfold State.notePoison
  extract_lets s1 s2 e
  have h1 : s1.groups = s.groups ∧ s1.poison.contains line = true ∧ s1.counters = s.counters := by
    by_cases hin : s.poison.contains line = true
    · rw [show s1 = s from if_pos hin]
      exact ⟨rfl, hin, rfl⟩
    · rw [show s1 = { s with poison := line :: s.poison } from if_neg hin]
      exact ⟨rfl, by simp only [List.contains_cons, beq_self_eq_true, Bool.true_or], rfl⟩
  have h2 : s2.groups = s1.groups ∧ s2.poison = s1.poison ∧ s2.counters = s1.counters := by
    by_cases hroom : s1.poisonList.length < 256
    · rw [show s2 = { s1 with poisonList := s1.poisonList ++ [128 * line] } from if_pos hroom]
      exact ⟨rfl, rfl, rfl⟩
    · rw [show s2 = { s1 with poisonDropped := s1.poisonDropped + 1 } from if_neg hroom]
      exact ⟨rfl, rfl, rfl⟩
  obtain ⟨hgroups, hpoison, hcounters⟩ := h2
  obtain ⟨k, t, ps, hcount⟩ := s2.count_eq 4 1 (owner.map (·.1))
  obtain ⟨es, o, r, m, v, herror⟩ := (s2.count 4 1 (owner.map (·.1))).logError_eq e
  rw [herror, hcount]
  refine ⟨hgroups.trans h1.1, (congrArg (·.contains line) hpoison).trans h1.2.1, ?_⟩
  exact (Table.getD_put_ne _ _ _ (by decide)).trans (congrArg (·.getD 3 0) (hcounters.trans h1.2.2))

theorem State.poisonHome_notes (line : Nat) : (s.poisonHome line).groups = s.groups ∧ (s.poisonHome line).poison.contains line = true
    ∧ (s.poisonHome line).counters.getD 3 0 = s.counters.getD 3 0 := by
  unfold State.poisonHome
  extract_lets s1
  have h1 : s1.groups = s.groups ∧ s1.poison.contains line = true ∧ s1.counters.getD 3 0 = s.counters.getD 3 0 := s.notePoison_notes line _
  split
  · exact h1
  · exact h1

/-- A group with one lane of a vector register poisoned. -/
def Group.poisonLane (g : Group) (r lane : Nat) : Group := { g with vpoison := g.vpoison.put r (g.vpoison.getD r 0 ||| BitVec.ofNat 128 (2 ^ lane)) }

/-- An uncorrectable error is counted and logged, and then contained. -/
theorem exec_uncorrectableError_vreg (u r lane : Nat) : ∃ core owner, exec (.uncorrectableError (.vreg u r lane)) s
    = .next ((s.siliconError 0x03 0 0 2 core 0 owner).updGroup u fun g => g.poisonLane r lane) := ⟨_, _, rfl⟩

theorem exec_uncorrectableError_dram (line : Nat) : exec (.uncorrectableError (.dram line true)) s
    = .next ((s.siliconError 0x04 0 3 3 (s.home line) (128 * line) (s.lineOwner line)).poisonHome line) := rfl

/-! ### A link that retrains -/

/-- The lanes of a link that are good now. -/
def LinkRec.retrained (r : LinkRec) (lanes : BitVec 8) : LinkRec :=
  let good := r.lanes &&& lanes
  let down := r.down || !(decide (good &&& 0x0F = 0x0F) || decide (good &&& 0xF0 = 0xF0))
  { lanes := good, half := !down && (r.half || decide (good ≠ 0xFF)), down := down, losses := min (r.losses + 1) (2 ^ 32 - 1) }

theorem State.logError_link (e : ErrEntry) : (s.logError e).link = s.link := by
  obtain ⟨es, o, r, m, v, h⟩ := s.logError_eq e
  rw [h]
  rfl

theorem exec_linkRetrain {link : Nat} (lanes : BitVec 8) (h : link ≤ 17) : ∃ t, exec (.linkRetrain link lanes) s = .next t ∧ t.groups = s.groups
    ∧ t.link link = (s.link link).retrained lanes := by
  refine ⟨_, congrArg Host.Outcome.next (if_neg (Nat.not_lt.mpr h)), (State.logError_core_groups _ _).2, ?_⟩
  exact (congrFun (State.logError_link _ _) link).trans (Table.getD_put_same _ _ _ _)

end

end Sys2Proof.Machine

open Sys2Proof Sys2Proof.Machine

/-- Settles O57: a corrected error and an uncorrectable one are counted and logged, the one before a bank's test, the other before what it struck is poisoned; a failed bank sets its core aside or drops its slice; a link keeps the lanes good now. -/
theorem siliconEvents : Obligations.SiliconEvents := by
  unfold Obligations.SiliconEvents
  refine ⟨fun s core unit line dram => ⟨?_, ?_⟩, fun s core slice x hcore hx => ⟨?_, fun hslice => ?_, fun hslice hhas => ?_⟩, fun s u r lane g hg hlane => ?_,
    fun s line => ?_, fun s link lanes hlink => ?_⟩
  · cases dram
    · obtain ⟨hg, hcount, hbanks⟩ := s.siliconError_testBank 0x01 0 unit 0 core (128 * line) core unit (if unit = 2 then s.l2Owner line else s.coreOwner core)
      exact ⟨_, exec_correctedError_sram s core unit line, hg, hcount, fun _ => hbanks, fun h => Bool.noConfusion h⟩
    · obtain ⟨hg, hcount, hbanks⟩ := s.siliconError_testBank 0x02 0 3 1 (s.home line) (128 * line) (s.home line) 3 (s.lineOwner line)
      exact ⟨_, exec_correctedError_dram s core unit line, hg, hcount, fun h => Bool.noConfusion h, fun _ => hbanks⟩
  · obtain ⟨hg, hcount, -⟩ := s.siliconError_testBank 0x02 0 3 1 (s.home line) (128 * line) (s.home line) 3 (s.lineOwner line)
    exact ⟨_, rfl, hg, hcount⟩
  · obtain ⟨hg, hbanks, hdemerits⟩ := State.demerit_notes ({ s with bankTests := s.bankTests.erase x, free := s.free + 1 }) core
    exact ⟨_, exec_bankSelfTest_pass hcore hx, hg, hbanks, hdemerits⟩
  · obtain ⟨hg, hbanks⟩ := (s.bankFailed core slice x).setAside_keeps core false
    have haside := congrArg CoreRec.aside ((s.bankFailed core slice x).setAside_core core false)
    subst hslice
    exact ⟨_, exec_bankSelfTest_fail hcore hx, hg.trans (State.logError_core_groups _ _).2, hbanks.trans (State.logError_bankTests _ _),
      haside.trans (Bool.or_true _)⟩
  · obtain ⟨hbanks, hdropped⟩ := (s.bankFailed core slice x).dropSlice_drops core
    subst hslice
    refine ⟨_, (exec_bankSelfTest_fail hcore hx).trans ?_, hbanks.trans (State.logError_bankTests _ _), hdropped⟩
    simp only [hhas, if_true]
  · obtain ⟨core, owner, he⟩ := exec_uncorrectableError_vreg s u r lane
    obtain ⟨hgroups, hcount, -⟩ := s.siliconError_testBank 0x03 0 0 2 core 0 0 0 owner
    refine ⟨_, g.poisonLane r lane, he, State.updGroup_get_same ((congrArg (·.get u) hgroups).trans hg) _, fun w hw => ?_, rfl, rfl, rfl,
      Table.get_put_same _ _ _, hcount⟩
    exact (State.updGroup_get _ _ _ _).trans ((if_neg hw).trans (congrArg (·.get w) hgroups))
  · obtain ⟨hgroups, hpoison, hcounter⟩ := (s.siliconError 0x04 0 3 3 (s.home line) (128 * line) (s.lineOwner line)).poisonHome_notes line
    obtain ⟨hg, hcount, -⟩ := s.siliconError_testBank 0x04 0 3 3 (s.home line) (128 * line) 0 0 (s.lineOwner line)
    exact ⟨_, exec_uncorrectableError_dram s line, hgroups.trans hg, hpoison, hcounter.trans hcount⟩
  · obtain ⟨t, ht, hg, hlink⟩ := exec_linkRetrain s lanes hlink
    refine ⟨t, ht, hg, congrArg LinkRec.lanes hlink, congrArg LinkRec.losses hlink, fun hdown => ?_, fun hup => ?_⟩
    · rw [hlink, LinkRec.retrained, hdown, Bool.true_or]
    · rw [hlink, LinkRec.retrained, hup, Bool.false_or]
end
section
/-! PROOFS. The mailbox, the starts, the power states and the cooling (22 R428 to R437, 16 R357). Settles O58. -/

namespace Sys2Proof.Machine
open Sys2Proof

/-! ### A device that wakes (22 R435) -/

section
variable (s : State)

/-- Waking changes the device's state alone. -/
theorem State.woken_eq : ∃ d, s.woken = { s with dev := d } := by
  unfold State.woken
  split <;> exact ⟨_, rfl⟩

theorem State.woken_of_power {s : State} {a : Nat} (h : s.dev = .power a) : s.woken = { s with dev := .ready } := by
  simp only [State.woken, h]

theorem State.woken_of_maintenance {s : State} (h : s.dev = .maintenance) : s.woken = s := by
  simp only [State.woken, h]

theorem State.woken_sent : s.woken.sent = s.sent := by
  obtain ⟨d, h⟩ := s.woken_eq
  rw [h]

theorem State.woken_parts : s.woken.parts = s.parts := by
  obtain ⟨d, h⟩ := s.woken_eq
  rw [h]

theorem State.woken_mem : s.woken.mem = s.mem := by
  obtain ⟨d, h⟩ := s.woken_eq
  rw [h]

theorem State.woken_suspects : s.woken.suspects = s.suspects := by
  obtain ⟨d, h⟩ := s.woken_eq
  rw [h]

theorem State.woken_errors : s.woken.errors = s.errors ∧ s.woken.overwritten = s.overwritten := by
  obtain ⟨d, h⟩ := s.woken_eq
  rw [h]
  exact ⟨rfl, rfl⟩

/-! ### The mailbox -/

theorem exec_readKilsy_record : exec (.readKilsy none) s = .next { s.woken with sent := s.sent ++ [.bytes false s.woken.kilsyRecord] } := by
  rw [← s.woken_sent]
  rfl

theorem exec_readKilsy_list {h : Nat} {x : Suspect} (hx : s.suspects[h]? = some x) :
    exec (.readKilsy (some h)) s = .next { s.woken with sent := s.sent ++ [.bytes false (x.segs.flatMap SegName.bytes)] } := by
  simp only [exec, execReadKilsy, s.woken_suspects, hx, s.woken_sent]

theorem exec_readKilsy_unknown {h : Nat} (hx : s.suspects[h]? = none) :
    exec (.readKilsy (some h)) s = .next { s.woken with sent := s.sent ++ [.returns 0x8001] } := by
  simp only [exec, execReadKilsy, s.woken_suspects, hx, State.mailRefused, s.woken_sent]

theorem exec_readErrors_all (die : Nat) : exec (.readErrors ⟨die, none⟩) s = .next
    { s.woken with sent := s.sent ++ [.reply [s.overwritten.getD die 0], .bytes false ((s.errors.getD die []).flatMap (·.bytes))] } := by
  obtain ⟨herrors, hover⟩ := s.woken_errors
  rw [← s.woken_sent, ← herrors, ← hover]
  rfl

theorem exec_readErrors_enabled (die : Nat) {p : Nat} (h : (s.part p).enable = true) : exec (.readErrors ⟨die, some p⟩) s = .next
    { s with sent := s.sent ++ [.bytes false ((s.errors.getD die []).filterMap fun e => e.seenBy p).flatten] } :=
  congrArg Host.Outcome.next (if_pos h)

theorem exec_readErrors_disabled (die : Nat) {p : Nat} (h : (s.part p).enable = false) :
    exec (.readErrors ⟨die, some p⟩) s = .next { s with sent := s.sent ++ [.unsupported] } :=
  congrArg Host.Outcome.next (if_neg (Bool.eq_false_iff.mp h))

theorem exec_wake_up (h : s.dev ≠ .maintenance) : exec .wake s = .next s.woken := congrArg Host.Outcome.next (if_neg h)

theorem exec_setTolerance_taken {n : Nat} (h : s.dev ≠ .maintenance) (hn : n < 2 ^ 32) :
    exec (.setTolerance n none) s = .next { s.woken with tolerance := n, a4Region := none } := by
  refine congrArg Host.Outcome.next (if_neg ?_)
  simp only [Bool.false_eq_true, or_false, not_or, not_le]
  exact ⟨h, hn⟩

theorem exec_updateConfig_refused (h : s.dev ≠ .maintenance) (hon : ∃ r ∈ s.parts.rows, r.2.enable = true) (c : BitVec 1280) :
    exec (.updateConfig c) s = .next { s.woken with sent := s.sent ++ [.returns 0x8001] } := by
  have hany : (s.woken.parts.rows.any (·.2.enable)) = true := by rwa [s.woken_parts, List.any_eq_true]
  rw [← s.woken_sent]
  exact congrArg Host.Outcome.next (if_pos ⟨h, hany⟩)

theorem exec_updateConfig_taken (h : s.dev = .maintenance ∨ ∀ r ∈ s.parts.rows, r.2.enable = false) (c : BitVec 1280) :
    exec (.updateConfig c) s = .next { s.woken with config := c } := by
  refine congrArg Host.Outcome.next (if_neg ?_)
  rintro ⟨hne, hany⟩
  rw [s.woken_parts, List.any_eq_true] at hany
  obtain ⟨r, hr, hon⟩ := hany
  exact h.elim hne fun hoff => Bool.false_ne_true ((hoff r hr).symm.trans hon)

end

/-! ### The starts -/

/-- Without an admin queue an error event writes its die's record alone. -/
theorem State.logError_of_no_ring {s : State} (h : s.adminRing = none) (e : ErrEntry) :
    ∃ es o, s.logError e = { s with errors := es, overwritten := o } := by
  unfold State.logError
  extract_lets die es s1
  have h1 : ∃ es o, s1 = { s with errors := es, overwritten := o } := by
    by_cases hroom : es.length ≤ 1024
    · exact ⟨_, _, if_pos hroom⟩
    · exact ⟨_, _, if_neg hroom⟩
  obtain ⟨es', o, h1⟩ := h1
  rw [h1, h]
  exact ⟨_, _, rfl⟩

/-- A core whose held names stand for no check takes nothing from any check. -/
theorem State.disregard_of_no_checks {s : State} {c : Nat} (h : ∀ n ∈ (s.core c).held, n.check = none) : s.disregard c = s :=
  List.foldlRecOn (motive := fun u : State => u = s) _ _ rfl fun u hu n hn => by rw [h n hn]; exact hu

/-- A scan that fails at a start touches the cores' records, the suspect intervals and the error records alone. -/
theorem State.failScan_eq {s : State} (h : s.adminRing = none) (old : State) (core : Nat) : ∃ cr su sd k t es o, s.failScan old core
    = { s with coreRecs := cr, suspects := su, suspectDropped := sd, kilsySeq := k, kilsyTime := t, errors := es, overwritten := o } := by
  unfold State.failScan
  extract_lets r names r1 s1
  have hsuspect : ∃ su sd, s1.suspect core = { s1 with suspects := su, suspectDropped := sd } := by
    unfold State.suspect
    extract_lets r2 x s2
    have h2 : ∃ su sd, s2 = { s1 with suspects := su, suspectDropped := sd } := by
      by_cases hroom : s1.suspects.length < 64
      · exact ⟨_, _, if_pos hroom⟩
      · exact ⟨_, _, if_neg hroom⟩
    obtain ⟨su, sd, h2⟩ := h2
    have hcore : s2.core core = r1 := by
      rw [h2]
      exact Table.getD_put_same _ _ _ _
    refine ⟨su, sd, (State.disregard_of_no_checks fun n hn => ?_).trans h2⟩
    rw [hcore] at hn
    obtain ⟨m, -, rfl⟩ := List.mem_map.mp hn
    rfl
  obtain ⟨su, sd, hsuspect⟩ := hsuspect
  obtain ⟨e, he⟩ := (s1.suspect core).setAside_eq core true
  obtain ⟨es, o, hlog⟩ := State.logError_of_no_ring (s := (s1.suspect core).updCore core fun r =>
    { r with aside := r.aside || !true, scanFailed := r.scanFailed || true, testing := false, targeted := false }) (by rw [hsuspect]; exact h) e
  rw [he, hlog, hsuspect]
  exact ⟨_, _, _, _, _, _, _, rfl⟩

/-- What a start leaves of a machine, whatever scans fail at it. -/
structure Started (s t : State) (cold : Bool) : Prop where
  dev : t.dev = .ready
  fails : t.startFails = 0
  launches : t.launches = Table.empty
  blocks : t.blocks = Table.empty
  groups : t.groups = Table.empty
  gates : t.gates = Table.empty
  keys : t.keys = Table.empty
  mem : t.mem = s.mem.filter fun c => !isDevice c.1
  count : t.startCount = (s.startCount + 1) % 2 ^ 32
  config : t.config = s.config
  calib : (t.calib, t.calibSum) = s.calibration cold
  ring : t.adminRing = none

theorem Started.failScan {s t : State} {cold : Bool} (h : Started s t cold) (old : State) (core : Nat) : Started s (t.failScan old core) cold := by
  obtain ⟨cr, su, sd, k, n, es, o, heq⟩ := State.failScan_eq h.ring old core
  rw [heq]
  exact ⟨h.dev, h.fails, h.launches, h.blocks, h.groups, h.gates, h.keys, h.mem, h.count, h.config, h.calib, h.ring⟩

theorem State.restarted_started (s : State) (cold : Bool) (failing : List Nat) : Started s (s.restarted cold failing) cold :=
  List.foldlRecOn (motive := fun u : State => Started s u cold) _ _ ⟨rfl, rfl, rfl, rfl, rfl, rfl, rfl, rfl, rfl, rfl, rfl, rfl⟩
    fun _ hu c _ => hu.failScan s c

theorem assocGet_filter_of_not {α : Type} (l : List (Nat × α)) {p : Nat × α → Bool} {k : Nat} (h : ∀ x, p (k, x) = false) : assocGet (l.filter p) k = none := by
  induction l with
  | nil => rfl
  | cons r l ih =>
    obtain ⟨n, x⟩ := r
    by_cases hk : k = n
    · rw [List.filter_cons_of_neg (by rw [← hk, h]; exact Bool.false_ne_true), ih]
    · by_cases hp : p (n, x) = true
      · rw [List.filter_cons_of_pos hp, assocGet, if_neg hk, ih]
      · rw [List.filter_cons_of_neg hp, ih]

/-- The device's memory reads zero. -/
theorem Started.read {s t : State} {cold : Bool} (h : Started s t cold) {a : Nat} (ha : isDevice a = true) : Memory.read t.mem a = 0 := by
  rw [h.mem, Memory.read, assocGet_filter_of_not _ fun x => by rw [ha]; rfl]
  rfl

section
variable {s : State} {cold ok : Bool} (failing : List Nat)

theorem State.start_verified (h : (ok && configKeeps s.config s.serial && Config.configVerifies s.config && (cold || s.calibSum == Config.calibrationSum s.calib)) = true) :
    s.start cold failing ok = s.restarted cold failing := if_pos h

theorem State.start_failed (h : (ok && configKeeps s.config s.serial && Config.configVerifies s.config && (cold || s.calibSum == Config.calibrationSum s.calib)) = false) :
    s.start cold failing ok = s.startFailed := if_neg (Bool.eq_false_iff.mp h)

end

theorem State.startFailed_counts (s : State) : s.startFailed.startFails = s.startFails + 1
    ∧ s.startFailed.dev = if s.startFails + 1 < 3 then .startingCold else .maintenance := by
  unfold State.startFailed
  extract_lets n reset lost ty
  obtain ⟨es, o, h⟩ := State.logError_of_no_ring (s := lost.count ((Config.freeByte s.free 1).toNat % 15) 1 none) rfl
    { ty := ty, code := 0, unit := 8, owner := none, core := 0, bank := 0, line := 0, launch := 0xFFFFFFFF, block := 0xFFFFFFFF }
  rw [h]
  exact ⟨rfl, rfl⟩

theorem Table.get_foldl_put_keys {α : Type} (f : Nat → α) (l : List Nat) (t : Table α) (k : Nat) :
    (l.foldl (fun m c => m.put c (f c)) t).get k = if k ∈ l then some (f k) else t.get k := by
  induction l generalizing t with
  | nil => rfl
  | cons c l ih =>
    rw [List.foldl_cons, ih]
    by_cases hk : k ∈ l
    · rw [if_pos hk, if_pos (List.mem_cons_of_mem c hk)]
    · by_cases hc : k = c
      · rw [if_neg hk, if_pos (List.mem_cons.mpr (.inl hc)), hc, Table.get_put_same]
      · rw [if_neg hk, if_neg (fun h => (List.mem_cons.mp h).elim hc hk), Table.get_put_ne _ _ hc]

/-- A core's record after a start in which no scan fails. -/
theorem State.restarted_core (s : State) {c : Nat} (hc : c < Config.cores) (cold : Bool) : (s.restarted cold []).core c = (s.core c).started cold := by
  have hrecs : (s.restarted cold []).coreRecs
      = (List.range Config.cores).foldl (fun (m : Table CoreRec) c => m.put c ((s.core c).started cold)) Table.empty := by
    simp only [State.restarted, List.filter_nil, List.eraseDups_nil, List.foldl_nil]
  rw [State.core, hrecs, Table.getD_eq, Table.get_foldl_put_keys (fun c => (s.core c).started cold), if_pos (List.mem_range.mpr hc), Option.getD_some]

end Sys2Proof.Machine

open Sys2Proof Sys2Proof.Machine

/-- Settles O58: waking changes the device's state alone, so each command of the mailbox answers as in the waking state; a start that verifies leaves the reset state but for what it carries over, whatever scans fail; one that does not counts. -/
theorem deviceEvents : Obligations.DeviceEvents := by
  unfold Obligations.DeviceEvents
  refine ⟨fun s => ⟨?_, fun h x hx => ?_, fun h hx => ?_, fun die => ?_, ?_, fun h => ⟨?_, fun n hn => ?_⟩, fun h => ?_, fun h hon c => ?_, fun h c => ?_, fun hdev hidle hlow => ?_, fun a ha => ?_⟩,
    fun s failing ok => ?_, fun s ok hfails hdev => ?_, fun s => ⟨?_, ?_⟩⟩
  · exact ⟨_, exec_readKilsy_record s, rfl⟩
  · exact ⟨_, exec_readKilsy_list s hx, rfl⟩
  · exact exec_readKilsy_unknown s hx
  · refine ⟨⟨_, exec_readErrors_all s die, rfl⟩, fun p hp => ⟨_, exec_readErrors_enabled s die hp, rfl, fun q hq => exec_readErrors_disabled s die hq⟩⟩
  · refine ⟨_, rfl, ?_⟩
    rfl
  · obtain ⟨d, hd⟩ := s.woken_eq
    refine ⟨_, exec_wake_up s h, ?_, fun a ha => ?_⟩
    · rw [hd]
    · rw [State.woken_of_power ha]
  · exact ⟨_, exec_setTolerance_taken s h hn, rfl, rfl, s.woken_mem⟩
  · refine ⟨congrArg Host.Outcome.next (if_pos h), fun n r => ?_⟩
    refine (congrArg Host.Outcome.next (if_pos (.inl h))).trans ?_
    rw [State.woken_of_maintenance h]
    rfl
  · exact exec_updateConfig_refused s h hon c
  · exact ⟨_, exec_updateConfig_taken s h c, rfl, s.woken_mem⟩
  · exact ⟨_, congrArg Host.Outcome.next (if_pos ⟨hdev, hidle, hlow⟩), rfl⟩
  · refine ⟨_, (congrArg Host.Outcome.next (if_neg fun h => Bool.false_ne_true h.2)).trans ?_, rfl⟩
    rw [State.woken_of_power ha]
  · have hgood : (ok && configKeeps s.config s.serial && Config.configVerifies s.config && (true || s.calibSum == Config.calibrationSum s.calib))
        = (ok && configKeeps s.config s.serial && Config.configVerifies s.config) := by rw [Bool.true_or, Bool.and_true]
    refine ⟨_, rfl, fun h => ?_, fun h => ?_⟩
    · rw [State.start_verified failing (hgood.trans h)]
      have hs := s.restarted_started true failing
      obtain ⟨hcalib, hsum⟩ := Prod.mk.inj hs.calib
      exact ⟨hs.dev, hs.fails, hs.launches, hs.blocks, hs.groups, hs.gates, hs.keys, fun a ha => hs.read ha, hs.count, hs.config,
        hsum.trans (congrArg Config.calibrationSum hcalib.symm)⟩
    · rw [State.start_failed failing (hgood.trans h)]
      exact s.startFailed_counts
  · have hwarm : exec (.startWarm ok) s = .next (s.start false [] ok) := by
      have hcold : decide (0 < s.startFails ∨ s.dev = .off) = false :=
        decide_eq_false fun h => h.elim (fun h => absurd hfails (Nat.ne_of_gt h)) hdev
      rw [← hcold]
      rfl
    refine ⟨_, hwarm, fun h => ?_, fun h => ?_⟩
    · have hs := s.restarted_started false []
      obtain ⟨hcalib, hsum⟩ := Prod.mk.inj hs.calib
      rw [State.start_verified [] h]
      refine ⟨hs.dev, rfl, hs.groups, rfl, hcalib, hsum, fun a ha => hs.read ha, fun c hc => ?_⟩
      rw [s.restarted_core hc]
      exact ⟨rfl, rfl⟩
    · rw [State.start_failed [] h]
      obtain ⟨hcount, hdev⟩ := s.startFailed_counts
      rw [hfails] at hcount hdev
      exact ⟨hcount, hdev⟩
  · obtain ⟨es, o, r, m, v, h⟩ := ({ s with throttled := true, free := s.free + 1 } : State).logError_eq
      { ty := 1 + (Config.freeByte s.free 0).toNat % 18, code := 0, unit := 8, owner := none, core := 0, bank := 0, line := 0,
        launch := 0xFFFFFFFF, block := 0xFFFFFFFF }
    refine ⟨_, congrArg Host.Outcome.next h, rfl, rfl, rfl⟩
  · exact ⟨_, rfl, rfl, rfl, rfl, rfl, rfl⟩
end
section
/-! PROOFS. A proposal that admits a member and is acknowledged at once takes the place of one that waits for operations in flight (19 R398, R404), which the statement on it leaves as it was. Refutes O59. -/

namespace Sys2Proof.Machine
open Sys2Proof

/-- A group of members 0 and 1, seen from member 0, where a join's proposal of member 1 waits. -/
def joinWaits : CollGroup :=
  { part := 0, slot := 0, fabric := [], view := 0, members := 3, member := true, joining := false, opNum := 0, stale := 0, digest := none,
    ops := Table.empty, suspects := 0, joiner := none, acked := none, proposed := none, acks := 0, heard := 3, lastReason := 0, pending := some (1, 7) }

/-- The group stands under number 0, with no operation in flight. -/
def proposalWaits : State := { State.reset with colls := ⟨[(0, joinWaits)]⟩ }

/-- A proposal that admits member 2, acknowledged at once, leaves none waiting. -/
theorem proposalWaits_propose {t : State} (ht : exec (.propose 0 1 1 7) proposalWaits = .next t) :
    (t.colls.get 0).map (·.pending) = some none := by
  cases ht
  decide +kernel

end Sys2Proof.Machine

open Sys2Proof Sys2Proof.Machine

/-- Refutes O59: an acknowledgement of a proposal that admits a member clears what waits on operations in flight, as an acknowledgement of any other does, but the clause on it keeps the group's waiting proposal as it was. -/
theorem not_membershipEvents : ¬ Obligations.MembershipEvents := by
  rintro ⟨-, -, hsteps, -⟩
  obtain ⟨-, -, -, hadmits, -⟩ := hsteps proposalWaits 0 joinWaits rfl rfl
  obtain ⟨t, ht, -, hget, -⟩ := (hadmits 1 7 (by decide) (by decide +kernel) (by decide) rfl).2 rfl
  have hnone := proposalWaits_propose ht
  rw [hget] at hnone
  exact absurd hnone (by decide)
end
section
/-! PROOFS. What the debugger's holds and releases change of blocks and groups, and what they leave as it was. -/

namespace Sys2Proof.Machine
open Sys2Proof

/-- The launches, tile sets, keys, dump counters and the list of partitions as they were. -/
structure SameJobs (s t : State) : Prop where
  launches : t.launches = s.launches
  sets : t.sets = s.sets
  keys : t.keys = s.keys
  dumpCounts : t.dumpCounts = s.dumpCounts
  parts : ∀ p, (t.parts.get p).isSome = (s.parts.get p).isSome

namespace SameJobs
variable {s t u : State}

theorem refl (s : State) : SameJobs s s := ⟨rfl, rfl, rfl, rfl, fun _ => rfl⟩

theorem trans (h : SameJobs s t) (k : SameJobs t u) : SameJobs s u :=
  ⟨k.launches.trans h.launches, k.sets.trans h.sets, k.keys.trans h.keys, k.dumpCounts.trans h.dumpCounts, fun p => (k.parts p).trans (h.parts p)⟩

theorem foldl {α : Type} {f : State → α → State} (hf : ∀ t x, SameJobs t (f t x)) (xs : List α) (s : State) : SameJobs s (xs.foldl f s) := by
  induction xs generalizing s with
  | nil => exact .refl s
  | cons x xs ih => exact (hf s x).trans (ih _)

theorem updBlock (s : State) (bid : Nat) (f : Block → Block) : SameJobs s (s.updBlock bid f) := ⟨rfl, rfl, rfl, rfl, fun _ => rfl⟩

theorem updPart_pokes (s : State) (p : Nat) (f : Part → Part) (ws : List (Nat × List Byte)) : SameJobs s ((s.updPart p f).pokes ws) := by
  obtain ⟨m, v, h⟩ := State.pokes_eq (s.updPart p f) ws
  rw [h]
  refine ⟨rfl, rfl, rfl, rfl, fun q => ?_⟩
  simp only [State.updPart_get]
  split <;> simp_all

theorem debugRecord (s : State) (p : Nat) (r : List Byte) : SameJobs s (s.debugRecord p r) := by
  rw [State.debugRecord]
  split
  · exact .refl s
  · exact updPart_pokes _ _ _ _

theorem trace (s : State) (b : Block) (l : Launch) (seg gidx kind chan : Nat) (pc : Addr) (w : Nat) (value : Option Nat) :
    SameJobs s (s.trace b l seg gidx kind chan pc w value) := by
  rw [State.trace]
  extract_lets
  split
  · exact .refl s
  · refine iteInduction (motive := SameJobs s) (fun _ => .refl s) fun _ => ?_
    exact updPart_pokes _ _ _ _

theorem endWaits (s : State) (bid : Nat) : SameJobs s (s.endWaits bid) := by
  refine ⟨rfl, rfl, rfl, rfl, fun p => ?_⟩
  change ((Table.map s.parts _).get p).isSome = _
  rw [Table.get_map, Option.isSome_map]

end SameJobs

theorem State.debugRecord_blocks (s : State) (p : Nat) (r : List Byte) : (s.debugRecord p r).blocks = s.blocks := by
  rw [State.debugRecord]
  split
  · rfl
  next r' _ =>
    obtain ⟨m, v, h⟩ := State.pokes_eq (s.updPart p fun q => { q with debugRing := some (ringPut s.mem r' 64 (r ++ List.replicate ((64 - r.length % 64) % 64) 0)).2 })
      (ringPut s.mem r' 64 (r ++ List.replicate ((64 - r.length % 64) % 64) 0)).1
    exact (congrArg State.blocks h :)

theorem State.trace_blocks (s : State) (b : Block) (l : Launch) (seg gidx kind chan : Nat) (pc : Addr) (w : Nat) (value : Option Nat) :
    (s.trace b l seg gidx kind chan pc w value).blocks = s.blocks := by
  obtain ⟨ps, m, v, h⟩ := State.trace_eq (s := s) b l seg gidx kind chan pc w value
  rw [h]

/-! ### Holding a block (21 R412) -/

/-- What a hold leaves in each block that it stops. -/
def Hold.of (cause bp code : Nat) : Hold := { cause := cause, bp := bp, code := code, step := none }

/-- holdBlock's part for one block of the unit that stops at `s`: its records, then its hold. -/
def State.holdMember (s : State) (cause bp code : Nat) (pc : Addr) (gidx : Nat) (t : State) (i : Nat) : State :=
  match s.blocks.get i with
  | none => t
  | some x =>
    match s.launches.get x.launch with
    | none => t
    | some l =>
      let t1 := if cause ≠ 4 ∨ (s.part l.part).debugger.isSome then t.debugRecord l.part (s.stopRecord i x l cause bp code) else t
      (t1.trace x l (s.segOf i x) gidx 2 0 pc 0 none).updBlock i fun y => { y with hold := some (Hold.of cause bp code) }

variable {s t : State} {bid i cause bp code gidx : Nat} {pc : Addr} {b x : Block} {l : Launch}

theorem State.holdBlock_of_holdable (hb : s.blocks.get bid = some b) (hh : s.holdable b = true) :
    s.holdBlock bid cause bp code pc gidx = (s.unit bid).foldl (s.holdMember cause bp code pc gidx) (s.endWaits bid) := by
  have hq : b.hold.isNone = true ∧ ¬(b.life = .quiesced ∨ b.quiesce.isSome = true) := by
    revert hh
    simp only [State.holdable]
    cases b.hold <;> cases b.quiesce <;> cases b.life <;> simp
  simp only [State.holdBlock, hb, hq, hh, and_false, if_false, Bool.not_true]
  rfl

theorem State.holdBlock_cases (s : State) (bid cause bp code : Nat) (pc : Addr) (gidx : Nat) :
    s.holdBlock bid cause bp code pc gidx = s
    ∨ (∃ b, s.blocks.get bid = some b ∧ (b.life = .quiesced ∨ b.quiesce.isSome = true)
      ∧ s.holdBlock bid cause bp code pc gidx = s.updBlock bid fun b => { b with holdAtResume := b.holdAtResume.or (some (Hold.of cause bp code)) })
    ∨ s.holdBlock bid cause bp code pc gidx = (s.unit bid).foldl (s.holdMember cause bp code pc gidx) (s.endWaits bid) := by
  cases hb : s.blocks.get bid with
  | none => exact .inl (by simp only [State.holdBlock, hb])
  | some b =>
    by_cases hh : s.holdable b = true
    · exact .inr (.inr (State.holdBlock_of_holdable hb hh))
    · by_cases hq : b.run ≤ 1 ∧ b.hold.isNone ∧ (b.life = .quiesced ∨ b.quiesce.isSome)
      · exact .inr (.inl ⟨b, rfl, hq.2.2, by simp only [State.holdBlock, hb, if_pos hq]; rfl⟩)
      · exact .inl (by simp only [State.holdBlock, hb, if_neg hq, hh]; rfl)

theorem State.holdMember_blocks (hx : s.blocks.get i = some x) (hl : s.launches.get x.launch = some l) (t : State) :
    (s.holdMember cause bp code pc gidx t i).blocks = t.blocks.upd i fun y => { y with hold := some (Hold.of cause bp code) } := by
  simp only [State.holdMember, hx, hl, State.updBlock, State.trace_blocks]
  split
  · rw [State.debugRecord_blocks]
  · rfl

theorem State.holdMember_blocks_cases (s : State) (cause bp code : Nat) (pc : Addr) (gidx : Nat) (t : State) (i : Nat) :
    (s.holdMember cause bp code pc gidx t i).blocks = t.blocks
    ∨ (s.holdMember cause bp code pc gidx t i).blocks = t.blocks.upd i fun y => { y with hold := some (Hold.of cause bp code) } := by
  cases hx : s.blocks.get i with
  | none => exact .inl (by simp only [State.holdMember, hx])
  | some x =>
    cases hl : s.launches.get x.launch with
    | none => exact .inl (by simp only [State.holdMember, hx, hl])
    | some l => exact .inr (State.holdMember_blocks hx hl t)

theorem SameJobs.holdMember (s : State) (cause bp code : Nat) (pc : Addr) (gidx : Nat) (t : State) (i : Nat) :
    SameJobs t (s.holdMember cause bp code pc gidx t i) := by
  simp only [State.holdMember]
  split
  · exact .refl t
  · split
    · exact .refl t
    · refine .trans ?_ (.trans (.trace _ _ _ _ _ _ _ _ _ _) (.updBlock _ _ _))
      split
      · exact .debugRecord _ _ _
      · exact .refl t

theorem SameJobs.holdBlock (s : State) (bid cause bp code : Nat) (pc : Addr) (gidx : Nat) : SameJobs s (s.holdBlock bid cause bp code pc gidx) := by
  rcases State.holdBlock_cases s bid cause bp code pc gidx with h | ⟨b, -, -, h⟩ | h
  · rw [h]; exact .refl s
  · rw [h]; exact .updBlock _ _ _
  · rw [h]; exact (SameJobs.endWaits s bid).trans (.foldl (.holdMember s cause bp code pc gidx) _ _)

/-- Block `bid` stands as `b`, held by `h` or as it was. -/
def MayHold (bid : Nat) (b : Block) (h : Hold) (t : State) : Prop :=
  t.blocks.get bid = some b ∨ t.blocks.get bid = some { b with hold := some h }

theorem MayHold.upd {h : Hold} (ht : MayHold bid b h t) (i : Nat) : MayHold bid b h (t.updBlock i fun y => { y with hold := some h }) := by
  rw [MayHold, State.updBlock_get]
  by_cases hi : bid = i
  · subst hi
    rcases ht with ht | ht <;> simp [ht]
  · rw [if_neg hi]
    exact ht

theorem MayHold.holdMember (ht : MayHold bid b (Hold.of cause bp code) t) (s : State) (i : Nat) :
    MayHold bid b (Hold.of cause bp code) (s.holdMember cause bp code pc gidx t i) := by
  rcases State.holdMember_blocks_cases s cause bp code pc gidx t i with h | h
  · rwa [MayHold, h]
  · have := ht.upd i
    rwa [MayHold, h]

theorem MayHold.foldl {α : Type} {h : Hold} {f : State → α → State} (hf : ∀ t x, MayHold bid b h t → MayHold bid b h (f t x)) (xs : List α)
    (ht : MayHold bid b h t) : MayHold bid b h (xs.foldl f t) := by
  induction xs generalizing t with
  | nil => exact ht
  | cons x xs ih => exact ih (hf _ _ ht)

/-- A hold of any block leaves a block that is not being quiesced as it was, or held. -/
theorem MayHold.holdBlock (hlife : b.life ≠ .quiesced) (hq : b.quiesce = none) (ht : MayHold bid b (Hold.of cause bp code) t) (i : Nat) :
    MayHold bid b (Hold.of cause bp code) (t.holdBlock i cause bp code pc gidx) := by
  rcases State.holdBlock_cases t i cause bp code pc gidx with h | ⟨x, hx, hl, h⟩ | h
  · rwa [h]
  · have hne : bid ≠ i := by
      rintro rfl
      rcases ht with ht | ht <;> (rw [ht] at hx; cases hx; simp_all)
    rw [h, MayHold, State.updBlock_get, if_neg hne]
    exact ht
  · rw [h]
    exact MayHold.foldl (fun u j hu => hu.holdMember t j) _ ht

theorem MayHold.of_held {h : Hold} (ht : t.blocks.get bid = some { b with hold := some h }) : MayHold bid { b with hold := some h } h t := .inl ht

theorem MayHold.held {h : Hold} (ht : MayHold bid { b with hold := some h } h t) : t.blocks.get bid = some { b with hold := some h } := ht.elim id id

theorem State.unit_of_set_none (hb : s.blocks.get bid = some b) (hset : b.set = none) : s.unit bid = [bid] := by
  simp [State.unit, hb, hset]

theorem State.holdable_iff_of_set_none (hset : b.set = none) :
    s.holdable b = true ↔ b.run ≤ 1 ∧ b.hold = none ∧ b.quiesce = none ∧ b.life = .resident := by
  simp only [State.holdable, hset]
  cases b.life <;> simp [and_assoc]

/-- The hold of a block of no set, alone in its unit. -/
theorem State.holdBlock_get (hb : s.blocks.get bid = some b) (hset : b.set = none) (hl : s.launches.get b.launch = some l) (hh : s.holdable b = true) :
    (s.holdBlock bid cause bp code pc gidx).blocks.get bid = some { b with hold := some (Hold.of cause bp code) } := by
  rw [State.holdBlock_of_holdable hb hh, State.unit_of_set_none hb hset, List.foldl_cons, List.foldl_nil, State.holdMember_blocks hb hl]
  change ((s.endWaits bid).updBlock bid _).blocks.get bid = _
  rw [State.updBlock_get, if_pos rfl]
  change Option.map _ (s.blocks.get bid) = _
  rw [hb, Option.map_some]

/-- Among the blocks that a command holds, one that may be held and stands in no set is held. -/
theorem State.foldl_holdBlock_get {rows : List (Nat × Block)} (hmem : (bid, b) ∈ rows) (hb : s.blocks.get bid = some b) (hset : b.set = none)
    (hl : s.launches.get b.launch = some l) (hh : s.holdable b = true) :
    (rows.foldl (fun s r => s.holdBlock r.1 cause bp code pc gidx) s).blocks.get bid = some { b with hold := some (Hold.of cause bp code) } := by
  obtain ⟨before, after, rfl⟩ := List.append_of_mem hmem
  obtain ⟨hrun, hhold, hq, hlife⟩ := (State.holdable_iff_of_set_none hset).1 hh
  have hres : b.life ≠ .quiesced := by rw [hlife]; exact nofun
  rw [List.foldl_append, List.foldl_cons]
  set u := before.foldl (fun s r => s.holdBlock r.1 cause bp code pc gidx) s with hu
  have hsame : SameJobs s u := .foldl (fun t r => .holdBlock t r.1 cause bp code pc gidx) before s
  have hmay : MayHold bid b (Hold.of cause bp code) u := MayHold.foldl (fun t r ht => ht.holdBlock hres hq r.1) before (.inl hb)
  have hown : (u.holdBlock bid cause bp code pc gidx).blocks.get bid = some { b with hold := some (Hold.of cause bp code) } := by
    rcases hmay with h | h
    · have hhu : u.holdable b = true := (State.holdable_iff_of_set_none hset).2 ⟨hrun, hhold, hq, hlife⟩
      exact State.holdBlock_get h hset (by rw [hsame.launches]; exact hl) hhu
    · exact (MayHold.holdBlock (b := { b with hold := some (Hold.of cause bp code) }) hres hq (.of_held h) bid).held
  exact (MayHold.foldl (fun t r ht => ht.holdBlock (b := { b with hold := some (Hold.of cause bp code) }) hres hq r.1) after (.of_held hown)).held

/-! ### Releasing a block -/

theorem State.foldl_updBlock_eq (f : Block → Block) (xs : List Nat) (s : State) :
    xs.foldl (fun s i => s.updBlock i f) s = { s with blocks := xs.foldl (fun t i => t.upd i f) s.blocks } := by
  induction xs generalizing s with
  | nil => rfl
  | cons x xs ih => rw [List.foldl_cons, ih]; rfl

theorem State.releaseBlock_eq (s : State) (bid : Nat) :
    s.releaseBlock bid = { s with
      groups := s.groups.map fun _ (g : Group) =>
        if (s.unit bid).contains g.block then { g with frags := g.frags.map fun _ (f : Frag) => { f with free := true, ready := s.tick } } else g,
      blocks := (s.unit bid).foldl (fun t i => t.upd i fun b => { b with hold := none }) s.blocks } :=
  State.foldl_updBlock_eq _ _ _

theorem SameJobs.releaseBlock (s : State) (bid : Nat) : SameJobs s (s.releaseBlock bid) := by
  rw [State.releaseBlock_eq]
  exact ⟨rfl, rfl, rfl, rfl, fun _ => rfl⟩

/-- Block `bid` stands as `b`, released or as it was. -/
def MayRelease (bid : Nat) (b : Block) (t : State) : Prop := t.blocks.get bid = some b ∨ t.blocks.get bid = some { b with hold := none }

theorem MayRelease.releaseBlock (ht : MayRelease bid b t) (i : Nat) : MayRelease bid b (t.releaseBlock i) := by
  have hstep : ∀ (xs : List Nat) (u : Table Block), (u.get bid = some b ∨ u.get bid = some { b with hold := none }) →
      let v := xs.foldl (fun t i => t.upd i fun b => { b with hold := none }) u
      v.get bid = some b ∨ v.get bid = some { b with hold := none } := by
    intro xs
    induction xs with
    | nil => exact fun u hu => hu
    | cons x xs ih =>
      intro u hu
      refine ih _ ?_
      rw [Table.get_upd]
      split
      · rcases hu with hu | hu <;> simp_all
      · exact hu
  rw [MayRelease, State.releaseBlock_eq]
  exact hstep _ _ ht

theorem MayRelease.foldl {α : Type} (f : α → Nat) (xs : List α) (ht : MayRelease bid b t) : MayRelease bid b (xs.foldl (fun s r => s.releaseBlock (f r)) t) := by
  induction xs generalizing t with
  | nil => exact ht
  | cons x xs ih => exact ih (ht.releaseBlock _)

theorem State.releaseBlock_get (hb : s.blocks.get bid = some b) (hset : b.set = none) :
    (s.releaseBlock bid).blocks.get bid = some { b with hold := none } := by
  rw [State.releaseBlock_eq, State.unit_of_set_none hb hset]
  change ((s.blocks).upd bid _).get bid = _
  rw [Table.get_upd, if_pos rfl, hb, Option.map_some]

/-- The release of every held block among `rows`: a block of no set that stands there is released. -/
theorem State.foldl_releaseBlock_get {rows : List (Nat × Block)} (hb : s.blocks.get bid = some b) (hset : b.set = none) (hmem : b.hold = none ∨ (bid, b) ∈ rows) :
    (rows.foldl (fun s r => s.releaseBlock r.1) s).blocks.get bid = some { b with hold := none } := by
  rcases hmem with hnone | hmem
  · rcases MayRelease.foldl (fun r : Nat × Block => r.1) rows (.inl hb : MayRelease bid b s) with h | h
    · rw [h, ← hnone]
    · exact h
  · obtain ⟨before, after, rfl⟩ := List.append_of_mem hmem
    rw [List.foldl_append, List.foldl_cons]
    have hown : ((before.foldl (fun s r => s.releaseBlock r.1) s).releaseBlock bid).blocks.get bid = some { b with hold := none } := by
      rcases MayRelease.foldl (fun r : Nat × Block => r.1) before (.inl hb : MayRelease bid b s) with h | h
      · exact State.releaseBlock_get h hset
      · exact State.releaseBlock_get (b := { b with hold := none }) h hset
    exact (MayRelease.foldl (fun r : Nat × Block => r.1) after (.inl hown)).elim id id

theorem State.foldl_releaseBlock_rest {α : Type} (f : α → Nat) (xs : List α) (s : State) :
    ∃ gs bs, xs.foldl (fun s r => s.releaseBlock (f r)) s = { s with groups := gs, blocks := bs } := by
  induction xs generalizing s with
  | nil => exact ⟨_, _, rfl⟩
  | cons x xs ih =>
    obtain ⟨gs, bs, h⟩ := ih (s.releaseBlock (f x))
    refine ⟨gs, bs, ?_⟩
    rw [List.foldl_cons, h, State.releaseBlock_eq]

end Sys2Proof.Machine
end
section
/-! PROOFS. The debugger's commands on a partition and on the blocks it holds. -/

namespace Sys2Proof.Machine
open Sys2Proof

variable {s : State} {p : Nat}

/-! ### Commands on a partition (21 R412 to R421) -/

theorem execDebugAttach_next (hp : (s.parts.get p).isSome = true) (stops : Bool) (hd : (s.part p).debugger = none) :
    ∃ t, execDebugAttach p stops s = .next t ∧ ({ t with parts := s.parts } : State) = s ∧ (t.part p).debugger = some stops := by
  refine ⟨s.updPart p fun q => { q with debugger := some stops }, ?_, rfl, ?_⟩
  · rw [execDebugAttach, hd]
    rfl
  · rw [State.updPart_part hp]

/-- Whether a block is one of a partition's, by its launch. -/
def State.blockOf (s : State) (p : Nat) (b : Block) : Bool :=
  match s.launches.get b.launch with
  | some l => decide (l.part = p)
  | none => false

theorem State.blockOf_eq_true {b : Block} {l : Launch} (hl : s.launches.get b.launch = some l) (hp : l.part = p) : s.blockOf p b = true := by
  simp only [State.blockOf, hl, hp, decide_true]

/-- The blocks that a debugger which leaves a partition releases. -/
def State.heldRows (s : State) (p : Nat) : List (Nat × Block) := s.blocks.rows.filter fun r => r.2.hold.isSome && s.blockOf p r.2

theorem State.mem_heldRows {bid : Nat} {b : Block} (hb : s.blocks.get bid = some b) (hof : s.blockOf p b = true) :
    b.hold = none ∨ (bid, b) ∈ s.heldRows p := by
  cases hh : b.hold with
  | none => exact .inl rfl
  | some h => exact .inr (List.mem_filter.2 ⟨mem_of_assocGet hb, by simp [hh, hof]⟩)

/-- The machine when the debugger has left: the held blocks released and their later holds dropped. -/
def State.detachedFrom (s : State) (p : Nat) : State :=
  let s1 := (s.heldRows p).foldl (fun s r => s.releaseBlock r.1) s
  ({ s1 with blocks := s1.blocks.map fun _ b => if s.blockOf p b then { b with holdAtResume := none } else b } : State).updPart p
    fun q => { q with debugger := none, bps := Table.empty }

theorem State.execDebugDetach_eq (hd : (s.part p).debugger.isSome = true) : execDebugDetach p s = .next (s.detachedFrom p) := by
  have hn : (s.part p).debugger.isNone = false := by rw [Option.isNone_eq_false_iff]; exact hd
  rw [execDebugDetach, hn]
  rfl

theorem State.detachedFrom_mem (s : State) (p : Nat) : (s.detachedFrom p).mem = s.mem := by
  obtain ⟨gs, bs, h⟩ := State.foldl_releaseBlock_rest (fun r : Nat × Block => r.1) (s.heldRows p) s
  exact (congrArg State.mem h :)

theorem State.detachedFrom_part (hp : (s.parts.get p).isSome = true) :
    ((s.detachedFrom p).part p).debugger = none ∧ ((s.detachedFrom p).part p).bps = Table.empty := by
  obtain ⟨gs, bs, h⟩ := State.foldl_releaseBlock_rest (fun r : Nat × Block => r.1) (s.heldRows p) s
  have hparts : ((s.heldRows p).foldl (fun s r => s.releaseBlock r.1) s).parts = s.parts := (congrArg State.parts h :)
  simp only [State.detachedFrom]
  rw [State.updPart_part (by rw [← hparts] at hp; exact hp)]
  exact ⟨rfl, rfl⟩

theorem State.detachedFrom_block {bid : Nat} {b : Block} (hb : s.blocks.get bid = some b) (hset : b.set = none) (hof : s.blockOf p b = true) :
    (s.detachedFrom p).blocks.get bid = some { b with hold := none, holdAtResume := none } := by
  have hrel := State.foldl_releaseBlock_get hb hset (State.mem_heldRows hb hof)
  have hof' : s.blockOf p { b with hold := none } = true := hof
  change (Table.map _ _).get bid = _
  rw [Table.get_map, hrel, Option.map_some, if_pos hof']

theorem execDebugSetBp_next (hp : (s.parts.get p).isSome = true) {n : Nat} {a : Addr} (lid : Nat) (hs : s.stops p = true) (hn : n ≤ 7) (ha : a.toNat % 8 = 0) :
    ∃ t, execDebugSetBp p n a lid s = .next t ∧ ({ t with parts := s.parts } : State) = s ∧ (t.part p).bps.get n = some { addr := a, launch := lid } := by
  have hok : (!s.stops p || decide (7 < n) || decide (a.toNat % 8 ≠ 0)) = false := by simp [hs, ha]; omega
  refine ⟨s.updPart p fun q => { q with bps := q.bps.put n { addr := a, launch := lid } }, ?_, rfl, ?_⟩
  · rw [execDebugSetBp, hok]
    rfl
  · rw [State.updPart_part hp, Table.get_put_same]

theorem execDebugClrBp_next (hp : (s.parts.get p).isSome = true) (n : Nat) (hwf : (s.part p).bps.wf = true) :
    ∃ t, execDebugClrBp p n s = .next t ∧ ({ t with parts := s.parts } : State) = s ∧ (t.part p).bps.get n = none := by
  refine ⟨_, rfl, rfl, ?_⟩
  rw [State.updPart_part hp, Table.get_del hwf, if_pos rfl]

theorem Part.vd_put (q : Part) (v : Nat) (x : Vdev) : ({ q with vdev := q.vdev.put v x } : Part).vd v = x := by
  rw [Part.vd, Table.getD_put_same]

theorem execTraceEnable_next (hp : (s.parts.get p).isSome = true) (v : Nat) (on : Bool) (ch : BitVec 16) (ks : BitVec 8) :
    ∃ t, execTraceEnable p v on ch ks s = .next t ∧ ({ t with parts := s.parts } : State) = s
      ∧ ((t.part p).vd v).trace = on ∧ ((t.part p).vd v).channels = ch ∧ ((t.part p).vd v).kinds = ks ∧ ((t.part p).vd v).balance = ((s.part p).vd v).balance := by
  refine ⟨_, rfl, rfl, ?_⟩
  rw [State.updPart_part hp, Part.vd_put]
  exact ⟨rfl, rfl, rfl, rfl⟩

/-- The registration of a ring, with its record at zero. -/
def Ring.fresh (d base n : Nat) : Ring := { desc := d, base := base, entries := n, windex := 0, dropped := 0 }

/-- A partition with a ring of a kind. -/
def Part.withRing (q : Part) (ring : RingKind) (r : Ring) : Part :=
  match ring with
  | .debug _ => { q with debugRing := some r }
  | .sample v _ => { q with sampleRings := q.sampleRings.put v r }
  | .trace v _ => { q with traceRings := q.traceRings.put v r }

theorem execRingRegister_next (hp : (s.parts.get p).isSome = true) {ring : RingKind} {base n : Nat} (hok : ringOk base n = true)
    (hd : RingKind.desc ring % 64 = 0) (ha : isHost (RingKind.desc ring) = true ∨ isDevice (RingKind.desc ring) = true) :
    ∃ t, execRingRegister p ring base n s = .next t ∧ t.part p = (s.part p).withRing ring (.fresh (RingKind.desc ring) base n) := by
  have hgo : (!ringOk base n || decide (RingKind.desc ring % 64 ≠ 0) || !(isHost (RingKind.desc ring) || isDevice (RingKind.desc ring))) = false := by
    rcases ha with ha | ha <;> simp [hok, hd, ha]
  refine ⟨(s.updPart p fun q => q.withRing ring (.fresh (RingKind.desc ring) base n)).poke (RingKind.desc ring + 0x14) (List.replicate 20 0), ?_, ?_⟩
  · simp only [execRingRegister]
    rw [hgo]
    cases ring <;> rfl
  · rw [State.poke_part, State.updPart_part hp]

theorem execDebugWrite_sampling (hp : (s.parts.get p).isSome = true) {v lid idx : Nat} {vd : Vdev} {m : Word} (hd : (s.part p).debugger.isSome = true)
    (hv : (s.part p).vdev.get v = some vd) :
    ∃ t x, execDebugWrite p lid idx (.sampling v) [m] s = .next t ∧ ({ t with parts := s.parts } : State) = s ∧ (t.part p).vdev.get v = some x
      ∧ x.sampling = (m != 0) ∧ (m ≠ 0 → x.mean = min (max m.toNat 256) (2 ^ 24)) := by
  have hn : (s.part p).debugger.isNone = false := by rw [Option.isNone_eq_false_iff]; exact hd
  have hrun : execDebugWrite p lid idx (.sampling v) [m] s = .next (s.setSampling p v (if m.toNat = 0 then none else some m.toNat)) := by
    simp only [execDebugWrite, hn]
    rfl
  by_cases hm : m = 0
  · subst hm
    refine ⟨_, { vd with sampling := false }, hrun, rfl, ?_, rfl, fun h => absurd rfl h⟩
    rw [State.setSampling, State.updPart_part hp, Table.get_upd, if_pos rfl, hv]
    rfl
  · have hm0 : m.toNat ≠ 0 := fun h => hm (BitVec.eq_of_toNat_eq h)
    rw [if_neg hm0] at hrun
    refine ⟨_, { vd with sampling := true, mean := min (max m.toNat 256) (2 ^ 24), seed := if toWord s.now = 0 then 0x6D2B79F5 else toWord s.now, gens := Table.empty },
      hrun, rfl, ?_, (bne_iff_ne.2 hm).symm, fun _ => rfl⟩
    rw [State.setSampling, State.updPart_part hp, Table.get_upd, if_pos rfl, hv]
    rfl

/-! ### Holding and releasing by name (21 R412, R416) -/

theorem State.mem_named {lid idx bid : Nat} {b : Block} {l : Launch} (hb : s.blocks.get bid = some b) (hl : s.launches.get b.launch = some l)
    (hp : l.part = p) (hlid : l.ident = lid) (hidx : idx = 0xFFFFFFFF ∨ b.index = idx) : (bid, b) ∈ s.named p lid idx := by
  refine List.mem_filter.2 ⟨mem_of_assocGet hb, ?_⟩
  simpa [hl, hp, hlid] using hidx

theorem execDebugHold_next {lid idx bid : Nat} {b : Block} {l : Launch} (hs : s.stops p = true) (hb : s.blocks.get bid = some b)
    (hl : s.launches.get b.launch = some l) (hp : l.part = p) (hlid : l.ident = lid) (hidx : idx = 0xFFFFFFFF ∨ b.index = idx)
    (hh : s.holdable b = true) (hset : b.set = none) :
    ∃ t, execDebugHold p lid idx s = .next t ∧ t.blocks.get bid = some { b with hold := some (Hold.of 2 0 0) } := by
  have hmem := State.mem_named hb hl hp hlid hidx
  have hgo : (!s.stops p || (s.named p lid idx).isEmpty) = false := by
    simp only [hs, Bool.not_true, Bool.false_or, List.isEmpty_eq_false_iff]
    exact List.ne_nil_of_mem hmem
  refine ⟨_, ?_, State.foldl_holdBlock_get (cause := 2) (bp := 0) (code := 0) (pc := 0) (gidx := 0) hmem hb hset hl hh⟩
  rw [execDebugHold, hgo]
  rfl

theorem State.get_of_heldBlock {lid idx bid : Nat} {b : Block} (hwf : s.blocks.wf = true) (h : s.heldBlock p lid idx = some (bid, b)) :
    s.blocks.get bid = some b :=
  assocGet_of_mem hwf (List.mem_of_mem_filter (List.mem_of_find?_eq_some h))

variable {lid idx bid : Nat} {b : Block}

theorem execDebugRelease_next (h : s.heldBlock p lid idx = some (bid, b)) (hwf : s.blocks.wf = true) (hset : b.set = none) :
    ∃ t y, execDebugRelease p lid idx s = .next t ∧ t.mem = s.mem ∧ t.blocks.get bid = some y ∧ y.hold = none ∧ y.store = b.store
      ∧ ∀ u g, s.groups.get u = some g → g.block = bid → ∃ h, t.groups.get u = some h ∧ SameRegs g h ∧ ∀ r ∈ h.frags.rows, r.2.free = true := by
  have hb := State.get_of_heldBlock hwf h
  refine ⟨s.releaseBlock bid, { b with hold := none }, ?_, ?_, State.releaseBlock_get hb hset, rfl, rfl, ?_⟩
  · rw [execDebugRelease, h]
  · rw [State.releaseBlock_eq]
  · intro u g hg hgb
    have hin : ([bid] : List Nat).contains g.block = true := by rw [hgb]; simp
    refine ⟨{ g with frags := g.frags.map fun _ (f : Frag) => { f with free := true, ready := s.tick } }, ?_, ⟨rfl, rfl, rfl, rfl, rfl⟩, ?_⟩
    · rw [State.releaseBlock_eq, State.unit_of_set_none hb hset]
      change (Table.map _ _).get u = _
      rw [Table.get_map, hg, Option.map_some, if_pos hin]
    · intro r hr
      obtain ⟨x, -, rfl⟩ := List.mem_map.1 hr
      rfl

theorem execDebugOne_next (h : s.heldBlock p lid idx = some (bid, b)) (hwf : s.blocks.wf = true) {u : Nat} {g : Group} {i fid : Nat} {f : Frag}
    (hfind : s.groupAt bid i = some (u, g)) (hlow : g.fragOfLowest g.liveLanes = some fid) (hf : g.frags.get fid = some f) (hgwf : s.groups.wf = true) :
    ∃ t y h, execDebugOne p lid idx i s = .next t ∧ t.mem = s.mem ∧ t.blocks.get bid = some y ∧ y.hold = b.hold.map (fun h => { h with step := some u })
      ∧ t.groups.get u = some h ∧ SameRegs g h ∧ h.frags.get fid = some { f with free := true } := by
  have hb := State.get_of_heldBlock hwf h
  have hg : s.groups.get u = some g := assocGet_of_mem hgwf (List.mem_of_find?_eq_some hfind)
  refine ⟨(s.updBlock bid fun b => { b with hold := b.hold.map fun h => { h with step := some u } }).updFrag u fid fun f => { f with free := true },
    { b with hold := b.hold.map fun h => { h with step := some u } }, { g with frags := g.frags.upd fid fun f => { f with free := true } }, ?_, rfl, ?_, rfl, ?_, ⟨rfl, rfl, rfl, rfl, rfl⟩, ?_⟩
  · rw [State.groupAt] at hfind
    simp only [execDebugOne, h, hfind, hlow]
  · change (s.updBlock bid _).blocks.get bid = _
    rw [State.updBlock_get, if_pos rfl, hb, Option.map_some]
  · change (Table.upd s.groups u _).get u = _
    rw [Table.get_upd, if_pos rfl, hg, Option.map_some]
  · rw [Table.get_upd, if_pos rfl, hf, Option.map_some]

theorem execDebugRead_vreg (h : s.heldBlock p lid idx = some (bid, b)) {u : Nat} {g : Group} {i : Nat} (hg : s.groupAt bid i = some (u, g)) (r : Nat) :
    execDebugRead p lid idx (.vreg i r) s = .next { s with sent := s.sent ++ [.reply ((g.vreg r).toList.map (·.toNat))] } := by
  simp only [execDebugRead, h, hg]

theorem execDebugRead_sreg (h : s.heldBlock p lid idx = some (bid, b)) {u : Nat} {g : Group} {i : Nat} (hg : s.groupAt bid i = some (u, g)) (r : Nat) :
    execDebugRead p lid idx (.sreg i r) s = .next { s with sent := s.sent ++ [.reply [(g.sreg r).toNat]] } := by
  simp only [execDebugRead, h, hg]

theorem wroteSca_write (g : Group) (r : Nat) (x : Word) : WroteSca g (g.write (.sca r x)) 1 r x.toNat := by
  have hnone : WroteSca g g 0 r x.toNat := ⟨nofun, fun _ _ => ⟨rfl, .rfl⟩, fun _ => rfl, rfl, rfl⟩
  have hone := hnone.write
  rwa [Nat.add_zero, Nat.mul_zero, Nat.pow_zero, Nat.div_one, toWord, BitVec.ofNat_toNat, BitVec.setWidth_eq] at hone

theorem execDebugWrite_sreg (h : s.heldBlock p lid idx = some (bid, b)) (hrun : b.run = 0) {u : Nat} {g : Group} {i : Nat}
    (hg : s.groupAt bid i = some (u, g)) (r : Nat) (d : List Word) :
    ∃ t h, execDebugWrite p lid idx (.sreg i r) d s = .next t ∧ OnlyGroup s t u ∧ t.groups.get u = some h ∧ h.frame = g.frame ∧ h.frags = g.frags
      ∧ WroteSca g h 1 r (d.getD 0 0).toNat := by
  refine ⟨s.putGroup u (g.write (.sca r (d.getD 0 0))), _, ?_, ⟨rfl, fun k hk => ?_⟩, Table.get_put_same _ _ _, rfl, rfl, wroteSca_write _ _ _⟩
  · simp only [execDebugWrite, h, hg, hrun]
    rfl
  · exact Table.get_put_ne _ _ hk

/-- A block with a word of its store written by a debugger. -/
def Block.debugWord (b : Block) (i : Nat) (x : Word) : Block :=
  let full := match b.store.get i with | some w => w.full | none => false
  { b with store := b.store.put i { val := x, full := full, poison := false } }

theorem execDebugWrite_storeWord (h : s.heldBlock p lid idx = some (bid, b)) (hwf : s.blocks.wf = true) (hrun : b.run = 0) (i : Nat) (d : List Word) :
    ∃ t y, execDebugWrite p lid idx (.storeWord i) d s = .next t ∧ ({ t with blocks := s.blocks } : State) = s ∧ OneBlock s t bid y
      ∧ ∃ x, y.store.get i = some x ∧ x.val = d.getD 0 0 ∧ x.poison = false := by
  have hb := State.get_of_heldBlock hwf h
  refine ⟨s.updBlock bid fun b => b.debugWord i (d.getD 0 0), b.debugWord i (d.getD 0 0), ?_, rfl, ⟨?_, ?_⟩, ?_⟩
  · simp only [execDebugWrite, h, hrun]
    rfl
  · rw [State.updBlock_get, if_pos rfl, hb, Option.map_some]
  · intro k hk
    rw [State.updBlock_get, if_neg hk]
  · exact ⟨_, Table.get_put_same _ _ _, rfl, rfl⟩

end Sys2Proof.Machine
end
section
/-! PROOFS. A dump's beginning and its end, and the statement about the debugger, trace and dumps. Settles O60. -/

namespace Sys2Proof.Machine
open Sys2Proof

variable {s : State} {p v dest : Nat}

/-! ### Dumps (21 R422 to R425) -/

/-- A device's blocks held for a dump. -/
def State.dumpHeld (s : State) (p v : Nat) : State := (s.dumpBlocks p v).foldl (fun s x => s.holdBlock x.1 4 0 0 0) s

theorem SameJobs.dumpHeld (s : State) (p v : Nat) : SameJobs s (s.dumpHeld p v) := .foldl (fun t (x : Nat × Block × Launch) => .holdBlock t x.1 4 0 0 0 0) _ _

/-- A dump's length answered and its counter taken. -/
def State.dumpCounted (s : State) (p v n : Nat) : State :=
  { s with sent := s.sent ++ [Sent.reply [n]], dumpCounts := s.dumpCounts.put (8 * p + v) (s.dumpCounts.getD (8 * p + v) 0 + 1) }

/-- A dump has begun: its length is answered, its counter taken and its stream set by. -/
def State.dumpBegun (s : State) (p v dest : Nat) (bs : List Byte) (n : Nat) : State :=
  (s.dumpCounted p v n).updPart p fun q => { q with dumping := some (v, dest, bs) }

theorem State.dumpBegun_dumping (hp : (s.parts.get p).isSome = true) (bs : List Byte) (n : Nat) : ((s.dumpBegun p v dest bs n).part p).dumping = some (v, dest, bs) := by
  rw [State.dumpBegun, State.updPart_part (s := s.dumpCounted p v n) hp]

theorem State.dumpBegun_dumpCounts (s : State) (p v dest : Nat) (bs : List Byte) (n : Nat) :
    (s.dumpBegun p v dest bs n).dumpCounts.getD (8 * p + v) 0 = s.dumpCounts.getD (8 * p + v) 0 + 1 := Table.getD_put_same _ _ _ _

theorem execDump_begins {key : BitVec 256} (hkey : s.keys.get (8 * p + v) = some key) (hv : (s.part p).vdevs.getLsbD v = true)
    (hd : (s.part p).dumping = none) (hn : s.dumpCounts.getD (8 * p + v) 0 < 2 ^ 64 - 1) :
    let bs := (s.dumpHeld p v).dumpStream p v ((s.dumpHeld p v).ownedGates p)
    let n := bs.length + (bs.length + 65535) / 65536 * 48
    isHost dest = true → isHost (dest + n - 1) = true → execDump p v dest s = .next ((s.dumpHeld p v).dumpBegun p v dest bs n) := by
  intro bs n hlo hhi
  have hgo : ((s.keys.get (8 * p + v)).isNone || !(s.part p).vdevs.getLsbD v || (s.part p).dumping.isSome
      || decide (2 ^ 64 - 1 ≤ s.dumpCounts.getD (8 * p + v) 0) || !isHost dest || !isHost (dest + n - 1)) = false := by
    simp only [hkey, hv, hd, hlo, hhi, decide_eq_false (Nat.not_le.2 hn), Option.isNone_some, Option.isSome_none, Bool.not_true, Bool.or_false]
  simp only [execDump]
  rw [← State.dumpHeld, hgo]
  rfl

/-- A hold that a dump set. -/
def Hold.byDump (h : Option Hold) : Bool := h.any fun x => x.cause == 4

/-- The held blocks that the end of a device's dump releases. -/
def State.dumpRows (s : State) (p v : Nat) : List (Nat × Block) := s.blocks.rows.filter fun r => Hold.byDump r.2.hold && s.ofDevice p v r.2

/-- What a dump of a device held released, and its later holds dropped. -/
def State.dumpReleased (s : State) (p v : Nat) : State :=
  let t := (s.dumpRows p v).foldl (fun s r => s.releaseBlock r.1) s
  { t with blocks := t.blocks.map fun _ b => if Hold.byDump b.holdAtResume && t.ofDevice p v b then { b with holdAtResume := none } else b }

theorem State.dumpReleased_rest (s : State) (p v : Nat) : (s.dumpReleased p v).parts = s.parts ∧ (s.dumpReleased p v).mem = s.mem := by
  obtain ⟨gs, bs, h⟩ := State.foldl_releaseBlock_rest (fun r : Nat × Block => r.1) (s.dumpRows p v) s
  exact ⟨(congrArg State.parts h :), (congrArg State.mem h :)⟩

theorem State.dumpReleased_block {bid : Nat} {b : Block} {h : Hold} (hb : s.blocks.get bid = some b) (hh : b.hold = some h) (hc : h.cause = 4)
    (hof : s.ofDevice p v b = true) (hset : b.set = none) :
    ∃ y, (s.dumpReleased p v).blocks.get bid = some y ∧ y.hold = none ∧ y.store = b.store := by
  have hdump : Hold.byDump b.hold = true := by simp [Hold.byDump, hh, hc]
  have hmem : (bid, b) ∈ s.dumpRows p v := List.mem_filter.2 ⟨mem_of_assocGet hb, by simp [hdump, hof]⟩
  have hrel := State.foldl_releaseBlock_get hb hset (.inr hmem)
  simp only [State.dumpReleased, Table.get_map, hrel, Option.map_some]
  refine ⟨_, rfl, ?_, ?_⟩ <;> split <;> rfl

/-- The end of a dump: the engine free, the chunks written, the blocks released. -/
def State.dumpEnded (s : State) (p v dest : Nat) (out : List Byte) : State :=
  ((s.updPart p fun q => { q with dumping := none }).poke dest out).dumpReleased p v

theorem execDumpComplete_ends {bs : List Byte} (h : (s.part p).dumping = some (v, dest, bs)) :
    execDumpComplete p v s = .next (s.dumpEnded p v dest
      (dumpChunks ((s.keys.get (8 * p + v)).getD 0) p v (s.dumpCounts.getD (8 * p + v) 0) (bs.length / 65536 + 1) 0 bs)) := by
  simp only [execDumpComplete, h, ne_eq, not_true_eq_false, if_false]
  rfl

theorem State.dumpEnded_part (s : State) (p v dest : Nat) (out : List Byte) :
    (s.dumpEnded p v dest out).part p = (s.updPart p fun q => { q with dumping := none }).part p :=
  State.part_congr (State.dumpReleased_rest _ p v).1 p

theorem State.dumpEnded_mem (s : State) (p v dest : Nat) (out : List Byte) : (s.dumpEnded p v dest out).mem = Memory.writeN s.mem dest out :=
  (State.dumpReleased_rest _ p v).2

theorem State.isSome_of_dumping {x : Nat × Nat × List Byte} (h : (s.part p).dumping = some x) : (s.parts.get p).isSome = true := by
  cases hp : s.parts.get p with
  | some q => rfl
  | none =>
    have hreset : s.part p = Part.reset := (congrArg (·.getD Part.reset) hp :)
    rw [hreset] at h
    cases h

end Sys2Proof.Machine

open Sys2Proof Sys2Proof.Machine

/-- Settles O60: a command on a partition changes its record; holds and releases run over a unit's blocks, and a block that stands in no set is held or released by its own
step and kept so by the others'; a dump's end releases what the dump held. -/
theorem debugEvents : Obligations.DebugEvents := by
  unfold Obligations.DebugEvents
  refine ⟨⟨fun s p hp => ⟨?_, ?_, ?_, ?_, ?_, ?_, ?_⟩, ?_, fun s p lid idx bid b hheld hwf hset => ⟨?_, ?_, ?_, ?_⟩⟩, ?_, ?_⟩
  · exact fun stops hd => execDebugAttach_next hp stops hd
  · intro hd
    obtain ⟨hdbg, hbps⟩ := State.detachedFrom_part hp
    refine ⟨_, State.execDebugDetach_eq hd, State.detachedFrom_mem s p, hdbg, hbps, fun bid b l hb hl hlp hset => ?_⟩
    exact ⟨_, State.detachedFrom_block hb hset (State.blockOf_eq_true hl hlp), rfl, rfl, rfl⟩
  · exact fun n a lid hs hn ha => execDebugSetBp_next hp lid hs hn ha
  · exact fun n hwf => execDebugClrBp_next hp n hwf
  · exact fun v on ch ks => execTraceEnable_next hp v on ch ks
  · intro base n d hok hd ha r
    refine ⟨?_, fun v => ?_, fun v => ?_⟩
    · obtain ⟨t, ht, hpart⟩ := execRingRegister_next hp (ring := .debug d) hok hd ha
      exact ⟨t, ht, by rw [hpart]; rfl⟩
    · obtain ⟨t, ht, hpart⟩ := execRingRegister_next hp (ring := .sample v d) hok hd ha
      exact ⟨t, ht, by rw [hpart]; exact Table.get_put_same _ _ _⟩
    · obtain ⟨t, ht, hpart⟩ := execRingRegister_next hp (ring := .trace v d) hok hd ha
      exact ⟨t, ht, by rw [hpart]; exact Table.get_put_same _ _ _⟩
  · exact fun v vd lid idx m hd hv => execDebugWrite_sampling hp (lid := lid) (idx := idx) hd hv
  · intro s p lid idx bid b l hs _ hb hl hlp hlid hidx hh hset
    obtain ⟨t, ht, hy⟩ := execDebugHold_next hs hb hl hlp hlid hidx hh hset
    exact ⟨t, _, ht, hy, rfl, rfl⟩
  · exact execDebugRelease_next hheld hwf hset
  · exact fun u g i fid f hfind hlow hf hgwf => execDebugOne_next hheld hwf hfind hlow hf hgwf
  · intro u g i hg _ r
    refine ⟨⟨_, execDebugRead_vreg hheld hg r, rfl, rfl⟩, ⟨_, execDebugRead_sreg hheld hg r, rfl, rfl⟩, fun hrun d => ?_⟩
    exact execDebugWrite_sreg hheld hrun hg r d
  · exact fun hrun i d => execDebugWrite_storeWord hheld hwf hrun i d
  · intro s p v dest key hkey hv hp hd hn held bs n hlo hhi
    have hsame : SameJobs s held := .dumpHeld s p v
    refine ⟨_, execDump_begins hkey hv hd hn hlo hhi, State.dumpBegun_dumping ?_ _ _, rfl, ?_, hsame.keys⟩
    · exact (hsame.parts p).trans hp
    · rw [← hsame.dumpCounts]
      exact State.dumpBegun_dumpCounts held p v dest bs n
  · intro s p v dest bs h
    refine ⟨_, execDumpComplete_ends h, ?_, fun bid b h' hb hh hc hof hset => State.dumpReleased_block (s := (s.updPart p _).poke dest _) hb hh hc hof hset, State.dumpEnded_mem _ _ _ _ _⟩
    rw [State.dumpEnded_part, State.updPart_part (State.isSome_of_dumping h)]
end
section
/-! PROOFS. The instructions on collective groups. Settles O42. -/

namespace Sys2Proof.Machine
open Sys2Proof

section
variable {f : FormG} {s : State} {c : Ctx} {g : CollGroup} {v : Nat}

/-- The collective group that an instruction on groups names in its first word. -/
def Ctx.namesGroup (c : Ctx) (f : FormG) : Nat := (c.g.sreg (opndIdx f.y + 0)).toNat % 65536

theorem State.colls_get_of_collOf {p gid : Nat} (h : s.collOf p gid = some g) : s.colls.get gid = some g := by
  unfold State.collOf at h
  split at h
  next x hx =>
    split at h
    · rw [hx, h]
    · cases h
  · cases h

theorem State.updColl_get_same {gid : Nat} (h : s.colls.get gid = some g) (k : CollGroup → CollGroup) : (s.updColl gid k).colls.get gid = some (k g) := by
  rw [State.updColl, Table.get_upd, if_pos rfl, h, Option.map_some]

theorem State.updColl_get_ne {gid i : Nat} (hi : i ≠ gid) (k : CollGroup → CollGroup) : (s.updColl gid k).colls.get i = s.colls.get i := by
  rw [State.updColl, Table.get_upd, if_neg hi]

/-! ### cview (19 R387) -/

/-- The words of a group's view. -/
def CollGroup.viewWords (g : CollGroup) (gid : Nat) : List Nat :=
  [g.view, gid + g.slot * 2 ^ 16 + (if g.member then 2 ^ 24 else 0) + (if g.joining || g.joiner.isSome then 2 ^ 25 else 0),
    (slotsOf g.members).length, min g.stale (2 ^ 32 - 1)] ++ (toWords 8 g.members.toNat).map (·.toNat)

theorem toWords_length (n x : Nat) : (toWords n x).length = n := by
  induction n generalizing x with
  | zero => rfl
  | succ n ih => rw [toWords, List.length_cons, ih]

theorem toWords_getD (n x i : Nat) (hi : i < n) : (toWords n x).getD i 0 = toWord (x / 2 ^ (32 * i)) := by
  induction n generalizing x i with
  | zero => omega
  | succ n ih =>
    cases i with
    | zero => rw [toWords, List.getD_cons_zero, Nat.mul_zero, Nat.pow_zero, Nat.div_one]; exact toWord_mod x
    | succ i => rw [toWords, List.getD_cons_succ, ih _ _ (by omega), Nat.div_div_eq_div_mul, ← Nat.pow_add, Nat.mul_succ, Nat.add_comm]

theorem slotsOf_length_le (m : BitVec 256) : (slotsOf m).length ≤ 256 :=
  (List.length_filter_le _ _).trans_eq List.length_range

theorem CollGroup.viewWords_length (g : CollGroup) (gid : Nat) : (g.viewWords gid).length = 12 := by
  simp only [CollGroup.viewWords, List.length_append, List.length_map, toWords_length, List.length_cons, List.length_nil]

/-- A group's members as cview writes them, 32 to a word. -/
theorem CollGroup.viewWords_members (g : CollGroup) (gid : Nat) {i : Nat} (hi : i < 8) :
    ((g.viewWords gid).map toWord).getD (4 + i) 0 = toWord (g.members.toNat / 2 ^ (32 * i)) := by
  have hmap : ((toWords 8 g.members.toNat).map (·.toNat)).map toWord = toWords 8 g.members.toNat := by
    rw [List.map_map]
    exact (List.map_congr_left fun x _ => (BitVec.ofNat_toNat 32 x).trans (BitVec.setWidth_eq x)).trans (List.map_id _)
  rw [CollGroup.viewWords, List.map_append, hmap, List.getD_append_right _ _ _ _ (Nat.le_add_right 4 i)]
  exact (congrArg (fun k => (toWords 8 g.members.toNat).getD k 0) (Nat.add_sub_cancel_left (n := 4) (m := i))).trans (toWords_getD 8 _ i hi)

theorem execCview_performs (hc : Clear s c f.g [(12, f.x)] [(1, f.y)] false) (hr : c.repeats = false) (hlog : c.g.replay = [])
    (hg : s.collOf c.l.part (c.namesGroup f) = some g) :
    execCview f s = c.finish s (.done ((s.record c.uid .view 0xE1 (g.viewWords (c.namesGroup f)) (opDigest 0xE1 [(0, 0, [c.namesGroup f])])).writeRegs c.uid
      (sclWrites (opndIdx f.x) ((g.viewWords (c.namesGroup f)).map toWord)))) := by
  rw [execCview, sysInstr_clear hc]
  rw [Ctx.namesGroup, Nat.add_zero] at hg ⊢
  simp only [hg, State.consult_of_no_replay _ _ _ hr hlog, CollGroup.viewWords]

/-- The registers that cview leaves. -/
theorem CollGroup.view_written (g : CollGroup) (gid x : Nat) {h k : Group} (hh : ({ h with frags := k.frags } : Group) = k.writes (sclWrites x ((g.viewWords gid).map toWord))) :
    (∀ i, i < 12 → h.sreg (x + i) = ((g.viewWords gid).map toWord).getD i 0) ∧ (∀ i, i < x ∨ x + 12 ≤ i → h.sreg i = k.sreg i)
      ∧ h.vregs = k.vregs ∧ h.masks = k.masks := by
  have hlen : ((g.viewWords gid).map toWord).length = 12 := by rw [List.length_map, g.viewWords_length]
  have hsreg : ∀ i, h.sreg i = (k.writes (sclWrites x ((g.viewWords gid).map toWord))).sreg i := fun i => by rw [← hh]; rfl
  obtain ⟨hv, hm⟩ := k.writes_sclWrites_apart x ((g.viewWords gid).map toWord)
  rw [← hh] at hv hm
  refine ⟨fun i hi => ?_, fun i hi => ?_, hv, hm⟩
  · rw [hsreg, Group.sreg_writes_sclWrites, if_pos (by omega), Nat.add_sub_cancel_left]
  · rw [hsreg, Group.sreg_writes_sclWrites, if_neg (by omega)]

/-! ### cpolicy (19 R401) -/

/-- A thread group with the policy that cpolicy sets. -/
def Group.withPolicy (f : FormG) (g : Group) : Group := { g with policy := f.func.toNat % 4, trapBit := bitAt f.func.toNat 2 }

theorem execCpolicy_sets (hc : Clear s c f.g [] [] false) : execCpolicy f s = c.finish s (.done (s.updGroup c.uid (Group.withPolicy f))) := by
  rw [execCpolicy, sysInstr_clear hc]
  rfl

/-! ### cack (19 R401) -/

/-- The operations of a group that wait for the issuer's choice. -/
def State.dueChoices (s : State) (c : Ctx) (gid : Nat) : List (Nat × Nat × Nat) := (s.awaitingOf c.uid).filter fun x => x.1 == gid

/-- A choice in the log. -/
def cackEntry (gid choice : Nat) : LogEntry := { kind := .view, op := 0xE3, data := [], digest := opDigest 0xE3 [(0, 0, [gid, choice])] }

theorem execCack_performs (hc : Clear s c f.g [] [(1, f.y)] false) (hr : c.repeats = false) (hlog : c.g.replay = [])
    (hg : (s.collOf c.l.part (c.namesGroup f)).isSome = true) :
    execCack f s = c.finish s (.done ((s.dueChoices c (c.namesGroup f)).foldl
      (fun s x => s.collChoose (c.namesGroup f) x.2.1 (if f.func.toNat % 4 = 0 then x.2.2 else f.func.toNat % 4))
      (s.updGroup c.uid fun g => g.logs (cackEntry (c.namesGroup f) (f.func.toNat % 4))))) := by
  have hn : (s.collOf c.l.part (c.namesGroup f)).isNone = false := by rw [Option.isNone_eq_false_iff]; exact hg
  rw [execCack, sysInstr_clear hc]
  rw [Ctx.namesGroup, Nat.add_zero] at hn ⊢
  simp only [hn, State.consult_of_no_replay _ _ _ hr hlog, Bool.false_eq_true, if_false]
  refine congrArg (fun t => c.finish s (.done t)) (List.foldl_ext _ _ _ fun t x hx => ?_)
  rw [eq_of_beq (List.mem_filter.1 hx).2]

/-! ### cjoin (19 R403) -/

/-- The digest that cjoin gives. -/
def Ctx.joinDigest (c : Ctx) (f : FormG) : BitVec 64 :=
  BitVec.ofNat 64 ((c.g.sreg (opndIdx f.y + 2)).toNat + 2 ^ 32 * (c.g.sreg (opndIdx f.y + 3)).toNat)

/-- The digest of cjoin's operands in the log. -/
def Ctx.joinLogged (c : Ctx) (f : FormG) : Nat :=
  opDigest 0xE4 [(0, 0, [c.namesGroup f, (c.g.sreg (opndIdx f.y + 2)).toNat, (c.g.sreg (opndIdx f.y + 3)).toNat])]

/-- What giving a group's expected digest does to the machine beyond the issuer. -/
def State.digestGiven (s : State) (gid : Nat) (g : CollGroup) (dig : BitVec 64) : State :=
  if !g.member then s else if lowSlot g.members = g.slot then s.updColl gid fun g => { g with digest := some dig } else s.sends [.digest gid dig]

/-- A device that is no member gives nothing; the lowest member keeps the digest; another member sends it. -/
theorem State.digestGiven_cases (s : State) (gid : Nat) (g : CollGroup) (dig : BitVec 64) :
    (g.member = false ∧ s.digestGiven gid g dig = s)
    ∨ (g.member = true ∧ lowSlot g.members = g.slot ∧ s.digestGiven gid g dig = s.updColl gid fun g => { g with digest := some dig })
    ∨ (g.member = true ∧ lowSlot g.members ≠ g.slot ∧ s.digestGiven gid g dig = s.sends [.digest gid dig]) := by
  unfold State.digestGiven
  cases g.member with
  | false => exact .inl ⟨rfl, rfl⟩
  | true =>
    by_cases hlow : lowSlot g.members = g.slot
    · exact .inr (.inl ⟨rfl, hlow, if_pos hlow⟩)
    · exact .inr (.inr ⟨rfl, hlow, if_neg hlow⟩)

theorem State.digestGiven_frame (s : State) (gid : Nat) (g : CollGroup) (dig : BitVec 64) :
    ({ s.digestGiven gid g dig with colls := s.colls, sent := s.sent } : State) = s := by
  rcases s.digestGiven_cases gid g dig with ⟨-, h⟩ | ⟨-, -, h⟩ | ⟨-, -, h⟩ <;> rw [h] <;> rfl

theorem State.digestGiven_colls (s : State) {gid : Nat} (hg : s.colls.get gid = some g) (dig : BitVec 64) :
    if g.member = true ∧ lowSlot g.members = g.slot then (s.digestGiven gid g dig).colls.get gid = some { g with digest := some dig }
    else (s.digestGiven gid g dig).colls = s.colls := by
  rcases s.digestGiven_cases gid g dig with ⟨hm, h⟩ | ⟨hm, hlow, h⟩ | ⟨hm, hlow, h⟩ <;> rw [h]
  · rw [if_neg fun k => Bool.false_ne_true (hm.symm.trans k.1)]
  · rw [if_pos ⟨hm, hlow⟩]
    exact State.updColl_get_same hg _
  · rw [if_neg fun k => hlow k.2]
    rfl

theorem State.digestGiven_colls_ne (s : State) {gid k : Nat} (hk : k ≠ gid) (g : CollGroup) (dig : BitVec 64) :
    (s.digestGiven gid g dig).colls.get k = s.colls.get k := by
  rcases s.digestGiven_cases gid g dig with ⟨-, h⟩ | ⟨-, -, h⟩ | ⟨-, -, h⟩ <;> rw [h]
  · exact State.updColl_get_ne hk _
  · rfl

theorem State.digestGiven_sent (s : State) (gid : Nat) (g : CollGroup) (dig : BitVec 64) :
    (s.digestGiven gid g dig).sent = if g.member = true ∧ lowSlot g.members ≠ g.slot then s.sent ++ [.digest gid dig] else s.sent := by
  rcases s.digestGiven_cases gid g dig with ⟨hm, h⟩ | ⟨hm, hlow, h⟩ | ⟨hm, hlow, h⟩ <;> rw [h]
  · rw [if_neg fun k => Bool.false_ne_true (hm.symm.trans k.1)]
  · rw [if_neg fun k => k.2 hlow]
    rfl
  · rw [if_pos ⟨hm, hlow⟩]
    rfl

theorem execCjoin_gives (hc : Clear s c f.g [] [(4, f.y)] false) (hf : f.func = 1) (hr : c.repeats = false) (hlog : c.g.replay = [])
    (hg : s.collOf c.l.part (c.namesGroup f) = some g) :
    execCjoin f s = c.finish s (.done ((s.record c.uid .view 0xE4 [] (c.joinLogged f)).digestGiven (c.namesGroup f) g (c.joinDigest f))) := by
  have hset : (f.func == 1) = true := by rw [hf]; rfl
  simp only [execCjoin, hset, if_true]
  rw [sysInstr_clear hc]
  rw [Ctx.namesGroup] at hg ⊢
  simp only [hg, State.consult_of_no_replay _ _ _ hr hlog]
  rfl

/-- What answers a cjoin that asks: an answer that has come; a member's; one before the device is ready; one whose digest differs from the expected one. -/
def Ctx.joinAnswer (s : State) (c : Ctx) (g : CollGroup) (dig : BitVec 64) (v : Nat) : Prop :=
  (∃ op d, c.f.pend = .done op d ∧ v = d.getD 0 0) ∨ (c.f.pend = .none ∧ g.member = true ∧ v = 3)
    ∨ (c.f.pend = .none ∧ g.member = false ∧ s.joinReady = false ∧ v = 2)
    ∨ (c.f.pend = .none ∧ g.member = false ∧ s.joinReady = true ∧ ¬g.digest = some dig ∧ v = 1)

theorem execCjoin_answers (hc : Clear s c f.g [(1, f.x)] [(4, f.y)] false) (hf : f.func = 0) (hr : c.repeats = false) (hlog : c.g.replay = [])
    (hg : s.collOf c.l.part (c.namesGroup f) = some g) (ha : c.joinAnswer s g (c.joinDigest f) v) :
    execCjoin f s = c.finish s (.done ((s.record c.uid .view 0xE4 [v] (c.joinLogged f)).writeRegs c.uid (sclWrites (opndIdx f.x) (toWords 1 v)))) := by
  have hset : (f.func == 1) = false := by rw [hf]; rfl
  simp only [execCjoin, hset, Bool.false_eq_true, if_false]
  rw [sysInstr_clear hc, sclWrites_one]
  rw [Ctx.namesGroup] at hg
  rcases ha with ⟨op, d, hp, rfl⟩ | ⟨hp, hm, rfl⟩ | ⟨hp, hm, hready, rfl⟩ | ⟨hp, hm, hready, hd, rfl⟩
  · simp only [hg, hp]
    rfl
  · simp only [hg, hp, State.consult_of_no_replay _ _ _ hr hlog, hm, if_true]
    rfl
  · simp only [hg, hp, State.consult_of_no_replay _ _ _ hr hlog, hm, hready, Bool.not_false, if_true, Bool.false_eq_true, if_false]
    rfl
  · have hdiff : (g.digest != some (c.joinDigest f)) = true := bne_iff_ne.2 hd
    rw [Ctx.joinDigest] at hdiff
    simp only [hg, hp, State.consult_of_no_replay _ _ _ hr hlog, hm, hready, hdiff, Bool.not_true, if_true, Bool.false_eq_true, if_false]
    rfl

/-- The machine when a device has asked to rejoin. -/
def State.askedToJoin (s : State) (gid slot : Nat) (dig : BitVec 64) : State :=
  (s.updColl gid fun g => { g with joining := true }).sends [.join gid slot dig]

theorem execCjoin_asks (hc : Clear s c f.g [(1, f.x)] [(4, f.y)] false) (hf : f.func = 0) (hr : c.repeats = false) (hlog : c.g.replay = [])
    (hg : s.collOf c.l.part (c.namesGroup f) = some g) (hp : c.f.pend = .none) (hm : g.member = false) (hready : s.joinReady = true)
    (hd : g.digest = some (c.joinDigest f)) :
    execCjoin f s = c.finish s (.wait 14 ((s.askedToJoin (c.namesGroup f) g.slot (c.joinDigest f)).updFrag c.uid c.fid
      fun z => { z with pend := .join (c.namesGroup f) (c.joinLogged f) })) := by
  have hset : (f.func == 1) = false := by rw [hf]; rfl
  have hdiff : (g.digest != some (c.joinDigest f)) = false := by rw [hd]; exact bne_self_eq_false _
  simp only [execCjoin, hset, Bool.false_eq_true, if_false]
  rw [sysInstr_clear hc]
  rw [Ctx.namesGroup] at hg
  rw [Ctx.joinDigest] at hdiff
  simp only [hg, hp, State.consult_of_no_replay _ _ _ hr hlog, hm, hready, hdiff, Bool.not_true, Bool.false_eq_true, if_false]
  rfl

/-! ### coll (19 R396) -/

/-- The record of an operation that no packet came for before its card. -/
def CollOp.ofCard (g : CollGroup) (j : Job) (id : Nat) : CollOp := { CollOp.early j.collCard g.members Table.empty with job := id }

/-- A group whose next operation number a card has taken. -/
def CollGroup.took (g : CollGroup) (o : CollOp) (h : CollGroup) : CollGroup :=
  { h with opNum := (g.opNum + 1) % 2 ^ 32, ops := h.ops.put g.opNum o }

/-- Every result that a card's reading gives is one that `P` holds of. -/
def Gives {α : Type} (P : α → Prop) (e : Except Trap α) : Prop := ∀ x, e = .ok x → P x

namespace Gives
variable {α β : Type} {P : α → Prop}

theorem ok {x : α} (h : P x) : Gives P (.ok x) := fun _ hx => Except.ok.inj hx ▸ h

theorem error (t : Trap) : Gives P (.error t) := nofun

theorem bind {e : Except Trap β} {k : β → Except Trap α} (h : ∀ b, Gives P (k b)) : Gives P (e >>= k) := by
  cases e with
  | error t => exact .error t
  | ok b => exact h b

theorem ite {p : Prop} [Decidable p] {e d : Except Trap α} (he : Gives P e) (hd : Gives P d) : Gives P (if p then e else d) :=
  iteInduction (fun _ => he) fun _ => hd

end Gives

/-- A group with a job on it by the number of the group in the job's words. -/
def State.Names (s : State) (x : CollGroup × Job) : Prop := s.colls.get (x.2.aux.getD 0 0) = some x.1

theorem State.collCard_names (ws : List Word) : Gives s.Names (s.collCard c ws) := by
  unfold State.collCard
  extract_lets w ptr fault op red ty root gid n jp
  have hjp : ∀ u, Gives s.Names (jp u) := fun u => by
    dsimp -zeta only [jp]
    split
    next => exact .error _
    next g hg =>
      extract_lets bound withWindow
      have hwindow : ∀ sw, Gives s.Names (withWindow sw) := fun sw => by
        refine .bind fun bar => ?_
        extract_lets card bounded given checked
        have hgiven : ∀ u, Gives s.Names (given u) := fun u => .ok (State.colls_get_of_collOf hg)
        have hchecked : ∀ u, Gives s.Names (checked u) := fun u => by
          cases sw with
          | none => exact hgiven ()
          | some x => exact .ite (.bind hgiven) (hgiven ())
        exact .ite (.bind hchecked) (hchecked ())
      exact .ite (.bind hwindow) (.bind hwindow)
  exact .ite (.bind hjp) (hjp ())

theorem execColl_enters {j : Job} (hb : unboundQ f.handle c = false) (hc : Clear s c f.g [] [(12, f.x)] false) (hport : c.port f.handle.toNat = some 3)
    (hcard : s.collCard c (c.g.scalars (opndIdx f.x) 12) = .ok (g, j)) (hfull : c.g.full 2 = false) (hcards : s.cards true c.g.core < 16)
    (hkeyed : c.g.keyed = []) (hdet : s.detached c = none) (hr : c.repeats = false) (hm : g.member = true) (hop : g.ops.get g.opNum = none)
    (hn : j.vals.getD 1 0 ≠ 0) :
    execColl f s = c.finish s (.done ((s.enterJob c 2 j).updColl (j.aux.getD 0 0) (g.took (.ofCard g j s.uid)))) := by
  have hgo : ¬16 ≤ s.cards true c.g.core := Nat.not_le.2 hcards
  rw [execColl, sysFull_clear hc rfl hb]
  have hended : (CollOp.early j.collCard g.members Table.empty).ended = none := rfl
  have hsame : (CollOp.early j.collCard g.members Table.empty).card = j.collCard := rfl
  have hidle : (CollOp.early j.collCard g.members Table.empty).deciding = false := rfl
  simp only [hport, hcard, hfull, hgo, hkeyed, hdet, hr, hm, hop, hn, hended, hsame, hidle, Group.loggedColl, List.find?_nil, Option.isSome_none, ne_eq,
    not_true_eq_false, Bool.not_true, Bool.false_eq_true, if_false]
  rfl

end

end Sys2Proof.Machine

open Sys2Proof Sys2Proof.Machine

/-- Settles O42: each instruction performs its step, with its result in the log, and completes by the shared finish. -/
theorem collectivesComplete : Obligations.CollectivesComplete := by
  unfold Obligations.CollectivesComplete
  intro f s c hr hlog hroom w gid
  have hh : c.holdsUp s = false := Ctx.holdsUp_eq_false hroom
  refine ⟨fun g hc hg => ?_, fun hc => ?_, fun hc hg => ?_, fun g hc hf hg => ?_, fun g v hc hf hx hg => ⟨fun ha => ?_, fun hp hm hready hsame => ?_⟩, ?_⟩
  · obtain ⟨t, h, ht, honly, hget, hone, heq⟩ := finish_logged_writes hc.1 hh .view 0xE1 (g.viewWords gid) (opDigest 0xE1 [(0, 0, [gid])])
      (sclWrites (opndIdx f.x) ((g.viewWords gid).map toWord))
    obtain ⟨hwords, hrest, hv, hm⟩ := g.view_written gid (opndIdx f.x) (k := c.g.logs _) heq
    refine ⟨t, h, (execCview_performs hc hr hlog hg).trans ht, honly, hget, hone, hwords 0 (by decide), ?_, hwords 1 (by decide), hwords 3 (by decide), fun i hi => ?_, hrest, hv, hm⟩
    · rw [hwords 2 (by decide)]
      exact Nat.mod_eq_of_lt (Nat.lt_of_le_of_lt (slotsOf_length_le g.members) (by decide))
    · rw [Nat.add_assoc, hwords (4 + i) (by omega), g.viewWords_members gid hi]
  · obtain ⟨hn, hnow⟩ := ((issuerIs_refl hc.1).updGroup (Group.withPolicy f)).completes hc.1 rfl (.inr hh)
    exact ⟨_, (execCpolicy_sets hc).trans hn, rfl, hnow⟩
  · intro choice entry due
    refine ⟨_, (execCack_performs hc hr hlog hg).trans (Ctx.finish_done hh _), fun hdue => ?_, rfl⟩
    have hnone : s.dueChoices c (c.namesGroup f) = [] := hdue
    rw [hnone]
    exact ⟨((onlyGroup_refl s c.uid).updGroup _).updGroup _, ((issuerIs_refl hc.1).updGroup fun g => g.logs entry).advance hc.1 rfl⟩
  · intro dig
    set s1 := s.record c.uid .view 0xE4 [] (c.joinLogged f) with hs1
    have hframe := s1.digestGiven_frame gid g dig
    have hi := ((issuerIs_refl hc.1).record .view 0xE4 [] (c.joinLogged f)).of_groups_eq (congrArg State.groups hframe :)
    refine ⟨_, (execCjoin_gives hc hf hr hlog hg).trans (Ctx.finish_done hh _), ?_, hi.advance hc.1 rfl, fun k hk => ?_, ?_, ?_⟩
    · exact (congrArg (fun u : State => ({ u with groups := s.groups } : State)) hframe :)
    · exact s1.digestGiven_colls_ne hk g dig
    · exact s1.digestGiven_colls (State.colls_get_of_collOf hg) dig
    · exact s1.digestGiven_sent gid g dig
  · obtain ⟨t, h, ht, honly, hget, hone, hw, hl⟩ := finish_logged_scalar hc.1 hh .view 0xE4 [v] (c.joinLogged f) 1 (opndIdx f.x) v
    exact ⟨t, h, (execCjoin_answers hc hf hr hlog hg ha).trans ht, honly, hget, hw, hone, hl⟩
  · obtain ⟨t, ht, hframe, hnow⟩ := finish_wait_pend hc.1 (t := s.askedToJoin gid g.slot (c.joinDigest f)) rfl (.join gid (c.joinLogged f)) 14
    refine ⟨t, (execCjoin_asks hc hf hr hlog hg hp hm hready hsame).trans ht, hnow, ?_, ?_⟩
    · rw [show t.colls = (s.askedToJoin gid g.slot (c.joinDigest f)).colls from (congrArg State.colls hframe :)]
      exact State.updColl_get_same (State.colls_get_of_collOf hg) _
    · exact (congrArg State.sent hframe :)
  · intro g j hb hc hport hcard hfull hcards hkeyed hdet hm hop hn
    have hframe := State.enterJob_frame (s := s) hr 2 j
    have hget : (s.enterJob c 2 j).colls.get (j.aux.getD 0 0) = some g := by
      rw [show (s.enterJob c 2 j).colls = s.colls from (congrArg State.colls hframe :)]
      exact State.collCard_names _ _ hcard
    refine ⟨_, _, _, (execColl_enters hb hc hport hcard hfull hcards hkeyed hdet hr hm hop hn).trans (Ctx.finish_done hh _), ?_, ?_, ?_, State.updColl_get_same hget _, rfl,
      Table.get_put_same _ _ _, rfl, rfl⟩
    · exact (congrArg (fun u : State => ({ u with colls := s.colls } : State)) hframe :)
    · exact ((issuerIs_enterJob hr hc.1 2 j).of_groups_eq rfl).advance hc.1 (Ctx.named_frags c 2 s.uid)
    · exact (congrArg (·.get s.uid) (State.enterJob_jobs hr 2 j)).trans (Table.get_put_same _ _ _)
end
